-- ==== Sys2Proof/Word.lean ====
section
/-! DEFINITION. The word types of the machine and the shapes of its vector registers. -/

namespace Sys2Proof

/-- One byte. -/
abbrev Byte := BitVec 8
/-- A 32-bit element word of a vector register (R121). -/
abbrev W32 := BitVec 32
/-- A 64-bit scalar register or CSR word (R97). -/
abbrev W64 := BitVec 64
/-- One row of a vector register: 64 lanes of 32 bits (R13, R121). -/
abbrev Row := Vector W32 64
/-- A vector register, or the vector part of a slot latch: 16 rows (R121). -/
abbrev VReg := Vector Row 16

/-- The row whose every element is the same word. -/
def Row.splat (w : W32) : Row := Vector.replicate 64 w
/-- The row of zeros. -/
def Row.zero : Row := Row.splat 0
/-- The vector register of zeros. -/
def VReg.zero : VReg := Vector.replicate 16 Row.zero

end Sys2Proof
end

