-- ==== Sys2Proof/Machine/Bits.lean ====
section
/-! DEFINITION. Bit-field, extension, byte-order and counting helpers over Nat and bit vectors. -/

namespace Sys2Proof.Machine

/-- Bits [hi:lo] of a natural number, counted down to bit 0. -/
def bitsOf (x hi lo : Nat) : Nat := x / 2 ^ lo % 2 ^ (hi + 1 - lo)

/-- Bit i of a natural number. -/
def bitOf (x i : Nat) : Bool := x.testBit i

/-- The 64-bit value of the low 32 bits, sign-extended (R97: sext32). -/
def sext32 (x : W32) : W64 := x.signExtend 64

/-- The 64-bit value of the low 32 bits, zero-extended (R97: zext32). -/
def zext32 (x : W32) : W64 := x.zeroExtend 64

/-- The low 32 bits of a 64-bit word. -/
def low32 (x : W64) : W32 := x.truncate 32

/-- A word of one bit: 1 or 0. -/
def ofFlag (w : Nat) (b : Bool) : BitVec w := if b then 1 else 0

/-- The number of one bits of x below bit position n. -/
def popCount : Nat → Nat → Nat
  | 0, _ => 0
  | n + 1, x => x % 2 + popCount n (x / 2)

/-- The number of zero bits above the highest one bit of a w-bit value; w for 0 (R109, R141). -/
def leadingZeros (w x : Nat) : Nat := if x = 0 then w else w - 1 - Nat.log2 x

/-- The number of zero bits below the lowest one bit, counted over at most n bits; n for 0 (R109). -/
def trailingZeros : Nat → Nat → Nat
  | 0, _ => 0
  | n + 1, x => if x % 2 = 1 then 0 else 1 + trailingZeros n (x / 2)

/-- The n low bytes of x, least significant first (R3: little-endian). -/
def toBytes : Nat → Nat → List Byte
  | 0, _ => []
  | n + 1, x => BitVec.ofNat 8 x :: toBytes n (x / 256)

/-- The value of bytes held least significant first (R3). -/
def ofBytes : List Byte → Nat
  | [] => 0
  | b :: bs => b.toNat + 256 * ofBytes bs

/-- The signed value of the low w bits of x. -/
def signedOf (w x : Nat) : Int :=
  if x % 2 ^ w < 2 ^ (w - 1) then (x % 2 ^ w : Nat) else (x % 2 ^ w : Nat) - (2 ^ w : Nat)

/-- The low w bits of an integer, in two's complement. -/
def wrapInt (w : Nat) (z : Int) : Nat := (z % (2 ^ w : Nat)).toNat

/-- z held to the range lo .. hi, and whether it had to be. -/
def clampInt (lo hi z : Int) : Int × Bool :=
  if z < lo then (lo, true) else if hi < z then (hi, true) else (z, false)

/-- The list f lo, f (lo+1), ..., of n values. -/
def tabulate {α : Type} (f : Nat → α) : Nat → Nat → List α
  | 0, _ => []
  | n + 1, lo => f lo :: tabulate f n (lo + 1)

/-- The first entry of a list that satisfies p, with its place. -/
def findPlace {α : Type} (p : α → Bool) : List α → Nat → Option (Nat × α)
  | [], _ => none
  | a :: l, i => if p a then some (i, a) else findPlace p l (i + 1)

/-- The list with its entry at place i replaced; the list itself where there is no such place. -/
def setPlace {α : Type} : List α → Nat → α → List α
  | [], _, _ => []
  | _ :: l, 0, b => b :: l
  | a :: l, i + 1, b => a :: setPlace l i b

/-- The list without its entry at place i. -/
def dropPlace {α : Type} : List α → Nat → List α
  | [], _ => []
  | _ :: l, 0 => l
  | a :: l, i + 1 => a :: dropPlace l i

/-- A CRC-64 by the polynomial of ECMA-182, most significant bit first, from 0 (R432; PRESUMED, notes/assumptions/109.md). -/
def crc64 (bs : List Byte) : W64 :=
  bs.foldl (fun r b =>
    (List.range 8).foldl (fun r _ => if r.msb then (r <<< 1) ^^^ 0x42F0E1EBA9EA3693 else r <<< 1)
      (r ^^^ BitVec.ofNat 64 (b.toNat * 2 ^ 56))) 0

end Sys2Proof.Machine
end

