-- ==== Sys2Proof/Machine/Float.lean ====
section
/-! DEFINITION. Floating-point arithmetic of the vector and special-function slots: IEEE 754-2019 in binary32, binary16
and bfloat16 (R123 Table 2, R131), each result rounded once from the exact value. Status is the low byte of VSTAT
(R99): bit 0 NV, 1 DZ, 2 OF, 3 UF, 4 NX, 5 IDZ, 6 IOV, 7 SAT. -/

namespace Sys2Proof.Machine

/-- Status bits, in the places of VSTAT[7:0] (R99). -/
abbrev Status := BitVec 8

def Status.none : Status := 0
def Status.nv : Status := 0x01
def Status.dz : Status := 0x02
def Status.of : Status := 0x04
def Status.uf : Status := 0x08
def Status.nx : Status := 0x10
def Status.idz : Status := 0x20
def Status.iov : Status := 0x40
def Status.sat : Status := 0x80

/-- Status bits raised where a condition holds. -/
def Status.when (b : Bool) (s : Status) : Status := if b then s else 0

/-- A binary floating-point format: exponent bits and fraction bits. -/
structure FloatFormat where
  ebits : Nat
  mbits : Nat
deriving DecidableEq, Repr

def FloatFormat.binary32 : FloatFormat := { ebits := 8, mbits := 23 }
def FloatFormat.binary16 : FloatFormat := { ebits := 5, mbits := 10 }
def FloatFormat.bfloat16 : FloatFormat := { ebits := 8, mbits := 7 }

/-- What a bit pattern stands for: a NaN, an infinity, or the number ±mant * 2^exp. -/
inductive FloatNum where
  | nan (signalling : Bool)
  | inf (neg : Bool)
  | fin (neg : Bool) (mant : Nat) (exp : Int)
deriving DecidableEq, Repr

/-- The exponent bias of a format. -/
def floatBias (fmt : FloatFormat) : Int := (2 ^ (fmt.ebits - 1) : Nat) - 1

/-- The width of a format in bits. -/
def floatWidth (fmt : FloatFormat) : Nat := 1 + fmt.ebits + fmt.mbits

/-- The number a bit pattern stands for (R131: subnormals are kept). -/
def floatDecode (fmt : FloatFormat) (x : Nat) : FloatNum :=
  let frac := x % 2 ^ fmt.mbits
  let e := x / 2 ^ fmt.mbits % 2 ^ fmt.ebits
  let neg := x.testBit (fmt.ebits + fmt.mbits)
  if e = 2 ^ fmt.ebits - 1 then
    if frac = 0 then .inf neg else .nan (!frac.testBit (fmt.mbits - 1))
  else if e = 0 then .fin neg frac (1 - floatBias fmt - fmt.mbits)
  else .fin neg (2 ^ fmt.mbits + frac) ((e : Int) - floatBias fmt - fmt.mbits)

/-- The sign bit of a pattern in its place. -/
def floatSign (fmt : FloatFormat) (neg : Bool) : Nat := if neg then 2 ^ (fmt.ebits + fmt.mbits) else 0

/-- The canonical NaN (R123 Table 2). -/
def floatNan (fmt : FloatFormat) : Nat := (2 ^ fmt.ebits - 1) * 2 ^ fmt.mbits + 2 ^ (fmt.mbits - 1)

/-- An infinity. -/
def floatInf (fmt : FloatFormat) (neg : Bool) : Nat := floatSign fmt neg + (2 ^ fmt.ebits - 1) * 2 ^ fmt.mbits

/-- The largest finite number of a sign. -/
def floatMax (fmt : FloatFormat) (neg : Bool) : Nat := floatInf fmt neg - 1

/-- A zero of a sign. -/
def floatZero (fmt : FloatFormat) (neg : Bool) : Nat := floatSign fmt neg

/-- Whether a discarded part rounds the kept part up in magnitude, in mode rm of R102: rem of 2^shift was discarded, and
sticky says that a further non-zero part lies below it. -/
def roundsUp (rm : Nat) (neg : Bool) (kept rem shift : Nat) (sticky : Bool) : Bool :=
  let half := 2 ^ (shift - 1)
  let inexact := decide (rem ≠ 0) || sticky
  let above := decide (half < rem) || (decide (rem = half) && sticky)
  let tie := decide (rem = half) && !sticky
  if shift = 0 then
    -- nothing but the sticky part, below one half, was discarded
    match rm with
    | 2 => sticky && neg
    | 3 => sticky && !neg
    | _ => false
  else
    match rm with
    | 0 => above || (tie && decide (kept % 2 = 1))
    | 1 => false
    | 2 => inexact && neg
    | 3 => inexact && !neg
    | _ => above || tie

/-- mant * 2^exp (with a further part in (0,1) * 2^exp where sticky) as a multiple of 2^q: the rounded multiple, and
whether it is inexact. -/
def roundAt (rm : Nat) (neg : Bool) (mant : Nat) (exp q : Int) (sticky : Bool) : Nat × Bool :=
  if q ≤ exp then
    let kept := mant * 2 ^ (exp - q).toNat
    (kept + (if roundsUp rm neg kept 0 0 sticky then 1 else 0), sticky)
  else
    let shift := (q - exp).toNat
    let kept := mant / 2 ^ shift
    let rem := mant % 2 ^ shift
    (kept + (if roundsUp rm neg kept rem shift sticky then 1 else 0), decide (rem ≠ 0) || sticky)

/-- The overflow result of a rounding mode. -/
def floatOverflow (fmt : FloatFormat) (rm : Nat) (neg : Bool) : Nat :=
  match rm with
  | 1 => floatMax fmt neg
  | 2 => if neg then floatInf fmt true else floatMax fmt false
  | 3 => if neg then floatMax fmt true else floatInf fmt false
  | _ => floatInf fmt neg

/-- Round the exact value ±mant * 2^exp (plus a sticky part) to a format in a mode, with its status: OF, UF (tiny after
rounding and inexact) and NX (R131). Where sticky is set, mant has at least two bits more than the precision. -/
def floatRound (fmt : FloatFormat) (rm : Nat) (neg : Bool) (mant : Nat) (exp : Int) (sticky : Bool) : Nat × Status :=
  if mant = 0 then (floatZero fmt neg, 0)
  else
    let p := fmt.mbits + 1
    let emin : Int := 1 - floatBias fmt
    let qFree : Int := exp + (Nat.log2 mant + 1 : Nat) - p
    let q : Int := max qFree (emin - fmt.mbits)
    let (kept, inexact) := roundAt rm neg mant exp q sticky
    let (keptFree, _) := roundAt rm neg mant exp qFree sticky
    -- the magnitude rounded with an unbounded exponent lies below 2^emin
    let tiny := decide (qFree + (Nat.log2 keptFree : Nat) < emin)
    -- normalise a carry out of the precision
    let (kept, q) := if 2 ^ p ≤ kept then (kept / 2, q + 1) else (kept, q)
    if floatBias fmt < q + (p - 1 : Nat) then (floatOverflow fmt rm neg, Status.of ||| Status.nx)
    else
      let status := Status.when inexact Status.nx ||| Status.when (inexact && tiny) Status.uf
      if kept < 2 ^ fmt.mbits then (floatSign fmt neg + kept, status)
      else
        let e := (q + fmt.mbits + floatBias fmt).toNat
        (floatSign fmt neg + e * 2 ^ fmt.mbits + (kept - 2 ^ fmt.mbits), status)

/-- Whether a number is a signalling NaN. -/
def FloatNum.isSignalling : FloatNum → Bool
  | .nan s => s
  | _ => false

/-- Whether a number is a NaN. -/
def FloatNum.isNan : FloatNum → Bool
  | .nan _ => true
  | _ => false

/-- The sum of two exact numbers ±mant * 2^exp, rounded; an exact zero sum of unlike signs is +0, or −0 toward −∞. -/
def floatAddExact (fmt : FloatFormat) (rm : Nat) (n1 : Bool) (m1 : Nat) (e1 : Int) (n2 : Bool) (m2 : Nat) (e2 : Int) :
    Nat × Status :=
  let e := min e1 e2
  let x1 : Int := (m1 * 2 ^ (e1 - e).toNat : Nat)
  let x2 : Int := (m2 * 2 ^ (e2 - e).toNat : Nat)
  let z := (if n1 then -x1 else x1) + (if n2 then -x2 else x2)
  if z = 0 then (floatZero fmt (if n1 = n2 then n1 else decide (rm = 2)), 0)
  else floatRound fmt rm (decide (z < 0)) z.natAbs e false

/-- a + b (R131). -/
def floatAdd (fmt : FloatFormat) (rm : Nat) (a b : Nat) : Nat × Status :=
  match floatDecode fmt a, floatDecode fmt b with
  | .nan s, y => (floatNan fmt, Status.when (s || y.isSignalling) Status.nv)
  | _, .nan s => (floatNan fmt, Status.when s Status.nv)
  | .inf n1, .inf n2 => if n1 = n2 then (floatInf fmt n1, 0) else (floatNan fmt, Status.nv)
  | .inf n1, _ => (floatInf fmt n1, 0)
  | _, .inf n2 => (floatInf fmt n2, 0)
  | .fin n1 m1 e1, .fin n2 m2 e2 => floatAddExact fmt rm n1 m1 e1 n2 m2 e2

/-- The pattern with its sign bit inverted. -/
def floatFlip (fmt : FloatFormat) (x : Nat) : Nat := x ^^^ 2 ^ (fmt.ebits + fmt.mbits)

/-- a − b (R131). -/
def floatSub (fmt : FloatFormat) (rm : Nat) (a b : Nat) : Nat × Status := floatAdd fmt rm a (floatFlip fmt b)

/-- a × b (R131). -/
def floatMul (fmt : FloatFormat) (rm : Nat) (a b : Nat) : Nat × Status :=
  match floatDecode fmt a, floatDecode fmt b with
  | .nan s, y => (floatNan fmt, Status.when (s || y.isSignalling) Status.nv)
  | _, .nan s => (floatNan fmt, Status.when s Status.nv)
  | .inf n1, .inf n2 => (floatInf fmt (n1 != n2), 0)
  | .inf n1, .fin n2 m _ => if m = 0 then (floatNan fmt, Status.nv) else (floatInf fmt (n1 != n2), 0)
  | .fin n1 m _, .inf n2 => if m = 0 then (floatNan fmt, Status.nv) else (floatInf fmt (n1 != n2), 0)
  | .fin n1 m1 e1, .fin n2 m2 e2 => floatRound fmt rm (n1 != n2) (m1 * m2) (e1 + e2) false

/-- Whether a product is 0 × ∞. -/
def floatZeroTimesInf : FloatNum → FloatNum → Bool
  | .inf _, .fin _ m _ => decide (m = 0)
  | .fin _ m _, .inf _ => decide (m = 0)
  | _, _ => false

/-- The exact value ±(a × b) + c rounded once, with the product's sign inverted where negate (R131, R136): 0 × ∞ raises
NV whatever c is. -/
def floatFma (fmt : FloatFormat) (rm : Nat) (negate : Bool) (a b c : Nat) : Nat × Status :=
  let x := floatDecode fmt a
  let y := floatDecode fmt b
  let z := floatDecode fmt c
  if floatZeroTimesInf x y then (floatNan fmt, Status.nv)
  else if x.isNan || y.isNan || z.isNan then
    (floatNan fmt, Status.when (x.isSignalling || y.isSignalling || z.isSignalling) Status.nv)
  else
    match x, y, z with
    | .fin n1 m1 e1, .fin n2 m2 e2, .fin n3 m3 e3 =>
      floatAddExact fmt rm ((n1 != n2) != negate) (m1 * m2) (e1 + e2) n3 m3 e3
    | .fin _ _ _, .fin _ _ _, .inf n3 => (floatInf fmt n3, 0)
    | .inf n1, .inf n2, .inf n3 => floatFmaInf ((n1 != n2) != negate) n3
    | .inf n1, .fin n2 _ _, .inf n3 => floatFmaInf ((n1 != n2) != negate) n3
    | .fin n1 _ _, .inf n2, .inf n3 => floatFmaInf ((n1 != n2) != negate) n3
    | .inf n1, .inf n2, _ => (floatInf fmt ((n1 != n2) != negate), 0)
    | .inf n1, .fin n2 _ _, _ => (floatInf fmt ((n1 != n2) != negate), 0)
    | .fin n1 _ _, .inf n2, _ => (floatInf fmt ((n1 != n2) != negate), 0)
    | _, _, _ => (floatNan fmt, 0)
where
  /-- An infinite product and an infinite addend. -/
  floatFmaInf (n1 n2 : Bool) : Nat × Status :=
    if n1 = n2 then (floatInf fmt n1, 0) else (floatNan fmt, Status.nv)

/-- The order of two exact numbers, −0 and +0 equal: whether the first is below the second. -/
def floatLtExact (n1 : Bool) (m1 : Nat) (e1 : Int) (n2 : Bool) (m2 : Nat) (e2 : Int) : Bool :=
  let e := min e1 e2
  let x1 : Int := (m1 * 2 ^ (e1 - e).toNat : Nat)
  let x2 : Int := (m2 * 2 ^ (e2 - e).toNat : Nat)
  decide ((if n1 then -x1 else x1) < (if n2 then -x2 else x2))

/-- a < b for two numbers, false where either is a NaN. -/
def FloatNum.lt : FloatNum → FloatNum → Bool
  | .nan _, _ => false
  | _, .nan _ => false
  | .inf n1, .inf n2 => n1 && !n2
  | .inf n1, .fin _ _ _ => n1
  | .fin _ _ _, .inf n2 => !n2
  | .fin n1 m1 e1, .fin n2 m2 e2 => floatLtExact n1 m1 e1 n2 m2 e2

/-- Minimum (isMax false) or maximum of two patterns: minimumNumber and maximumNumber, −0 below +0 (R135). -/
def floatMinMax (fmt : FloatFormat) (isMax : Bool) (a b : Nat) : Nat × Status :=
  let x := floatDecode fmt a
  let y := floatDecode fmt b
  let status := Status.when (x.isSignalling || y.isSignalling) Status.nv
  if x.isNan then (if y.isNan then floatNan fmt else b, status)
  else if y.isNan then (a, status)
  else if x.lt y then (if isMax then b else a, 0)
  else if y.lt x then (if isMax then a else b, 0)
  else
    -- equal numbers: only the signs of zeros can differ
    let aNeg := a.testBit (fmt.ebits + fmt.mbits)
    (if isMax then (if aNeg then b else a) else (if aNeg then a else b), 0)

/-- The absolute value (R135): the sign bit cleared, a NaN canonical. -/
def floatAbs (fmt : FloatFormat) (a : Nat) : Nat × Status :=
  match floatDecode fmt a with
  | .nan s => (floatNan fmt, Status.when s Status.nv)
  | _ => (a % 2 ^ (fmt.ebits + fmt.mbits), 0)

/-- The negation (R135): the sign bit inverted, a NaN canonical. -/
def floatNeg (fmt : FloatFormat) (a : Nat) : Nat × Status :=
  match floatDecode fmt a with
  | .nan s => (floatNan fmt, Status.when s Status.nv)
  | _ => (floatFlip fmt a, 0)

/-- A pattern of one format rounded into another (R146, R147, R148). -/
def floatConvert (src dst : FloatFormat) (rm : Nat) (a : Nat) : Nat × Status :=
  match floatDecode src a with
  | .nan s => (floatNan dst, Status.when s Status.nv)
  | .inf n => (floatInf dst n, 0)
  | .fin n m e => floatRound dst rm n m e false

/-- An integer rounded into a format (R146). -/
def floatOfInt (fmt : FloatFormat) (rm : Nat) (z : Int) : Nat × Status :=
  floatRound fmt rm (decide (z < 0)) z.natAbs 0 false

/-- A pattern rounded to an integer in the range lo .. hi (R146): NX where rounding changes it, NV and the nearest range
end outside the range, 0 and NV for a NaN. Where rounding changes a value that is then out of range, both stand (DEDUCED,
notes/assumptions/93.md). -/
def floatToInt (fmt : FloatFormat) (rm : Nat) (lo hi : Int) (a : Nat) : Int × Status :=
  match floatDecode fmt a with
  | .nan _ => (0, Status.nv)
  | .inf n => (if n then lo else hi, Status.nv)
  | .fin n m e =>
    let (k, inexact) := roundAt rm n m e 0 false
    let z : Int := if n then -(k : Int) else k
    let changed := Status.when inexact Status.nx
    if z < lo then (lo, Status.nv ||| changed)
    else if hi < z then (hi, Status.nv ||| changed)
    else (z, changed)

/-- The integer part of a square root, and whether a remainder is left, digit by digit: bits is at least half the
number of bits of x. -/
def natSqrt : Nat → Nat → Nat → Nat
  | 0, _, r => r
  | n + 1, x, r =>
    let t := r + 2 ^ n
    if t * t ≤ x then natSqrt n x t else natSqrt n x r

end Sys2Proof.Machine
end

