-- ==== Sys2Proof/Machine/VectorFn.lean ====
section
/-! DEFINITION. The pure functions of the V class: element types and sub-elements (R46, R123), the lane-wise, row-axis
and column-axis functions on rows of 64 elements (R129 to R163), each with the status its active lanes raise (R100). -/

namespace Sys2Proof.Machine

/-- The width of a sub-element of an element type (R123 Table 2). -/
def subWidth (et : Nat) : Nat := if et ≤ 2 then 32 else if et ≤ 6 then 16 else 8

/-- The number of sub-elements of an element (R123 Table 2). -/
def subCount (et : Nat) : Nat := 32 / subWidth et

/-- Whether an integer element type is signed (R134). -/
def etSigned (et : Nat) : Bool := et = 0 || et = 3 || et = 7

/-- Whether an element type is a floating-point one. -/
def etFloat (et : Nat) : Bool := et = 2 || et = 5 || et = 6

/-- The floating-point format of an element type. -/
def etFormat (et : Nat) : FloatFormat :=
  if et = 5 then .binary16 else if et = 6 then .bfloat16 else .binary32

/-- Sub-element j of an element (R46). -/
def subOf (w : Nat) (x : W32) (j : Nat) : Nat := x.toNat / 2 ^ (w * j) % 2 ^ w

/-- An element from its sub-elements, sub-element 0 first (R46). -/
def packSubs (w : Nat) : List Nat → Nat
  | [] => 0
  | s :: l => s % 2 ^ w + 2 ^ w * packSubs w l

/-- A sub-element as an integer of its type. -/
def subInt (signed : Bool) (w x : Nat) : Int := if signed then signedOf w x else (x % 2 ^ w : Nat)

/-- The least and the greatest integer of a sub-element type (R123 Table 2). -/
def subRange (signed : Bool) (w : Nat) : Int × Int :=
  if signed then (-(2 ^ (w - 1) : Nat), (2 ^ (w - 1) : Nat) - 1) else (0, (2 ^ w : Nat) - 1)

/-- Apply a sub-element function over the sub-elements of an element; the status is that of all of them (R129). -/
def mapSubs (w : Nat) (f : Nat → Nat × Status) : W32 × Status :=
  let rs := tabulate f (32 / w) 0
  (BitVec.ofNat 32 (packSubs w (rs.map Prod.fst)), (rs.map Prod.snd).foldl (· ||| ·) 0)

/-- A binary sub-element function on two elements. -/
def mapSubs2 (w : Nat) (f : Nat → Nat → Nat × Status) (a b : W32) : W32 × Status :=
  mapSubs w fun j => f (subOf w a j) (subOf w b j)

/-- What a V-class operation reads besides its vector operands, all at its issue cycle (R55): the rounding mode, the lane
mask of R45, and the mask register its AUX names. -/
structure VecIn where
  frm : Nat
  mask : W64
  kaux : W64
deriving DecidableEq, Repr

/-- A row computed lane by lane: masked lanes are 0 and raise nothing (R45, R129). -/
def rowOf (m : W64) (f : Nat → W32 × Status) : Row × Status :=
  (Vector.ofFn fun c => if m.getLsbD c.val then (f c.val).1 else 0,
   (List.range 64).foldl (fun s c => if m.getLsbD c then s ||| (f c).2 else s) 0)

/-- Lane c of a row. -/
def laneOf (r : Row) (c : Nat) : W32 := r[c]?.getD 0

/-- A lane-wise function of three elements over a row (R129). -/
def rowLanes (f : W32 → W32 → W32 → W32 × Status) (i : VecIn) (a b c : Row) : Row × Status :=
  rowOf i.mask fun l => f (laneOf a l) (laneOf b l) (laneOf c l)

/-! Lane-wise arithmetic (R134, R135). -/

/-- vadd (R134). -/
def laneAdd (et frm : Nat) (a b : W32) : W32 × Status :=
  let w := subWidth et
  mapSubs2 w (fun x y => if etFloat et then floatAdd (etFormat et) frm x y else ((x + y) % 2 ^ w, 0)) a b

/-- vsub (R134). -/
def laneSub (et frm : Nat) (a b : W32) : W32 × Status :=
  let w := subWidth et
  mapSubs2 w (fun x y => if etFloat et then floatSub (etFormat et) frm x y else ((x + 2 ^ w - y) % 2 ^ w, 0)) a b

/-- vmul (R134): the low w bits of the product, or the rounded product. -/
def laneMul (et frm : Nat) (a b : W32) : W32 × Status :=
  let w := subWidth et
  mapSubs2 w (fun x y => if etFloat et then floatMul (etFormat et) frm x y else (x * y % 2 ^ w, 0)) a b

/-- vmulh (R134): the high w bits of the exact 2w-bit product. -/
def laneMulh (et : Nat) (a b : W32) : W32 × Status :=
  let w := subWidth et
  mapSubs2 w (fun x y =>
    (wrapInt (2 * w) (subInt (etSigned et) w x * subInt (etSigned et) w y) / 2 ^ w, 0)) a b

/-- vfma, vfms and vfnma (R136): ±(a × b) ± c rounded once. -/
def laneFma (et frm : Nat) (negProduct negAddend : Bool) (a b c : W32) : W32 × Status :=
  let w := subWidth et
  let fmt := etFormat et
  mapSubs w fun j =>
    let z := subOf w c j
    floatFma fmt frm negProduct (subOf w a j) (subOf w b j) (if negAddend then floatFlip fmt z else z)

/-- vmin and vmax (R134, R135). -/
def laneMinMax (isMax : Bool) (et : Nat) (a b : W32) : W32 × Status :=
  let w := subWidth et
  mapSubs2 w (fun x y =>
    if etFloat et then floatMinMax (etFormat et) isMax x y
    else if subInt (etSigned et) w x < subInt (etSigned et) w y then (if isMax then y else x, 0)
    else (if isMax then x else y, 0)) a b

/-- vabs (R134, R135). -/
def laneAbs (et : Nat) (a : W32) : W32 × Status :=
  let w := subWidth et
  mapSubs w fun j =>
    let x := subOf w a j
    if etFloat et then floatAbs (etFormat et) x
    else if etSigned et then (wrapInt w (signedOf w x).natAbs, 0) else (x, 0)

/-- vneg (R134, R135). -/
def laneNeg (et : Nat) (a : W32) : W32 × Status :=
  let w := subWidth et
  mapSubs w fun j =>
    let x := subOf w a j
    if etFloat et then floatNeg (etFormat et) x else ((2 ^ w - x) % 2 ^ w, 0)

/-- An integer clamped to the range of a sub-element type, with SAT on a clamp (R132). -/
def saturate (signed : Bool) (w : Nat) (z : Int) : Nat × Status :=
  let (lo, hi) := subRange signed w
  let (r, clamped) := clampInt lo hi z
  (wrapInt w r, Status.when clamped Status.sat)

/-- vsadd and vssub (R134). -/
def laneSat (sub : Bool) (et : Nat) (a b : W32) : W32 × Status :=
  let w := subWidth et
  let sg := etSigned et
  mapSubs2 w (fun x y =>
    saturate sg w (if sub then subInt sg w x - subInt sg w y else subInt sg w x + subInt sg w y)) a b

/-- vdiv and vrem (R137). -/
def laneDiv (rem : Bool) (et : Nat) (a b : W32) : W32 × Status :=
  let w := subWidth et
  let sg := etSigned et
  mapSubs2 w (fun x y =>
    let p := subInt sg w x
    let q := subInt sg w y
    if q = 0 then (if rem then x else 2 ^ w - 1, Status.idz)
    else if sg && p = -(2 ^ (w - 1) : Nat) && q = -1 then (if rem then 0 else 2 ^ (w - 1), Status.iov)
    else (wrapInt w (if rem then p.tmod q else p.tdiv q), 0)) a b

/-! Bitwise operations, shifts and counts (R139 to R141). -/

/-- vshl (0), vshr (1) and vsar (2): the amount is the low log2 w bits of the matching sub-element (R140). -/
def laneShift (kind et : Nat) (a b : W32) : W32 × Status :=
  let w := subWidth et
  mapSubs2 w (fun x y =>
    let n := y % w
    match kind with
    | 0 => (x * 2 ^ n % 2 ^ w, 0)
    | 1 => (x / 2 ^ n, 0)
    | _ => (wrapInt w (signedOf w x / (2 ^ n : Nat)), 0)) a b

/-- vclz (R141). -/
def laneClz (et : Nat) (a : W32) : W32 × Status :=
  mapSubs (subWidth et) fun j => (leadingZeros (subWidth et) (subOf (subWidth et) a j), 0)

/-- vpopc (R141). -/
def lanePopc (et : Nat) (a : W32) : W32 × Status :=
  mapSubs (subWidth et) fun j => (popCount 32 (subOf (subWidth et) a j), 0)

/-! Compares, selection and conversions (R142 to R149). -/

/-- One condition of Table 9 of R142 on two sub-elements, with the status it raises. -/
def vecCond (cond et : Nat) (ubytes : Bool) (x y : Nat) : Bool × Status :=
  let w := subWidth et
  if etFloat et then
    let p := floatDecode (etFormat et) x
    let q := floatDecode (etFormat et) y
    let nan := p.isNan || q.isNan
    let quiet := Status.when (p.isSignalling || q.isSignalling) Status.nv
    let loud := Status.when nan Status.nv
    match cond with
    | 0 => (!nan && !p.lt q && !q.lt p, quiet)
    | 1 => (nan || p.lt q || q.lt p, quiet)
    | 2 => (!nan && p.lt q, loud)
    | 3 => (!nan && !p.lt q, loud)
    | 4 => (!nan && !q.lt p, loud)
    | 5 => (!nan && q.lt p, loud)
    | 6 => (nan, quiet)
    | _ => (!nan, quiet)
  else
    let sg := etSigned et && !ubytes
    let p := subInt sg w x
    let q := subInt sg w y
    match cond with
    | 0 => (decide (p = q), 0)
    | 1 => (decide (p ≠ q), 0)
    | 2 => (decide (p < q), 0)
    | 3 => (decide (q ≤ p), 0)
    | 4 => (decide (p ≤ q), 0)
    | _ => (decide (q < p), 0)

/-- The combined condition of one element over its sub-elements: OR, or AND where all is set (R142). -/
def vecCondElem (cond et : Nat) (all ubytes : Bool) (a b : W32) : Bool × Status :=
  let w := subWidth et
  let rs := tabulate (fun j => vecCond cond et ubytes (subOf w a j) (subOf w b j)) (32 / w) 0
  (if all then (rs.map Prod.fst).all id else (rs.map Prod.fst).any id, (rs.map Prod.snd).foldl (· ||| ·) 0)

/-- One window row of vcmp: the latch row of Table 5 (all ones where the condition holds), and its status (R142). -/
def rowCmp (cond et : Nat) (all ubytes : Bool) (i : VecIn) (a b _c : Row) : Row × Status :=
  rowOf i.mask fun l =>
    let (r, s) := vecCondElem cond et all ubytes (laneOf a l) (laneOf b l)
    (if r then 0xFFFFFFFF else 0, s)

/-- vsel (R144): by the bits of the matching sub-element of c. -/
def laneSel (et : Nat) (a b c : W32) : W32 × Status :=
  let w := subWidth et
  mapSubs w fun j => (if subOf w c j ≠ 0 then subOf w a j else subOf w b j, 0)

/-- vcvt (R146): each sub-element from the source type to the destination type. -/
def laneCvt (dst src frm : Nat) (a : W32) : W32 × Status :=
  let w := subWidth dst
  mapSubs w fun j =>
    let x := subOf w a j
    let (lo, hi) := subRange (etSigned dst) w
    match etFloat src, etFloat dst with
    | true, true => floatConvert (etFormat src) (etFormat dst) frm x
    | true, false =>
      let (z, s) := floatToInt (etFormat src) frm lo hi x
      (wrapInt w z, s)
    | false, true => floatOfInt (etFormat dst) frm (subInt (etSigned src) w x)
    | false, false => saturate (etSigned dst) w (subInt (etSigned src) w x)

/-- vpack (R147). -/
def lanePack (et : Nat) (usrc udst : Bool) (frm : Nat) (a b : W32) : W32 × Status :=
  if etFloat et then
    mapSubs 16 fun j => floatConvert .binary32 (etFormat et) frm (if j = 0 then a else b).toNat
  else if et = 7 then
    mapSubs 8 fun j =>
      saturate (!udst) 8 (subInt (!usrc) 16 (subOf 16 (if j < 2 then a else b) (j % 2)))
  else
    mapSubs 16 fun j => saturate (etSigned et) 16 (subInt (!usrc) 32 (if j = 0 then a else b).toNat)

/-- vunpk (R148). -/
def laneUnpk (et : Nat) (half : Nat) (ubytes : Bool) (a : W32) : W32 × Status :=
  if etFloat et then
    let (r, s) := floatConvert (etFormat et) .binary32 0 (subOf 16 a half)
    (BitVec.ofNat 32 r, s)
  else if et = 7 then
    mapSubs 16 fun j => (wrapInt 16 (subInt (!ubytes) 8 (subOf 8 a (2 * half + j))), 0)
  else (BitVec.ofNat 32 (wrapInt 32 (subInt (etSigned et) 16 (subOf 16 a half))), 0)

/-- The sum of products of the sub-elements of two elements, as integers of the given signedness. -/
def dotSum (w : Nat) (sa sb : Bool) (a b : W32) : Nat → Int
  | 0 => 0
  | n + 1 => dotSum w sa sb a b n + subInt sa w (subOf w a n) * subInt sb w (subOf w b n)

/-- vdot4 (R149). -/
def laneDot4 (ua ub : Bool) (a b c : W32) : W32 × Status :=
  (BitVec.ofNat 32 (wrapInt 32 ((c.toNat : Int) + dotSum 8 (!ua) (!ub) a b 4)), 0)

/-- vdot2 (R149). -/
def laneDot2 (et : Nat) (a b c : W32) : W32 × Status :=
  (BitVec.ofNat 32 (wrapInt 32 ((c.toNat : Int) + dotSum 16 (etSigned et) (etSigned et) a b 2)), 0)

/-- viota (R152): a plus the number of counted lanes below. -/
def rowIota (i : VecIn) (a _b _c : Row) : Row × Status :=
  rowOf i.mask fun l =>
    (laneOf a l + BitVec.ofNat 32 (popCount l ((i.kaux &&& i.mask).toNat % 2 ^ l)), 0)

/-- vkmov with DIR = 0 (R145): a mask register spread over a row. -/
def rowFromMask (i : VecIn) (_a _b _c : Row) : Row × Status :=
  rowOf i.mask fun l => (if i.kaux.getLsbD l then 0xFFFFFFFF else 0, 0)

/-- One window row of vkmov with DIR = 1 (R145): all ones in the active lanes whose element is not 0. -/
def rowNonZero (i : VecIn) (a _b _c : Row) : Row × Status :=
  rowOf i.mask fun l => (if laneOf a l ≠ 0 then 0xFFFFFFFF else 0, 0)

/-! Row-axis functions (R153 to R159). -/

/-- vrotr (R154): elements move toward higher lanes by the amount of lane 0. -/
def rowRotr (i : VecIn) (a b _c : Row) : Row × Status :=
  let n := (laneOf b 0).toNat % 64
  rowOf i.mask fun l => (laneOf a ((l + 64 - n) % 64), 0)

/-- vbcr (R154). -/
def rowBcr (i : VecIn) (a b _c : Row) : Row × Status :=
  rowOf i.mask fun _ => (laneOf a ((laneOf b 0).toNat % 64), 0)

/-- vshuf (R155). -/
def rowShuf (i : VecIn) (a b _c : Row) : Row × Status :=
  rowOf i.mask fun l =>
    let x := laneOf b l
    (if x.getLsbD 31 then 0 else laneOf a (x.toNat % 64), 0)

/-- A combining operation of Table 11 of R157 on two elements, per sub-element. -/
def combine (op et frm : Nat) (a b : W32) : W32 × Status :=
  match op with
  | 0 => laneAdd et frm a b
  | 1 => laneMinMax false et a b
  | 2 => laneMinMax true et a b
  | 3 => (a &&& b, 0)
  | 4 => (a ||| b, 0)
  | _ => (a ^^^ b, 0)

/-- The identity of a combining operation (R157 Table 11), in every sub-element. -/
def combineIdentity (op et : Nat) : W32 :=
  let w := subWidth et
  let one : Nat :=
    match op with
    | 1 => if etFloat et then floatInf (etFormat et) false else wrapInt w (subRange (etSigned et) w).2
    | 2 => if etFloat et then floatInf (etFormat et) true else wrapInt w (subRange (etSigned et) w).1
    | 3 => 2 ^ w - 1
    | _ => 0
  BitVec.ofNat 32 (packSubs w (List.replicate (32 / w) one))

/-- One level of the reduction trees of R158 and R162: adjacent nodes combined, an absent node passing the other on. -/
def treeLevel (f : W32 → W32 → W32 × Status) : List (Option W32) → List (Option W32) × Status
  | [] => ([], 0)
  | [a] => ([a], 0)
  | a :: b :: l =>
    let (rest, s) := treeLevel f l
    match a, b with
    | some x, some y => (some (f x y).1 :: rest, s ||| (f x y).2)
    | some x, none => (some x :: rest, s)
    | none, y => (y :: rest, s)

/-- The reduction tree of n levels (R158, R162). -/
def treeReduce (f : W32 → W32 → W32 × Status) : Nat → List (Option W32) → Option W32 × Status
  | 0, l => (l.headD none, 0)
  | n + 1, l =>
    let (l1, s1) := treeLevel f l
    let (r, s2) := treeReduce f n l1
    (r, s1 ||| s2)

/-- The reduction of one window row over its active lanes (R158). -/
def rowReduce (op et : Nat) (i : VecIn) (a : Row) : W32 × Status :=
  let leaves := (List.range 64).map fun c => if i.mask.getLsbD c then some (laneOf a c) else none
  let (r, s) := treeReduce (combine op et i.frm) 6 leaves
  (r.getD (combineIdentity op et), s)

/-- The row that vredr writes: element k is the reduction of window row k, the elements beyond are 0 (R158). -/
def rowsReduce (op et : Nat) (i : VecIn) (rows : List Row) : Row × Status :=
  let rs := rows.map (rowReduce op et i)
  (Vector.ofFn fun c => (rs.map Prod.fst).getD c.val 0, (rs.map Prod.snd).foldl (· ||| ·) 0)

/-- A scan over a list of places, some of them absent (R159, R163): the value of each place, and the status of the steps
that form it. acc is the combination of the places before. The first place takes no step, so that a NaN there passes unchanged and
raises nothing (DEDUCED, notes/assumptions/101.md). -/
def scanList (f : W32 → W32 → W32 × Status) (identity : W32) (excl : Bool) :
    Option (W32 × Status) → List (Option W32) → List (W32 × Status)
  | _, [] => []
  | acc, none :: l => (0, 0) :: scanList f identity excl acc l
  | acc, some x :: l =>
    let next : W32 × Status := match acc with
      | none => (x, 0)
      | some (p, _) => f p x
    let out : W32 × Status := if excl then (match acc with
      | none => (identity, 0)
      | some q => q) else next
    out :: scanList f identity excl (some next) l

/-- vscanr on one window row (R159). -/
def rowScan (op et : Nat) (excl : Bool) (i : VecIn) (a _b _c : Row) : Row × Status :=
  let places := (List.range 64).map fun c => if i.mask.getLsbD c then some (laneOf a c) else none
  let rs := scanList (combine op et i.frm) (combineIdentity op et) excl none places
  rowOf i.mask fun l => rs.getD l (0, 0)

/-- The vote of each lane: the OR over the window rows of a non-zero element (R156). -/
def voteOf (rows : List Row) (c : Nat) : Bool := rows.any fun r => laneOf r c != 0

/-- The mask that vvote gives its active lanes (R156): mode 0 any, 1 all, 2 uni, over segments of 2^seg lanes. -/
def voteMask (mode seg : Nat) (m : W64) (rows : List Row) : W64 :=
  let size := 2 ^ seg
  BitVec.ofNat 64 <| (List.range 64).foldl (fun acc c =>
    let lanes := (List.range 64).filter fun l => l / size = c / size && m.getLsbD l
    let votes := lanes.map (voteOf rows)
    let r := match mode with
      | 0 => votes.any id
      | 1 => votes.all id
      | _ => votes.all id || votes.all (!·)
    if r && m.getLsbD c then acc + 2 ^ c else acc) 0

/-- The latch row of a mask result: all ones in the active lanes whose bit is 1 (R127 Table 5). -/
def rowOfMask (m bits : W64) : Row := Vector.ofFn fun c => if (m &&& bits).getLsbD c.val then 0xFFFFFFFF else 0

/-- Bit c of the result: bit c of the new mask in active lanes, the old bit elsewhere (R142, R145, R156). -/
def mergeMask (m old new : W64) : W64 := (m &&& new) ||| (~~~m &&& old)

/-- The mask of the lanes of a row that are not 0. -/
def maskOfRow (r : Row) : W64 :=
  BitVec.ofNat 64 <| (List.range 64).foldl (fun acc c => if laneOf r c ≠ 0 then acc + 2 ^ c else acc) 0

/-! Column-axis functions (R160 to R163): from the sixteen rows of A and of B to the sixteen result rows, each with the
status charged to it. -/

/-- Row r of a list of rows. -/
def rowAt (rows : List Row) (r : Nat) : Row := rows.getD r Row.zero

/-- vrotc and vbcc (R161). -/
def colMove (broadcast : Bool) (i : VecIn) (as bs : List Row) : List (Row × Status) :=
  tabulate (fun r => rowOf i.mask fun c =>
    let n := (laneOf (rowAt bs 0) c).toNat % 16
    (laneOf (rowAt as (if broadcast then n else (r + 16 - n) % 16)) c, 0)) 16 0

/-- vredc (R162): every row of a lane receives the lane's reduction. -/
def colReduce (op et : Nat) (i : VecIn) (as : List Row) : List (Row × Status) :=
  let one (c : Nat) := treeReduce (combine op et i.frm) 4 (as.map fun r => some (laneOf r c))
  let row := rowOf i.mask fun c => ((one c).1.getD 0, (one c).2)
  List.replicate 16 row

/-- vscanc (R163). -/
def colScan (op et : Nat) (excl : Bool) (i : VecIn) (as : List Row) : List (Row × Status) :=
  let one (c : Nat) := scanList (combine op et i.frm) (combineIdentity op et) excl none (as.map fun r => some (laneOf r c))
  tabulate (fun r => rowOf i.mask fun c => (one c).getD r (0, 0)) 16 0

/-! Operand constants (R50 Tables 7 and 7a). -/

/-- An unsigned number below 64 as a number of a floating-point format (exact). -/
def smallFloat (fmt : FloatFormat) (n : Nat) : Nat := (floatRound fmt 0 false n 0 false).1

/-- The typed constant one (R50 Table 7a); operand type 2 is f32, 5 and 6 the 16-bit floats. -/
def typedOne (et : Nat) : W32 :=
  match et with
  | 2 => 0x3F800000
  | 3 => 0x00010001
  | 4 => 0x00010001
  | 5 => 0x3C003C00
  | 6 => 0x3F803F80
  | 7 => 0x01010101
  | _ => 1

/-- The typed lane index (R50 Table 7a). -/
def typedIndex (et c : Nat) : W32 :=
  let w := subWidth et
  let one := if etFloat et then smallFloat (etFormat et) c else c
  BitVec.ofNat 32 (packSubs w (List.replicate (32 / w) one))

end Sys2Proof.Machine
end

