-- ==== Sys2Proof/Machine/CanopyFn.lean ====
section
/-! DEFINITION. The number formats and the fixed arithmetic order of Canopy (R183, R186 to R200, R203 to R205, R229,
R230): shapes, formats, gang and format words with their validity, decoding and narrowing of codes, and the block dot
product. Tile bytes come in through a reading function from byte offset to byte. -/

namespace Sys2Proof.Machine

/-! Tile shapes (R186, R187). -/

/-- ROWS + 1. -/
def tsRows (ts : Nat) : Nat := ts % 256 + 1
/-- Row bytes. -/
def tsRowBytes (ts : Nat) : Nat := 16 * (ts / 256 % 256 + 1)
/-- FSEL. -/
def tsFsel (ts : Nat) : Nat := ts / 2 ^ 16 % 16
/-- CLS. -/
def tsClass (ts : Nat) : Nat := ts / 2 ^ 20 % 8
/-- ACC. -/
def tsAcc (ts : Nat) : Bool := ts.testBit 24

/-- A valid TS word (R187). -/
def tsValid (ts : Nat) : Bool :=
  ts / 2 ^ 25 = 0 && !ts.testBit 23 && tsClass ts ≤ 4 && tsRows ts * tsRowBytes ts ≤ 32768
    && (!tsAcc ts || (tsRowBytes ts = 128 && tsClass ts = 0 && tsFsel ts = 0))
    && (tsClass ts = 0 || tsFsel ts = 0)

/-! Narrow formats (R189 to R192). -/

/-- W. -/
def fmtWidth (f : Nat) : Nat := f % 16
/-- EB. -/
def fmtExp (f : Nat) : Nat := f / 16 % 8
/-- SG, as 0 or 1. -/
def fmtSign (f : Nat) : Nat := f / 128 % 2
/-- BIAS. -/
def fmtBias (f : Nat) : Int := signedOf 8 (f / 256)
/-- SP. -/
def fmtSpecials (f : Nat) : Nat := f / 2 ^ 16 % 4
/-- GS. -/
def fmtGradual (f : Nat) : Bool := f.testBit 18
/-- IM. -/
def fmtInteger (f : Nat) : Bool := f.testBit 19
/-- OV. -/
def fmtOverflow (f : Nat) : Nat := f / 2 ^ 20 % 4
/-- Mantissa width in float mode (R190). -/
def fmtMant (f : Nat) : Nat := fmtWidth f - fmtSign f - fmtExp f

/-- An integer as an exact number. -/
def numOfInt (z : Int) : FloatNum := .fin (decide (z < 0)) z.natAbs 0

/-- The value of a code (R190). -/
def fmtDecode (f code : Nat) : FloatNum :=
  let w := fmtWidth f
  let e := fmtExp f
  let m := fmtMant f
  if fmtInteger f then
    numOfInt ((if fmtSign f = 1 then signedOf w code else (code % 2 ^ w : Nat)) - fmtBias f)
  else
    let neg := fmtSign f = 1 && code.testBit (w - 1)
    let ex := code / 2 ^ m % 2 ^ e
    let mant := code % 2 ^ m
    if fmtSpecials f = 1 && code % 2 ^ (w - fmtSign f) = 2 ^ (w - fmtSign f) - 1 then .nan false
    else if fmtSpecials f = 2 && ex = 2 ^ e - 1 then if mant = 0 then .inf neg else .nan false
    else if ex = 0 then .fin neg (if fmtGradual f then mant else 0) (1 - fmtBias f - m)
    else .fin neg (2 ^ m + mant) (ex - fmtBias f - m)

/-- The finite values of a format have a non-zero one among them, and all lie below 2^63 in magnitude. -/
def fmtFiniteOk (f : Nat) : Bool :=
  let vs := (List.range (2 ^ fmtWidth f)).map (fmtDecode f)
  vs.any (fun v => match v with | .fin _ m _ => decide (m ≠ 0) | _ => false)
    && vs.all (fun v => match v with | .fin _ m e => decide (m = 0 ∨ (Nat.log2 m : Nat) + e < 63) | _ => true)

/-- A valid FMT word (R191). -/
def fmtValid (f : Nat) : Bool :=
  f / 2 ^ 22 = 0 && 1 ≤ fmtWidth f && fmtWidth f ≤ 8 && fmtSpecials f ≠ 3 && fmtOverflow f ≠ 3 &&
    (if fmtInteger f then
      fmtExp f = 0 && fmtSpecials f = 0 && !fmtGradual f && (fmtOverflow f = 0 || fmtOverflow f = 2)
    else
      1 ≤ fmtExp f && fmtSign f + fmtExp f ≤ fmtWidth f
        && (fmtOverflow f = 0 || (fmtOverflow f = 1 && fmtSpecials f ≠ 0))
        && decide (fmtBias f + fmtMant f ≤ 75) && fmtFiniteOk f)

/-- The magnitude code of the largest finite value in float mode. -/
def fmtMaxCode (f : Nat) : Nat :=
  match fmtSpecials f with
  | 0 => 2 ^ (fmtWidth f - fmtSign f) - 1
  | 1 => 2 ^ (fmtWidth f - fmtSign f) - 2
  | _ => (2 ^ fmtExp f - 1) * 2 ^ fmtMant f - 1

/-- The code of a NaN (R192 step 1): +0 where the format has none, as with SP = 2 and no mantissa bit, where E all ones is an
infinity (R190). -/
def fmtNanCode (f : Nat) : Nat :=
  if fmtSpecials f = 0 || (fmtSpecials f = 2 && fmtMant f = 0) then 0 else 2 ^ (fmtWidth f - fmtSign f) - 1

/-- The magnitude code of a float-mode value kept * 2^q that the format holds. -/
def fmtPlace (f kept : Nat) (q : Int) : Nat :=
  let m := fmtMant f
  if kept = 0 then 0
  else
    let l : Int := (Nat.log2 kept : Nat)
    -- a normal value: kept brought to m + 1 bits
    if 1 - fmtBias f ≤ q + l then
      let mant := if l ≤ m then kept * 2 ^ (m - l).toNat else kept / 2 ^ (l - m).toNat
      (q + l + fmtBias f).toNat * 2 ^ m + (mant - 2 ^ m)
    else
      let sub := 1 - fmtBias f - m
      if sub ≤ q then kept * 2 ^ (q - sub).toNat else kept / 2 ^ (sub - q).toNat

/-- The magnitude code of an overflow, or of a NaN where OV gives one (R192 step 5). -/
def fmtOverflowCode (f : Nat) (neg : Bool) : Nat :=
  let s := if neg && fmtSign f = 1 then 2 ^ (fmtWidth f - 1) else 0
  if fmtOverflow f = 1 then
    if fmtSpecials f = 2 then s + (2 ^ fmtExp f - 1) * 2 ^ fmtMant f else fmtNanCode f
  else s + fmtMaxCode f

/-- An exact number narrowed into a format (R192). In a format without mantissa bits, where a tie lies between two powers of two, the
significand counted in units of the lower one is made even, so that the upper one is taken
(DESIGN CHOICE, notes/assumptions/94.md). -/
def fmtConvert (f : Nat) (x : FloatNum) : Nat :=
  let w := fmtWidth f
  if fmtInteger f then
    let lo : Int := if fmtSign f = 1 then -(2 ^ (w - 1) : Nat) else 0
    let hi : Int := if fmtSign f = 1 then (2 ^ (w - 1) : Nat) - 1 else (2 ^ w : Nat) - 1
    match x with
    | .inf n => wrapInt w (if n then lo else hi)
    | .nan _ => fmtInt lo hi 0
    | .fin n m e =>
      let k := (roundAt 0 n m e 0 false).1
      fmtInt lo hi (if n then -(k : Int) else k)
  else
    match x with
    | .nan _ => fmtNanCode f
    | .inf n =>
      if n && fmtSign f = 0 then 0
      else if fmtSpecials f = 2 then
        (if n then 2 ^ (w - 1) else 0) + (2 ^ fmtExp f - 1) * 2 ^ fmtMant f
      else fmtOverflowCode f n
    | .fin n m e =>
      if n && fmtSign f = 0 then 0
      else
        let s := if n then 2 ^ (w - 1) else 0
        if m = 0 then s
        else
          let qFree : Int := e + (Nat.log2 m : Nat) - fmtMant f
          let q := if fmtGradual f then max qFree (1 - fmtBias f - fmtMant f) else qFree
          let kept := (roundAt 0 n m e q false).1
          let tooBig := match fmtDecode f (fmtMaxCode f) with
            | .fin _ m2 e2 => floatLtExact false m2 e2 false kept q
            | _ => false
          if tooBig then fmtOverflowCode f n
          else if !fmtGradual f && decide (kept ≠ 0 ∧ q + (Nat.log2 kept : Nat) < 1 - fmtBias f) then s
          else s + fmtPlace f kept q
where
  /-- The code of an integer-mode value before its bias (R192). -/
  fmtInt (lo hi z : Int) : Nat :=
    let q := z + fmtBias f
    wrapInt (fmtWidth f) (if fmtOverflow f = 2 then q else (clampInt lo hi q).1)

/-! Elements of a row (R183, R193). -/

/-- The element width of a class (R193 Table 8). -/
def classWidth (cls fmt : Nat) : Nat := if cls = 0 then fmtWidth fmt else if cls = 3 then 32 else 16

/-- Bits [w(j+1)−1 : wj] of the row that starts at byte base (R183). -/
def rowElem (rd : Nat → Nat) (base w j : Nat) : Nat :=
  let bytes := tabulate (fun i => BitVec.ofNat 8 (rd (base + w * j / 8 + i))) 5 0
  ofBytes bytes / 2 ^ (w * j % 8) % 2 ^ w

/-- The exact value of a code of a class (R190, R193). -/
def classDecode (cls fmt code : Nat) : FloatNum :=
  match cls with
  | 0 => fmtDecode fmt code
  | 1 => floatDecode .binary16 code
  | 2 => floatDecode .bfloat16 code
  | _ => floatDecode .binary32 code

/-- Element j of the row that starts at byte base, decoded. -/
def rowNum (rd : Nat → Nat) (cls fmt base j : Nat) : FloatNum :=
  classDecode cls fmt (rowElem rd base (classWidth cls fmt) j)

/-! The format word and the gang word (R195, R196, R203, R204). -/

/-- FA. -/
def fwFa (w : Nat) : Nat := w % 16
/-- FB. -/
def fwFb (w : Nat) : Nat := w / 16 % 16
/-- CA. -/
def fwCa (w : Nat) : Nat := w / 2 ^ 8 % 8
/-- CB. -/
def fwCb (w : Nat) : Nat := w / 2 ^ 11 % 8
/-- ACCT. -/
def fwAcct (w : Nat) : Nat := w / 2 ^ 14 % 4
/-- SCM. -/
def fwScm (w : Nat) : Nat := w / 2 ^ 16 % 4
/-- SAT. -/
def fwSat (w : Nat) : Bool := w.testBit 18

/-- The first operand check that a format word fails, as bits [7:0] of TVAL (R192 Table 6, R196, R211 step 4): an invalid
FMT word is named by its number, everything else by 16. fmt gives the FMT words, tsA the A tile's TS word. An invalid FMT word goes
before the other defects, that of A before that of B (DESIGN CHOICE, notes/assumptions/102.md). -/
def fwCheck (w : Nat) (fmt : Nat → Nat) (tsA : Nat) (floatOnly : Bool) : Option Nat :=
  let fa := fmt (fwFa w)
  let fb := fmt (fwFb w)
  let bad := some (2 * 32 + 16)
  if fwCa w = 0 && !fmtValid fa then some (2 * 32 + fwFa w)
  else if fwCb w = 0 && !fmtValid fb then some (2 * 32 + fwFb w)
  else if w / 2 ^ 19 ≠ 0 then bad
  else if !(fwCa w = fwCb w && fwCa w ≤ 3) then bad
  else if fwCa w = 0 && fmtInteger fa != fmtInteger fb then bad
  else if 2 ≤ fwAcct w then bad
  else if (fwAcct w = 1) != (fwCa w = 0 && fmtInteger fa && fmtInteger fb) then bad
  else if fwScm w ≠ 0 && !(fwCa w = 0 && !fmtInteger fa && !fmtInteger fb) then bad
  else if fwSat w && fwAcct w ≠ 1 then bad
  else if !(tsClass tsA = fwCa w && (fwCa w ≠ 0 || tsFsel tsA = fwFa w)) then bad
  else if floatOnly && fwAcct w = 1 then bad
  else none

/-- COUNT of a GANG word. -/
def gangCount (g : Nat) : Nat := g % 8
/-- RL of a GANG word. -/
def gangLatch (g : Nat) : Nat := g / 16 % 4
/-- MEMj of a GANG word. -/
def gangMember (g j : Nat) : Nat := g / 2 ^ (8 + 4 * j) % 16
/-- The members of a GANG word, in index order. -/
def gangMembers (g : Nat) : List Nat := tabulate (gangMember g) (gangCount g) 0

/-- A valid GANG word for a context at a position of a group of a size (R204). -/
def gangValid (g pos size : Nat) : Bool :=
  g / 2 ^ 32 = 0 && !g.testBit 3 && g / 64 % 4 = 0 && 1 ≤ gangCount g && gangCount g ≤ 6
    && decide (gangMembers g).Nodup && (gangMembers g).all (· < size) && (gangMembers g).any (· = pos)
    && (tabulate (gangMember g) (6 - gangCount g) (gangCount g)).all (· = 0)

/-! The block dot product (R197 to R199). -/

/-- A product rounded to binary32, RNE (R197). -/
def numMul32 : FloatNum → FloatNum → Nat
  | .nan _, _ => 0x7FC00000
  | _, .nan _ => 0x7FC00000
  | .inf n1, .inf n2 => floatInf .binary32 (n1 != n2)
  | .inf n1, .fin n2 m _ => if m = 0 then 0x7FC00000 else floatInf .binary32 (n1 != n2)
  | .fin n1 m _, .inf n2 => if m = 0 then 0x7FC00000 else floatInf .binary32 (n1 != n2)
  | .fin n1 m1 e1, .fin n2 m2 e2 => (floatRound .binary32 0 (n1 != n2) (m1 * m2) (e1 + e2) false).1

/-- binary32 addition, RNE. -/
def add32 (a b : Nat) : Nat := (floatAdd .binary32 0 a b).1
/-- binary32 multiplication, RNE. -/
def mul32 (a b : Nat) : Nat := (floatMul .binary32 0 a b).1

/-- One level of the tree sum: adjacent values added. -/
def sumLevel : List Nat → List Nat
  | a :: b :: l => add32 a b :: sumLevel l
  | l => l

/-- The tree sum of 32 products over five levels (R198 step 1). -/
def treeSum (ps : List Nat) : Nat :=
  (sumLevel (sumLevel (sumLevel (sumLevel (sumLevel ps))))).headD 0

/-- A binary32 value times 2^(sa − 127) × 2^(sb − 127), a scale of 255 standing for NaN (R194, R198 step 2). -/
def scale32 (s sa sb : Nat) : Nat :=
  if sa = 255 || sb = 255 then 0x7FC00000
  else
    match floatDecode .binary32 s with
    | .nan _ => 0x7FC00000
    | .inf _ => s
    | .fin n m e => (floatRound .binary32 0 n m (e + sa + sb - 254) false).1

/-- The exact integer of a number of an integer-mode format. -/
def numInt : FloatNum → Int
  | .fin n m e => let z : Int := (m * 2 ^ e.toNat : Nat)
    if n then -z else z
  | _ => 0

/-- The exact block sum of integer accumulation (R199). -/
def intBlock (as bs : List FloatNum) : Int :=
  (List.zipWith (fun a b => numInt a * numInt b) as bs).foldl (· + ·) 0

/-- One K-block added into an accumulator (R198, R199): float or integer accumulation, negated for mmas (R222). -/
def accumulateBlock (integer sat neg : Bool) (sa sb : Nat) (as bs : List FloatNum) (acc : Nat) : Nat :=
  if integer then
    let s := intBlock as bs
    let z := signedOf 32 acc + (if neg then -s else s)
    wrapInt 32 (if sat then (clampInt (-(2 ^ 31 : Nat)) ((2 ^ 31 : Nat) - 1) z).1 else z)
  else
    let s := scale32 (treeSum (List.zipWith numMul32 as bs)) sa sb
    let s := if neg then (if (floatDecode .binary32 s).isNan then s else floatFlip .binary32 s) else s
    add32 acc s

/-- The K-blocks b, b + 1, ... of one accumulator element (R222): blk gives a block's scales and operand rows. -/
def accumulateBlocks (integer sat neg : Bool) (blk : Nat → Nat × Nat × List FloatNum × List FloatNum) :
    Nat → Nat → Nat → Nat
  | 0, _, acc => acc
  | n + 1, b, acc =>
    let (sa, sb, as, bs) := blk b
    accumulateBlocks integer sat neg blk n (b + 1) (accumulateBlock integer sat neg sa sb as bs acc)

/-- A value converted for a tcvt destination (R230): into class cls with format fmt, or an accumulator's binary32.
(DEDUCED, notes/assumptions/58.md) -/
def tcvtCode (cls fmt : Nat) (acc : Bool) (x : FloatNum) : Nat :=
  let toFloat (f : FloatFormat) : Nat := match x with
    | .nan _ => floatNan f
    | .inf n => floatInf f n
    | .fin n m e => (floatRound f 0 n m e false).1
  if acc then toFloat .binary32
  else
    match cls with
    | 0 => fmtConvert fmt x
    | 1 => toFloat .binary16
    | 2 => toFloat .bfloat16
    | _ => toFloat .binary32

/-- The element width of a tile for txp and tcvt (R229). -/
def tileWidth (ts fmt : Nat) : Nat :=
  if tsAcc ts then 32
  else if tsClass ts = 0 then fmtWidth fmt
  else if tsClass ts = 3 then 32 else 16

end Sys2Proof.Machine
end

