-- ==== Sys2Proof/Config.lean ====
section
/-! DEFINITION. The free values of the machine: what the spec leaves open. Each is an uninterpreted constant with no
body, so no proof can see a value of it. The argument is the free counter of State (DESIGN CHOICE, notes/assumptions/2.md), or the
operands the open value is a function of. -/

namespace Sys2Proof

/-- An open 64-bit value (DESIGN CHOICE, notes/assumptions/2.md). -/
opaque Config.freeWord : Nat → W64
/-- An open choice between two outcomes (DESIGN CHOICE, notes/assumptions/2.md). -/
opaque Config.freeBool : Nat → Bool
/-- An open natural number (DESIGN CHOICE, notes/assumptions/2.md). -/
opaque Config.freeNat : Nat → Nat
/-- Which of the values that the bound of R170 allows an elementary function gives: a function of the unit function and
of the operand bits alone (R169; DEDUCED, notes/assumptions/8.md). -/
opaque Config.elementaryPick : Nat → W32 → Nat
/-- Of a monotone elementary function (R169): by function and result pattern, the rank of the operand from which on the result is at
least that one, as far as the bound of R170 allows it. -/
opaque Config.elementaryStep : Nat → W32 → Nat
/-- Whether a byte string is a valid Falcon-1024 signature of a message under a public key (R435, R437;
DESIGN CHOICE, notes/assumptions/13.md): message, signature. -/
opaque Config.signatureValid : List Byte → List Byte → Bool
/-- The bytes the device's own signing key gives for a message (R437; DESIGN CHOICE, notes/assumptions/13.md). -/
opaque Config.sign : List Byte → List Byte
/-- The public bytes of a key exchange over secp384r1, and the secret that it shares with a peer's public bytes (R437;
DESIGN CHOICE, notes/assumptions/13.md). -/
opaque Config.exchange : Nat → List Byte
/-- The secret shared with a peer's public bytes. -/
opaque Config.agreed : Nat → List Byte → List Byte
/-- AES-256-GCM: of key, nonce, associated data and plain text, the cipher text with its tag (R437;
DESIGN CHOICE, notes/assumptions/13.md). -/
opaque Config.encrypt : List Byte → List Byte → List Byte → List Byte → List Byte
/-- Numbers of the SPDM responder that the spec leaves open: 0 its crypto time exponent, 1 and 2 the sizes of its buffers
(PRESUMED, notes/assumptions/78.md). -/
opaque Config.spdmNumber : Nat → Nat
/-- How the payload of a Ride flit says what the flit carries (R432; DESIGN CHOICE, notes/assumptions/109.md). -/
opaque Config.ridePayload : List Nat → List Byte
/-- The virtual channel and the kind of a Ride flit, by what it carries (R432; DESIGN CHOICE, notes/assumptions/109.md). -/
opaque Config.rideClass : Nat → Nat × Nat
/-- What this part's flash holds for one boot stage (R435; DESIGN CHOICE, notes/assumptions/13.md). -/
opaque Config.flashStage : Nat → List Byte
/-- The digest of the boot ROM (R435 stage 0; DESIGN CHOICE, notes/assumptions/13.md). -/
opaque Config.romDigest : List Byte
/-- The public key that an image carries (R435; DESIGN CHOICE, notes/assumptions/13.md). -/
opaque Config.imageKey : List Byte → List Byte
/-- What the part's fuses hold: silicon revision, part number, serial number, vendor key (R427, R435, R437;
DESIGN CHOICE, notes/assumptions/13.md). -/
opaque Config.fuses : Nat → List Byte

/-- Bytes of DDR 5 expansion fitted (R273: at most 12,288 GB). (DESIGN CHOICE, notes/assumptions/33.md) -/
opaque Config.tier1Bytes : Nat
/-- The root port behind which a line of the second tier lies (R273, R430: the second-tier configuration).
(DESIGN CHOICE, notes/assumptions/33.md) -/
opaque Config.tier1Port : Nat → Nat
/-- The HBM4 stack that holds a line of tier 0: its placement is not visible (R273, R439; DESIGN CHOICE,
notes/assumptions/108.md). -/
opaque Config.lineStack : Nat → Nat
/-- Where the host placed BAR2, in units of its 2 MiB (R425, R426). -/
opaque Config.bar2Page : Nat

end Sys2Proof
end

