-- ==== Sys2Proof/Syntax.lean ====
section
/-! DEFINITION. The syntax of the machine: the slots of a control word (R39), the slot field records of R41, and one
constructor of Instr for every row of the opcode table: 181 unit functions, the idle bundle, the four CSR deeds of an
Understory context, and the events of the device and of its surroundings. -/

namespace Sys2Proof

/-- The two scalar slots (R39 Table 1). -/
inductive SlotS where
  | sa | sb
deriving DecidableEq, Repr

/-- The three vector slots (R39 Table 1). -/
inductive SlotV where
  | va | vb | vc
deriving DecidableEq, Repr

/-- The two memory slots (R39 Table 1). -/
inductive SlotM where
  | ma | mb
deriving DecidableEq, Repr

/-- The fields of an S-class slot field but for its unit function (R41 Table 2). -/
structure FieldS where
  ws : Bool
  dst : BitVec 5
  opa : BitVec 6
  opb : BitVec 6
  pf : BitVec 4
  pn : Bool
  aux : BitVec 9
deriving DecidableEq, Repr

/-- The fields of a V-class slot field but for its unit function (R41 Table 2). -/
structure FieldV where
  ws : Bool
  dst : BitVec 4
  opa : BitVec 6
  opb : BitVec 6
  opc : BitVec 6
  pf : BitVec 4
  pn : Bool
  ks : BitVec 3
  rb : BitVec 4
  rn : BitVec 4
  et : BitVec 3
  aux : BitVec 6
deriving DecidableEq, Repr

/-- The fields of an F-class slot field but for its unit function (R41 Table 2): the layout of the S class. -/
structure FieldF where
  ws : Bool
  dst : BitVec 5
  opa : BitVec 6
  opb : BitVec 6
  pf : BitVec 4
  pn : Bool
  aux : BitVec 9
deriving DecidableEq, Repr

/-- The fields of an M-class slot field but for its unit function (R41 Table 2). -/
structure FieldM where
  ws : Bool
  dst : BitVec 5
  opa : BitVec 6
  opb : BitVec 6
  pf : BitVec 4
  pn : Bool
  sc : BitVec 3
  sz : BitVec 3
  ks : BitVec 3
  aux : BitVec 8
deriving DecidableEq, Repr

/-- The fields of a C-class slot field but for its unit function (R41 Table 2). -/
structure FieldC where
  ws : Bool
  dst : BitVec 5
  opa : BitVec 6
  pf : BitVec 4
  pn : Bool
  aux : BitVec 15
deriving DecidableEq, Repr

/-- The fields of an E-class slot field but for its unit function (R41 Table 2). -/
structure FieldE where
  beats : BitVec 8
  td : BitVec 5
  ta : BitVec 5
  sl : BitVec 3
  ops : BitVec 6
  pf : BitVec 4
  pn : Bool
  aux : BitVec 16
deriving DecidableEq, Repr

/-- One SPDM request as the device receives it (R437): the session it belongs to (0: none), its two parameter bytes, its body, and, in
a session, the bytes that protect it: the cipher text with its tag. -/
structure SpdmRequest where
  session : Nat
  param1 : Byte
  param2 : Byte
  body : List Byte
  guarded : List Byte
deriving DecidableEq, Repr

/-- What the host does over CXL (R428): a read of a number of bytes of the HBM4 range, or a write of bytes, at a physical address, with
the IDE stream that protects it, if one does (R424); or it enables or disables CXL on a link that is up. -/
inductive HostAccess where
  | read (address : Nat) (bytes : Nat) (ide : Option Nat)
  | write (address : Nat) (bytes : List Byte) (ide : Option Nat)
  | enable (on : Bool)
deriving DecidableEq, Repr

/-- What the refill engine of a core meets (R81): it installs a missing page, or the decode of a bundle has found an uncorrectable
error in a resident entry, of a class and a page. -/
inductive RefillEvent where
  | serve (core : Nat)
  | badEntry (core : Nat) (cls : Nat) (page : Nat)
deriving DecidableEq, Repr

/-- What fails after issue (R280, R379, R455): the pool link of an access in flight, the data that it finds, or, with no access, what a
context holds itself (its registers, latches, DLQ or checkpoint bank), or the results that the unit of a slot is producing, in which a
soft error flips bits, of one lane in a vector row. -/
inductive AccessFault where
  | linkLost | badData | storage
  | softError (slot : Nat) (lane : Nat) (bits : BitVec 64)
deriving DecidableEq, Repr

/-- A failure that a unit of the device absorbs (R383 Table 3): a lost rail of a link, flits replayed on a link, a replay on a PCIe or
CXL link, or a corrected error. The unit of the first two is a link, 0 to 11 the Ride ports and 12 to 27 the die-to-die links; that
of a replay is 0 for the host port and 1 to 8 for the root ports; that of a corrected error is its counter in the order of R413
Table 5. -/
inductive AbsorbedFailure where
  | rail (rail : Nat)
  | flits (count : Nat)
  | replay | corrected
deriving DecidableEq, Repr

/-- What a Ride flit carries (R432, R434): a request at a window offset, the bytes that a load or an atomic found there, or the refusal
of a request. -/
inductive RideMessage where
  | load (offset : Nat) (bytes : Nat)
  | store (offset : Nat) (bytes : List Byte)
  | atomic (op : BitVec 4) (offset : Nat) (bytes : Nat) (value : BitVec 64) (second : BitVec 64)
  | data (offset : Nat) (bytes : List Byte)
  | refused (offset : Nat)
deriving DecidableEq, Repr

/-- One flit at a Ride port (R432): the port, the header of bytes 0 to 7, what its payload carries, and the check code of bytes 248
to 255. -/
structure RideFlit where
  port : Nat
  header : BitVec 64
  message : RideMessage
  check : BitVec 64
deriving DecidableEq, Repr

/-- The instructions: one constructor for each row of spec/opcode_table.json. -/
inductive Instr where
  /-- add, class S, UF 01 (R104): Scalar 64-bit add of two operands. -/
  | add (u : SlotS) (f : FieldS)
  /-- sub, class S, UF 02 (R104): Scalar 64-bit subtract. -/
  | sub (u : SlotS) (f : FieldS)
  /-- addw, class S, UF 03 (R105): 32-bit add, sign-extended to 64 bits. -/
  | addw (u : SlotS) (f : FieldS)
  /-- subw, class S, UF 04 (R105): 32-bit subtract, sign-extended to 64 bits. -/
  | subw (u : SlotS) (f : FieldS)
  /-- and, class S, UF 05 (R104): Bitwise and. -/
  | and (u : SlotS) (f : FieldS)
  /-- or, class S, UF 06 (R104): Bitwise or. -/
  | or (u : SlotS) (f : FieldS)
  /-- xor, class S, UF 07 (R104): Bitwise exclusive or. -/
  | xor (u : SlotS) (f : FieldS)
  /-- andn, class S, UF 08 (R104): Bitwise and-not. -/
  | andn (u : SlotS) (f : FieldS)
  /-- orn, class S, UF 09 (R104): Bitwise or-not. -/
  | orn (u : SlotS) (f : FieldS)
  /-- xnor, class S, UF 0A (R104): Bitwise exclusive nor. -/
  | xnor (u : SlotS) (f : FieldS)
  /-- shl, class S, UF 0B (R106): Shift left with zero fill by b[5:0]. -/
  | shl (u : SlotS) (f : FieldS)
  /-- shr, class S, UF 0C (R106): Logical shift right. -/
  | shr (u : SlotS) (f : FieldS)
  /-- sar, class S, UF 0D (R106): Arithmetic shift right. -/
  | sar (u : SlotS) (f : FieldS)
  /-- rotl, class S, UF 0E (R106): Rotate left. -/
  | rotl (u : SlotS) (f : FieldS)
  /-- rotr, class S, UF 0F (R106): Rotate right. -/
  | rotr (u : SlotS) (f : FieldS)
  /-- mul, class S, UF 10 (R107): Low 64 bits of the product. -/
  | mul (u : SlotS) (f : FieldS)
  /-- mulh, class S, UF 11 (R107): High 64 bits of the signed product. -/
  | mulh (u : SlotS) (f : FieldS)
  /-- mulhu, class S, UF 12 (R107): High 64 bits of the unsigned product. -/
  | mulhu (u : SlotS) (f : FieldS)
  /-- mulw, class S, UF 13 (R107): 32-bit multiply, sign-extended. -/
  | mulw (u : SlotS) (f : FieldS)
  /-- div, class S, UF 14 (R108): Signed 64-bit division with fixed corner cases. -/
  | div (u : SlotS) (f : FieldS)
  /-- divu, class S, UF 15 (R108): Unsigned 64-bit division. -/
  | divu (u : SlotS) (f : FieldS)
  /-- rem, class S, UF 16 (R108): Signed 64-bit remainder. -/
  | rem (u : SlotS) (f : FieldS)
  /-- remu, class S, UF 17 (R108): Unsigned 64-bit remainder. -/
  | remu (u : SlotS) (f : FieldS)
  /-- divw, class S, UF 18 (R108): Signed 32-bit division, sign-extended. -/
  | divw (u : SlotS) (f : FieldS)
  /-- remw, class S, UF 19 (R108): Signed 32-bit remainder, sign-extended. -/
  | remw (u : SlotS) (f : FieldS)
  /-- min, class S, UF 1A (R104): Signed minimum. -/
  | min (u : SlotS) (f : FieldS)
  /-- max, class S, UF 1B (R104): Signed maximum. -/
  | max (u : SlotS) (f : FieldS)
  /-- minu, class S, UF 1C (R104): Unsigned minimum. -/
  | minu (u : SlotS) (f : FieldS)
  /-- maxu, class S, UF 1D (R104): Unsigned maximum. -/
  | maxu (u : SlotS) (f : FieldS)
  /-- clz, class S, UF 1E (R109): Count leading zeros. -/
  | clz (u : SlotS) (f : FieldS)
  /-- ctz, class S, UF 1F (R109): Count trailing zeros. -/
  | ctz (u : SlotS) (f : FieldS)
  /-- popc, class S, UF 20 (R109): Population count. -/
  | popc (u : SlotS) (f : FieldS)
  /-- bswap, class S, UF 21 (R109): Reverse the eight bytes. -/
  | bswap (u : SlotS) (f : FieldS)
  /-- sext, class S, UF 22 (R110): Sign-extend from a given width. -/
  | sext (u : SlotS) (f : FieldS)
  /-- zext, class S, UF 23 (R110): Zero-extend from a given width. -/
  | zext (u : SlotS) (f : FieldS)
  /-- mov, class S, UF 24 (R111): Copy a scalar operand. -/
  | mov (u : SlotS) (f : FieldS)
  /-- pack, class S, UF 25 (R111): Join low n bits of a with b shifted up. -/
  | pack (u : SlotS) (f : FieldS)
  /-- sel, class S, UF 26 (R113): Select a or b by a flag. -/
  | sel (u : SlotS) (f : FieldS)
  /-- cmp, class S, UF 27 (R114): Compare two scalars into a flag. -/
  | cmp (u : SlotS) (f : FieldS)
  /-- lea, class S, UF 28 (R112): Base plus shifted index. -/
  | lea (u : SlotS) (f : FieldS)
  /-- flset, class S, UF 29 (R115): Write flags under a mask. -/
  | flset (u : SlotS) (f : FieldS)
  /-- flget, class S, UF 2A (R116): Read the flag register. -/
  | flget (u : SlotS) (f : FieldS)
  /-- ident, class S, UF 2B (R117): Read an item of context identity. -/
  | ident (u : SlotS) (f : FieldS)
  /-- vget, class S, UF 2C (R118): Read one vector element into a scalar. -/
  | vget (u : SlotS) (f : FieldS)
  /-- kget, class S, UF 2D (R119): Read a mask register. -/
  | kget (u : SlotS) (f : FieldS)
  /-- kset, class S, UF 2E (R120): Write a mask register. -/
  | kset (u : SlotS) (f : FieldS)
  /-- vadd, class V, UF 01 (R134): Lane-wise add. -/
  | vadd (u : SlotV) (f : FieldV)
  /-- vsub, class V, UF 02 (R134): Lane-wise subtract. -/
  | vsub (u : SlotV) (f : FieldV)
  /-- vmul, class V, UF 03 (R134): Lane-wise multiply. -/
  | vmul (u : SlotV) (f : FieldV)
  /-- vmulh, class V, UF 04 (R134): Lane-wise high product. -/
  | vmulh (u : SlotV) (f : FieldV)
  /-- vfma, class V, UF 05 (R136): Fused multiply-add. -/
  | vfma (u : SlotV) (f : FieldV)
  /-- vfms, class V, UF 06 (R136): Fused multiply-subtract. -/
  | vfms (u : SlotV) (f : FieldV)
  /-- vfnma, class V, UF 07 (R136): Negated fused multiply-add. -/
  | vfnma (u : SlotV) (f : FieldV)
  /-- vdiv, class V, UF 08 (R137): Lane-wise integer division. -/
  | vdiv (u : SlotV) (f : FieldV)
  /-- vrem, class V, UF 09 (R137): Lane-wise integer remainder. -/
  | vrem (u : SlotV) (f : FieldV)
  /-- vmin, class V, UF 0A (R134): Lane-wise minimum. -/
  | vmin (u : SlotV) (f : FieldV)
  /-- vmax, class V, UF 0B (R134): Lane-wise maximum. -/
  | vmax (u : SlotV) (f : FieldV)
  /-- vabs, class V, UF 0C (R134): Lane-wise absolute value. -/
  | vabs (u : SlotV) (f : FieldV)
  /-- vneg, class V, UF 0D (R134): Lane-wise negation. -/
  | vneg (u : SlotV) (f : FieldV)
  /-- vsadd, class V, UF 0E (R134): Saturating lane-wise add. -/
  | vsadd (u : SlotV) (f : FieldV)
  /-- vssub, class V, UF 0F (R134): Saturating lane-wise subtract. -/
  | vssub (u : SlotV) (f : FieldV)
  /-- vand, class V, UF 10 (R139): Lane-wise and. -/
  | vand (u : SlotV) (f : FieldV)
  /-- vor, class V, UF 11 (R139): Lane-wise or. -/
  | vor (u : SlotV) (f : FieldV)
  /-- vxor, class V, UF 12 (R139): Lane-wise exclusive or. -/
  | vxor (u : SlotV) (f : FieldV)
  /-- vandn, class V, UF 13 (R139): Lane-wise and-not. -/
  | vandn (u : SlotV) (f : FieldV)
  /-- vnot, class V, UF 14 (R139): Lane-wise not. -/
  | vnot (u : SlotV) (f : FieldV)
  /-- vshl, class V, UF 15 (R140): Lane-wise shift left. -/
  | vshl (u : SlotV) (f : FieldV)
  /-- vshr, class V, UF 16 (R140): Lane-wise logical shift right. -/
  | vshr (u : SlotV) (f : FieldV)
  /-- vsar, class V, UF 17 (R140): Lane-wise arithmetic shift right. -/
  | vsar (u : SlotV) (f : FieldV)
  /-- vcmp, class V, UF 18 (R142): Compare into a mask register. -/
  | vcmp (u : SlotV) (f : FieldV)
  /-- vsel, class V, UF 19 (R144): Select by element condition. -/
  | vsel (u : SlotV) (f : FieldV)
  /-- vcvt, class V, UF 1A (R146): Convert element type. -/
  | vcvt (u : SlotV) (f : FieldV)
  /-- vpack, class V, UF 1B (R147): Narrow two sources into packed elements. -/
  | vpack (u : SlotV) (f : FieldV)
  /-- vunpk, class V, UF 1C (R148): Widen part of packed elements. -/
  | vunpk (u : SlotV) (f : FieldV)
  /-- vdot4, class V, UF 1D (R149): Four-byte dot product with addend. -/
  | vdot4 (u : SlotV) (f : FieldV)
  /-- vdot2, class V, UF 1E (R149): Two-half dot product with addend. -/
  | vdot2 (u : SlotV) (f : FieldV)
  /-- vclz, class V, UF 1F (R141): Lane-wise count leading zeros. -/
  | vclz (u : SlotV) (f : FieldV)
  /-- vpopc, class V, UF 20 (R141): Lane-wise population count. -/
  | vpopc (u : SlotV) (f : FieldV)
  /-- vrotr, class V, UF 28 (R154): Rotate along a row. -/
  | vrotr (u : SlotV) (f : FieldV)
  /-- vbcr, class V, UF 29 (R154): Broadcast a lane along a row. -/
  | vbcr (u : SlotV) (f : FieldV)
  /-- vredr, class V, UF 2A (R158): Reduce each row into one row. -/
  | vredr (u : SlotV) (f : FieldV)
  /-- vscanr, class V, UF 2B (R159): Scan along each row. -/
  | vscanr (u : SlotV) (f : FieldV)
  /-- vshuf, class V, UF 2C (R155): Shuffle lanes by index. -/
  | vshuf (u : SlotV) (f : FieldV)
  /-- vvote, class V, UF 2D (R156): Vote across lane segments into a mask. -/
  | vvote (u : SlotV) (f : FieldV)
  /-- vrotc, class V, UF 30 (R161): Rotate down a column. -/
  | vrotc (u : SlotV) (f : FieldV)
  /-- vbcc, class V, UF 31 (R161): Broadcast a row down each column. -/
  | vbcc (u : SlotV) (f : FieldV)
  /-- vredc, class V, UF 32 (R162): Reduce down each column. -/
  | vredc (u : SlotV) (f : FieldV)
  /-- vscanc, class V, UF 33 (R163): Scan down each column. -/
  | vscanc (u : SlotV) (f : FieldV)
  /-- vmov, class V, UF 38 (R150): Copy a vector operand into the window. -/
  | vmov (u : SlotV) (f : FieldV)
  /-- vput, class V, UF 39 (R151): Write one vector element. -/
  | vput (u : SlotV) (f : FieldV)
  /-- viota, class V, UF 3A (R152): Running count of mask bits. -/
  | viota (u : SlotV) (f : FieldV)
  /-- vkmov, class V, UF 3B (R145): Move between a mask and a vector. -/
  | vkmov (u : SlotV) (f : FieldV)
  /-- rcp, class F, UF 01 (R169): Reciprocal, correctly rounded. -/
  | rcp (f : FieldF)
  /-- rsq, class F, UF 02 (R169): Reciprocal square root. -/
  | rsq (f : FieldF)
  /-- sqrt, class F, UF 03 (R169): Square root, correctly rounded. -/
  | sqrt (f : FieldF)
  /-- exp2, class F, UF 04 (R169): Base-2 exponential. -/
  | exp2 (f : FieldF)
  /-- log2, class F, UF 05 (R169): Base-2 logarithm. -/
  | log2 (f : FieldF)
  /-- sinp, class F, UF 06 (R169): sin(pi x). -/
  | sinp (f : FieldF)
  /-- cosp, class F, UF 07 (R169): cos(pi x). -/
  | cosp (f : FieldF)
  /-- tanh, class F, UF 08 (R169): Hyperbolic tangent. -/
  | tanh (f : FieldF)
  /-- sigm, class F, UF 09 (R169): Logistic sigmoid. -/
  | sigm (f : FieldF)
  /-- bnet, class F, UF 10 (R174): Apply a bit-network pattern. -/
  | bnet (f : FieldF)
  /-- pdep, class F, UF 11 (R176): Bit deposit. -/
  | pdep (f : FieldF)
  /-- pext, class F, UF 12 (R176): Bit extract. -/
  | pext (f : FieldF)
  /-- bperm, class F, UF 13 (R177): Byte permute. -/
  | bperm (f : FieldF)
  /-- gfmm, class F, UF 14 (R178): Galois-field or carry-less multiply. -/
  | gfmm (f : FieldF)
  /-- keccak, class F, UF 15 (R180): One Keccak-f[1600] round. -/
  | keccak (f : FieldF)
  /-- crcc, class F, UF 16 (R179): CRC-32 or CRC-32C accumulate. -/
  | crcc (f : FieldF)
  /-- ld, class M, UF 01 (R283): Global scalar load into the DLQ. -/
  | ld (u : SlotM) (f : FieldM)
  /-- st, class M, UF 02 (R283): Global scalar store through the store queue. -/
  | st (u : SlotM) (f : FieldM)
  /-- vld, class M, UF 03 (R285): Global vector load, asynchronous. -/
  | vld (u : SlotM) (f : FieldM)
  /-- vst, class M, UF 04 (R285): Global vector store. -/
  | vst (u : SlotM) (f : FieldM)
  /-- vgat, class M, UF 05 (R286): Global gather. -/
  | vgat (u : SlotM) (f : FieldM)
  /-- vsct, class M, UF 06 (R286): Global scatter. -/
  | vsct (u : SlotM) (f : FieldM)
  /-- lds, class M, UF 07 (R284): Scratchpad scalar load. -/
  | lds (u : SlotM) (f : FieldM)
  /-- sts, class M, UF 08 (R284): Scratchpad scalar store. -/
  | sts (u : SlotM) (f : FieldM)
  /-- vlds, class M, UF 09 (R287): Scratchpad vector load. -/
  | vlds (u : SlotM) (f : FieldM)
  /-- vsts, class M, UF 0A (R287): Scratchpad vector store. -/
  | vsts (u : SlotM) (f : FieldM)
  /-- vgats, class M, UF 0B (R287): Scratchpad gather. -/
  | vgats (u : SlotM) (f : FieldM)
  /-- vscts, class M, UF 0C (R287): Scratchpad scatter. -/
  | vscts (u : SlotM) (f : FieldM)
  /-- amo, class M, UF 10 (R304): Returning atomic into the DLQ. -/
  | amo (u : SlotM) (f : FieldM)
  /-- vamo, class M, UF 11 (R306): Vector returning atomics. -/
  | vamo (u : SlotM) (f : FieldM)
  /-- red, class M, UF 12 (R305): Non-returning reduction. -/
  | red (u : SlotM) (f : FieldM)
  /-- vred, class M, UF 13 (R306): Vector reductions. -/
  | vred (u : SlotM) (f : FieldM)
  /-- popq, class M, UF 14 (R323): Pop the oldest DLQ entry. -/
  | popq (u : SlotM) (f : FieldM)
  /-- fence, class M, UF 18 (R310): Scope ordering fence. -/
  | fence (u : SlotM) (f : FieldM)
  /-- pref, class M, UF 19 (R288): Prefetch a line into L1 or L2. -/
  | pref (u : SlotM) (f : FieldM)
  /-- waita, class M, UF 1A (R289): Arm a watch on a memory word. -/
  | waita (u : SlotM) (f : FieldM)
  /-- qpush, class M, UF 1C (R326): Push to a named queue. -/
  | qpush (u : SlotM) (f : FieldM)
  /-- qpop, class M, UF 1D (R326): Pop from a named queue. -/
  | qpop (u : SlotM) (f : FieldM)
  /-- cspush, class M, UF 20 (R328): Push lane records to a conditional stream. -/
  | cspush (u : SlotM) (f : FieldM)
  /-- cspop, class M, UF 21 (R329): Pop a batch of records from a stream. -/
  | cspop (u : SlotM) (f : FieldM)
  /-- cacheop, class M, UF 24 (R290): Cache maintenance over a range. -/
  | cacheop (u : SlotM) (f : FieldM)
  /-- br, class C, UF 01 (R236): Unconditional relative branch. -/
  | br (f : FieldC)
  /-- brf, class C, UF 02 (R236): Branch if flag set. -/
  | brf (f : FieldC)
  /-- brnf, class C, UF 03 (R236): Branch if flag clear. -/
  | brnf (f : FieldC)
  /-- jr, class C, UF 04 (R236): Jump to a register address. -/
  | jr (f : FieldC)
  /-- call, class C, UF 05 (R236): Relative call, linking s31. -/
  | call (f : FieldC)
  /-- ret, class C, UF 06 (R236): Return through s31. -/
  | ret (f : FieldC)
  /-- loop, class C, UF 08 (R237): Counted back-edge. -/
  | loop (f : FieldC)
  /-- lexit, class C, UF 09 (R237): Loop exit, clearing the counter. -/
  | lexit (f : FieldC)
  /-- ipf, class C, UF 0A (R238): Prefetch code lines. -/
  | ipf (f : FieldC)
  /-- pin, class C, UF 0B (R238): Pin code lines and optionally the loop buffer. -/
  | pin (f : FieldC)
  /-- unpin, class C, UF 0C (R238): Release pinned lines or the loop buffer. -/
  | unpin (f : FieldC)
  /-- wait, class C, UF 10 (R239): Wait on flags, blocking until they hold. -/
  | wait (f : FieldC)
  /-- yield, class C, UF 11 (R240): Give up the core. -/
  | yield (f : FieldC)
  /-- bar, class C, UF 12 (R313): Arrive at a group barrier, possibly overrunning. -/
  | bar (f : FieldC)
  /-- chkt, class C, UF 14 (R241): Compare two operands and trap on mismatch. -/
  | chkt (f : FieldC)
  /-- trap, class C, UF 15 (R242): Raise SOFTWARE trap. -/
  | trap (f : FieldC)
  /-- svc, class C, UF 16 (R242): Service call trap. -/
  | svc (f : FieldC)
  /-- eret, class C, UF 17 (R243): Return from trap. -/
  | eret (f : FieldC)
  /-- exit, class C, UF 18 (R244): End the context. -/
  | exit (f : FieldC)
  /-- cont, class C, UF 19 (R245): Request a continuation. -/
  | cont (f : FieldC)
  /-- phbeg, class C, UF 1A (R246): Open a buffer phase with a checkpoint. -/
  | phbeg (f : FieldC)
  /-- phsw, class C, UF 1B (R248): Commit the phase and optionally open another. -/
  | phsw (f : FieldC)
  /-- csrr, class C, UF 20 (R250): Read a CSR. -/
  | csrr (f : FieldC)
  /-- csrw, class C, UF 21 (R250): Write a CSR. -/
  | csrw (f : FieldC)
  /-- csrs, class C, UF 22 (R250): Set bits of a CSR. -/
  | csrs (f : FieldC)
  /-- csrc, class C, UF 23 (R250): Clear bits of a CSR. -/
  | csrc (f : FieldC)
  /-- dload, class C, UF 24 (R251): Queue dictionary pages for install. -/
  | dload (f : FieldC)
  /-- ddrop, class C, UF 25 (R251): Mark dictionary pages first for eviction. -/
  | ddrop (f : FieldC)
  /-- tlbinv, class C, UF 26 (R252): Invalidate cached translations. -/
  | tlbinv (f : FieldC)
  /-- bankmode, class C, UF 27 (R253): Switch modes of group banks. -/
  | bankmode (f : FieldC)
  /-- ctxsave, class C, UF 28 (R255): Save another context's image. -/
  | ctxsave (f : FieldC)
  /-- ctxrest, class C, UF 29 (R255): Restore another context from an image. -/
  | ctxrest (f : FieldC)
  /-- halt, class C, UF 2A (R257): Stop the issuing context. -/
  | halt (f : FieldC)
  /-- mma, class E, UF 01 (R222): Matrix multiply-accumulate. -/
  | mma (f : FieldE)
  /-- mmaz, class E, UF 02 (R222): Matrix multiply from zero accumulators. -/
  | mmaz (f : FieldE)
  /-- mmas, class E, UF 03 (R222): Matrix multiply-subtract. -/
  | mmas (f : FieldE)
  /-- mmaa, class E, UF 04 (R224): Multiply-accumulate with adapter term. -/
  | mmaa (f : FieldE)
  /-- mmai, class E, UF 05 (R223): Row-indexed multiply-accumulate. -/
  | mmai (f : FieldE)
  /-- lsl, class E, UF 08 (R227): Load a stationary latch. -/
  | lsl (f : FieldE)
  /-- tzero, class E, UF 09 (R228): Zero a tile. -/
  | tzero (f : FieldE)
  /-- txp, class E, UF 0A (R229): Transpose a tile. -/
  | txp (f : FieldE)
  /-- tcvt, class E, UF 0B (R230): Convert tile elements. -/
  | tcvt (f : FieldE)
  /-- t2v, class E, UF 0C (R231): Copy 4 KiB of a tile to a vector register. -/
  | t2v (f : FieldE)
  /-- v2t, class E, UF 0D (R231): Copy a vector register into a tile. -/
  | v2t (f : FieldE)
  /-- tcopy, class E, UF 10 (R337): Issue a copy command. -/
  | tcopy (f : FieldE)
  /-- tgath, class E, UF 11 (R337): Issue a row-indexed gather copy. -/
  | tgath (f : FieldE)
  /-- tload, class E, UF 12 (R338): Issue a copy into a tile. -/
  | tload (f : FieldE)
  /-- tstore, class E, UF 13 (R338): Issue a copy out of a tile. -/
  | tstore (f : FieldE)
  /-- An idle bundle of count cycles with pad padding bytes (R70). -/
  | idle (count : Nat) (pad : Nat)
  /-- R356: csrr of UCLAIM claims the next PENDING queue. -/
  | uclaim (f : FieldC)
  /-- R356: csrw of URET releases an owned queue. -/
  | uret (f : FieldC)
  /-- R357: csrw of ULAUNCH submits a launch block to distributors. -/
  | ulaunch (f : FieldC)
  /-- R453: Write to USERVE serves the head packet of the selected queue. -/
  | userve (f : FieldC)
  /-- CONTEXT_SELECT (R28): the core chooses its longest-waiting READY context. -/
  | evContextSelect (core : Nat)
  /-- FAIRNESS_SWITCH (R29): the RUNNING context's SAFE bundle is switched out. -/
  | evFairnessSwitch (core : Nat)
  /-- FORCED_SWITCH (R29): no SAFE bundle arrived in time: the switch is forced. -/
  | evForcedSwitch (core : Nat)
  /-- TRAP_ENTRY (R260): the drain of a trapping context has ended. -/
  | evTrapEntry (ctx : Nat)
  /-- DEBUG_STOP (R63): the drain of a halting context has ended. -/
  | evDebugStop (ctx : Nat)
  /-- CONTEXT_DONE (R244): the work of an exiting context has landed. -/
  | evContextDone (ctx : Nat)
  /-- GROUP_END (R25): the last context of a group has ended. -/
  | evGroupEnd (group : Nat)
  /-- GROUP_PLACE (R19): the distributor of a die places its next group. -/
  | evGroupPlace (die : Nat)
  /-- STEAL (R22): the distributor of an idle die steals work. -/
  | evSteal (die : Nat)
  /-- PREEMPT (R32): the region scheduler pre-empts a group. -/
  | evPreempt (group : Nat)
  /-- RESUMPTION (R34): a pre-empted group resumes on a die. -/
  | evResumption (group : Nat) (die : Nat)
  /-- PENDING_ACCESS_COMPLETE (R33): a saved access of a pre-empted context completes. -/
  | evPendingAccessComplete (group : Nat) (pos : Nat)
  /-- TURN_END (R364): the quantum counter of a region reaches zero. -/
  | evTurnEnd (region : Nat)
  /-- DICTIONARY_REFILL (R81): the refill engine installs the next missing page, or an error in a resident entry makes one missing. -/
  | evDictionaryRefill (what : RefillEvent)
  /-- WALK_COMPLETE (R278): the translation walks a core is frozen for end. -/
  | evWalkComplete (core : Nat)
  /-- DLQ_ARRIVAL (R322): a value reaches a DLQ entry. -/
  | evDlqArrival (ctx : Nat) (entry : Nat)
  /-- STORE_PERFORMED (R283): the oldest queued store or reduction is performed. -/
  | evStorePerformed (ctx : Nat)
  /-- VECTOR_ACCESS_COMPLETE (R285): a global vector access completes. -/
  | evVectorAccessComplete (ctx : Nat) (index : Nat)
  /-- ACCESS_FAILURE (R280): an access in flight, by its place in its context's queue, fails after issue (lost pool region, or
  uncorrectable data), an error is found in what the context holds (R379), or a soft error strikes a unit (R455). -/
  | evAccessFailure (ctx : Nat) (index : Nat) (what : AccessFault)
  /-- WATCH_FIRE (R289): the home slice reads for a watch and its condition holds. -/
  | evWatchFire (ctx : Nat) (watch : Nat)
  /-- TLBINV_COMPLETE (R252): every covered TLB is invalidated. -/
  | evTlbinvComplete (ctx : Nat)
  /-- BANK_SWITCH_COMPLETE (R253): the named banks have switched. -/
  | evBankSwitchComplete (cluster : Nat)
  /-- CACHEOP_COMPLETE (R290): every line of a cacheop range is handled. -/
  | evCacheopComplete (ctx : Nat)
  /-- CTX_IMAGE_COMPLETE (R255): a ctxsave or ctxrest image access finishes. -/
  | evCtxImageComplete (ctx : Nat)
  /-- LTS_ADVANCE (R294): the device raises a program timestamp. -/
  | evLtsAdvance (ctx : Nat) (amount : Nat)
  /-- BACK_INVALIDATION (R298): a back-invalidation for a pool line arrives; its agent writes these bytes from the line's start on,
  or fails with the line's only copy (R390). -/
  | evBackInvalidation (line : Nat) (bytes : Option (List (BitVec 8)))
  /-- OVERRUN_ROLLBACK (R317): a conflict rolls an overrunning context back. -/
  | evOverrunRollback (ctx : Nat)
  /-- PHASE_CANCEL (R249): an open phase that is not exposed is cancelled. -/
  | evPhaseCancel (ctx : Nat)
  /-- PHASE_REFETCH_COMPLETE (R456): the refetch of a cancelled phase completes. -/
  | evPhaseRefetchComplete (ctx : Nat)
  /-- CONTAINED_FAULT (R376): a faulted group stops and ends. -/
  | evContainedFault (group : Nat)
  /-- RENDEZVOUS_TIMEOUT (R220): a rendezvous timer reaches RVTO. -/
  | evRendezvousTimeout (group : Nat) (latch : Nat)
  /-- DIVERGED_STATE_END (R219): a diverged rendezvous latch clears. -/
  | evDivergedStateEnd (group : Nat) (latch : Nat)
  /-- CANOPY_START (R214): Canopy starts its next command. -/
  | evCanopyStart (cluster : Nat)
  /-- CANOPY_COMPLETE (R213): Canopy works on a number of units of its command, and completes it with the last. -/
  | evCanopyComplete (cluster : Nat) (units : Nat)
  /-- CANOPY_FAULT (R215): the Canopy command fails at its next unit. -/
  | evCanopyFault (cluster : Nat)
  /-- COPY_START (R333): the copy engine starts its next command. -/
  | evCopyStart (cluster : Nat)
  /-- COPY_COMPLETE (R337): the copy engine moves a number of elements of its command, and completes it with the last. -/
  | evCopyComplete (cluster : Nat) (elements : Nat)
  /-- COPY_FAULT (R341): the copy command fails at its next element. -/
  | evCopyFault (cluster : Nat) (lost : Bool)
  /-- GOVERNOR_SAMPLE (R441): the governor samples the core-rail current. -/
  | evGovernorSample (current : Nat)
  /-- NOTIFY (R346): a notify register is written. -/
  | evNotify (queue : Nat) (value : BitVec 64)
  /-- QUEUE_RESUME (R353): a RESUME command reaches a queue. -/
  | evQueueResume (queue : Nat)
  /-- QUEUE_ENABLE (R353): an ENABLE command reaches a queue. -/
  | evQueueEnable (queue : Nat)
  /-- QUEUE_DISABLE (R353): a DISABLE command reaches a queue. -/
  | evQueueDisable (queue : Nat)
  /-- INVOKE (R360): an INVOKE packet is served. -/
  | evInvoke (queue : Nat)
  /-- DISPATCH (R349): a DISPATCH packet is served. -/
  | evDispatch (queue : Nat)
  /-- COPY_PACKET (R350): a COPY packet is served on a cluster. -/
  | evCopyPacket (queue : Nat) (cluster : Nat)
  /-- SIGNAL_PACKET (R352): a SIGNAL packet is served. -/
  | evSignalPacket (queue : Nat)
  /-- WAIT_PACKET (R352): a WAIT packet is evaluated. -/
  | evWaitPacket (queue : Nat)
  /-- BARRIER_AND (R352): a BARRIER-AND packet is evaluated. -/
  | evBarrierAnd (queue : Nat)
  /-- CONTINUE (R361): the head of a continuation queue is served. -/
  | evContinue (die : Nat)
  /-- ADAPTER_HINT (R362): an ADAPTER-HINT packet is served. -/
  | evAdapterHint (queue : Nat)
  /-- QUEUE_UNBLOCK (R353): the condition of a BLOCKED queue holds. -/
  | evQueueUnblock (queue : Nat)
  /-- WAIT_TIMEOUT (R352): the timeout of a WAIT or BARRIER-AND packet expires. -/
  | evWaitTimeout (queue : Nat)
  /-- COMMAND_COMPLETE (R351): the last work of a command has ended. -/
  | evCommandComplete (command : Nat)
  /-- FAULT_RESUME (R373): an FQCTL RESUME arrives. -/
  | evFaultResume (region : Nat) (ref : Nat)
  /-- FAULT_CANCEL (R373): an FQCTL CANCEL arrives. -/
  | evFaultCancel (region : Nat) (ref : Nat)
  /-- FAULT_RELEASE (R373): an FQCTL RELEASE arrives. -/
  | evFaultRelease (region : Nat) (ref : Nat)
  /-- TRCBASE_WRITE (R414): a TRCBASE register is written. -/
  | evTrcbaseWrite (region : Nat) (value : BitVec 64)
  /-- DEBUG_HALT (R416): a TRCCMD HALT is written. -/
  | evDebugHalt (region : Nat) (operand : BitVec 64)
  /-- DEBUG_RELEASE (R416): a TRCCMD RELEASE is written. -/
  | evDebugRelease (region : Nat) (operand : BitVec 64)
  /-- DUMP (R416): a TRCCMD DUMP is written. -/
  | evDump (region : Nat) (operand : BitVec 64)
  /-- LOAD (R416): a TRCCMD LOAD is written. -/
  | evLoad (region : Nat) (operand : BitVec 64)
  /-- STOPQ (R417): a TRCCMD STOPQ is written. -/
  | evStopq (region : Nat) (operand : BitVec 64)
  /-- GOQ (R417): a TRCCMD GOQ is written. -/
  | evGoq (region : Nat) (operand : BitVec 64)
  /-- STEPQ (R417): a TRCCMD STEPQ is written. -/
  | evStepq (region : Nat) (operand : BitVec 64)
  /-- TRACE_SAMPLE (R419): the sample period of a trace service ends. -/
  | evTraceSample (region : Nat)
  /-- TBLCMD (R407): TBLCMD is written. -/
  | evTblcmd (value : BitVec 64)
  /-- TABLE_UPDATE (R408): the oldest queued table update is applied. -/
  | evTableUpdate
  /-- MAILBOX_EXTEND (R436): the security mailbox is written. -/
  | evMailboxExtend (offset : Nat) (bytes : List (BitVec 8))
  /-- REGISTER_WRITE (R427): a driver register without behaviour of its own is written. -/
  | evRegisterWrite (address : Nat) (value : BitVec 64)
  /-- GET_VERSION (R437): an SPDM GET_VERSION request. -/
  | evGetVersion (req : SpdmRequest)
  /-- GET_CAPABILITIES (R437): an SPDM GET_CAPABILITIES request. -/
  | evGetCapabilities (req : SpdmRequest)
  /-- NEGOTIATE_ALGORITHMS (R437): an SPDM NEGOTIATE_ALGORITHMS request. -/
  | evNegotiateAlgorithms (req : SpdmRequest)
  /-- GET_DIGESTS (R437): an SPDM GET_DIGESTS request. -/
  | evGetDigests (req : SpdmRequest)
  /-- GET_CERTIFICATE (R437): an SPDM GET_CERTIFICATE request. -/
  | evGetCertificate (req : SpdmRequest)
  /-- CHALLENGE (R437): an SPDM CHALLENGE request. -/
  | evChallenge (req : SpdmRequest)
  /-- GET_MEASUREMENTS (R437): an SPDM GET_MEASUREMENTS request. -/
  | evGetMeasurements (req : SpdmRequest)
  /-- KEY_EXCHANGE (R437): an SPDM KEY_EXCHANGE request. -/
  | evKeyExchange (req : SpdmRequest)
  /-- FINISH (R437): an SPDM FINISH request. -/
  | evFinish (req : SpdmRequest)
  /-- END_SESSION (R437): an SPDM END_SESSION request. -/
  | evEndSession (req : SpdmRequest)
  /-- IDE_KM (R424): an IDE key management message. -/
  | evIdeKm (req : SpdmRequest)
  /-- UNSUPPORTED_REQUEST (R437): any other SPDM request. -/
  | evUnsupportedRequest (req : SpdmRequest)
  /-- PACKAGE_RESET (R435): reset starts secure boot. -/
  | evPackageReset
  /-- SECURITY_FAILOVER (R438): the standby security core takes over. -/
  | evSecurityFailover
  /-- READY_SET (R439): a unit passes its self test. -/
  | evReadySet (word : Nat) (bit : Nat)
  /-- CLUSTER_FAIL (R384): a cluster fails at run time. -/
  | evClusterFail (cluster : Nat)
  /-- DIE_LOST (R391): a compute die is lost. -/
  | evDieLost (die : Nat)
  /-- ROOT_PORT_LINK_DOWN (R431): a root port link goes down. -/
  | evRootPortLinkDown (port : Nat)
  /-- LINK_RECOVERY_TIMEOUT (R431): a root port has stayed in recovery for over 1 ms. -/
  | evLinkRecoveryTimeout (port : Nat)
  /-- LINK_RETRAIN (R431): a root port link retrains. -/
  | evLinkRetrain (port : Nat)
  /-- POOL_REGION_LOST_REPORT (R385): a pool device reports a region lost. -/
  | evPoolRegionLostReport (entry : Nat)
  /-- HOST_LINK_DOWN (R429): the host port link goes down. -/
  | evHostLinkDown
  /-- HOST_HDM_ACCESS (R428): the host reaches the HBM4 range over CXL.mem. -/
  | evHostHdmAccess (access : HostAccess)
  /-- RIDE_FLIT (R432): a Ride flit arrives. -/
  | evRideFlit (flit : RideFlit)
  /-- RIDE_RAIL_LOST (R383): a Ride rail is lost, or a unit of the device absorbs another failure of its Table 3. -/
  | evRideRailLost (unit : Nat) (what : AbsorbedFailure)
  /-- INSTRUCTION_CACHE_FILL (R72): a missing instruction-cache line arrives. -/
  | evInstructionCacheFill (core : Nat)
  /-- RIDE_PORT_RETURN (R434): a Ride port comes back. -/
  | evRidePortReturn (port : Nat)
  /-- HOST_LINK_RETRAIN (R429): the host port link trains again. -/
  | evHostLinkRetrain
  /-- UNIT_FAIL (R439): a unit other than a cluster or compute die fails. -/
  | evUnitFail (word : Nat) (bit : Nat)
deriving DecidableEq, Repr

end Sys2Proof
end

