-- ==== Sys2Proof/WellFormed.lean ====
section
/-! DEFINITION. The structural hazard filter (R82, R395) as well-formedness of an instruction: which slot fields a core of
a kind accepts from a dictionary, by the field tables of each class. An entry that fails is a bad entry, and issuing it
raises ILLEGAL_CW (R43). The bounds on the names an event carries are those of the machine. -/

namespace Sys2Proof

/-- The three kinds of core (R11, R355, R435). -/
inductive CoreKind where
  | compute | understory | security
deriving DecidableEq, Repr

/-- A selector with scalar meaning: not reserved, and no vector latch (R50, R53). -/
def selScalar (x : BitVec 6) : Bool := x.toNat < 48 && !(34 ≤ x.toNat && x.toNat ≤ 36)

/-- A selector with vector meaning: not reserved, and no scalar latch (R50, R53). -/
def selVector (x : BitVec 6) : Bool := x.toNat < 48 && !(32 ≤ x.toNat && x.toNat ≤ 33)

/-- Whether an element type is a floating-point one. -/
def isFloatEt (et : BitVec 3) : Bool := et = 2 || et = 5 || et = 6

/-- An integer element type: all but the floating-point ones. -/
def isIntEt (et : BitVec 3) : Bool := !isFloatEt et

/-! S class (R103 Table 6). -/

/-- With WS = 1, DST is unused and must be 0 (R103). (DEDUCED, notes/assumptions/36.md) -/
def wsDstS (f : FieldS) : Bool := !f.ws || f.dst = 0

/-- Two sources, AUX unused. -/
def wfBinaryS (f : FieldS) : Bool := wsDstS f && selScalar f.opa && selScalar f.opb && f.aux = 0

/-- One source, AUX unused. -/
def wfUnaryS (f : FieldS) : Bool := wsDstS f && selScalar f.opa && f.opb = 0 && f.aux = 0

/-- No source, AUX below a bound. -/
def wfNullaryS (bound : Nat) (f : FieldS) : Bool :=
  wsDstS f && f.opa = 0 && f.opb = 0 && f.aux.toNat < bound

/-- One source, AUX below a bound. -/
def wfUnaryAuxS (bound : Nat) (f : FieldS) : Bool :=
  wsDstS f && selScalar f.opa && f.opb = 0 && f.aux.toNat < bound

/-- Two sources, AUX below a bound. -/
def wfBinaryAuxS (bound : Nat) (f : FieldS) : Bool :=
  wsDstS f && selScalar f.opa && selScalar f.opb && f.aux.toNat < bound

/-- cmp: a flag in DST[3:0], a condition 0 to 7 in AUX[3:0] and W in AUX[4] (R114). -/
def wfCmp (f : FieldS) : Bool := wfBinaryAuxS 32 f && f.dst.toNat < 16 && f.aux.toNat % 16 < 8

/-- flset: DST is 0 (R115). -/
def wfFlset (f : FieldS) : Bool := wfBinaryS f && f.dst = 0

/-- vget: OPA has vector meaning (R53, R118). -/
def wfVget (f : FieldS) : Bool := wsDstS f && selVector f.opa && selScalar f.opb && f.aux.toNat < 2

/-- kset: a mask in DST[2:0] (R120). -/
def wfKset (f : FieldS) : Bool := wfUnaryS f && f.dst.toNat < 8

/-! V class (R130 Table 7). -/

/-- What every V-class field meets: the row window (R45) and vector selectors (R50, R53). (DEDUCED, notes/assumptions/36.md) -/
def wfWindowV (f : FieldV) : Bool :=
  f.rb.toNat + f.rn.toNat < 16 && selVector f.opa && selVector f.opb && selVector f.opc

/-- A V-class field with n sources and AUX below a bound, over an accepted set of element types. -/
def wfV (n bound : Nat) (ets : BitVec 3 → Bool) (f : FieldV) : Bool :=
  wfWindowV f && ets f.et && (1 ≤ n || f.opa = 0) && (2 ≤ n || f.opb = 0) && (3 ≤ n || f.opc = 0)
    && f.aux.toNat < bound

/-- Every element type. -/
def anyEt (_ : BitVec 3) : Bool := true

/-- The destination is a mask register in DST[2:0] (R52). -/
def maskDst (f : FieldV) : Bool := f.dst.toNat < 8

/-- The window of a column-axis operation: rows 0 to 15 (R45). -/
def fullWindow (f : FieldV) : Bool := f.rb = 0 && f.rn = 15

/-- vcmp: conditions 6 and 7 for float types only, UB for ET 7 only (R142). -/
def wfVcmp (f : FieldV) : Bool :=
  wfV 2 64 anyEt f && maskDst f && f.aux.toNat % 16 < 8
    && (f.aux.toNat % 16 < 6 || isFloatEt f.et) && (f.aux.toNat < 32 || f.et = 7)

/-- The conversion pairs of R146 Table 10: source, destination. -/
def cvtPair (src dst : BitVec 3) : Bool :=
  match src.toNat, dst.toNat with
  | 0, 1 => true | 1, 0 => true | 0, 2 => true | 1, 2 => true | 2, 0 => true | 2, 1 => true
  | 3, 4 => true | 4, 3 => true | 3, 5 => true | 3, 6 => true | 4, 5 => true | 4, 6 => true
  | 5, 3 => true | 5, 4 => true | 5, 6 => true | 6, 3 => true | 6, 4 => true | 6, 5 => true
  | _, _ => false

/-- vcvt: the source type in AUX[2:0] (R146). -/
def wfVcvt (f : FieldV) : Bool :=
  wfV 1 8 anyEt f && cvtPair (BitVec.ofNat 3 f.aux.toNat) f.et

/-- The packed element types 3 to 7. -/
def packedEt (et : BitVec 3) : Bool := 3 ≤ et.toNat

/-- vpack and vunpk: AUX[1] is for ET 7 only (R147, R148). -/
def byteBit (f : FieldV) : Bool := f.aux.toNat < 2 || f.et = 7

/-- A combining operation 0 to 5 in AUX[2:0] (R157). -/
def combineCode (f : FieldV) : Bool := f.aux.toNat % 8 < 6

/-- vvote: mode 0 to 2 and segment code 0 to 6 (R156). -/
def wfVvote (f : FieldV) : Bool :=
  wfV 1 32 (· = 0) f && maskDst f && f.aux.toNat % 4 < 3 && f.aux.toNat / 4 < 7

/-- vput: RB and RN are 0 (R151). -/
def wfVput (f : FieldV) : Bool := wfV 2 1 anyEt f && f.rb = 0 && f.rn = 0

/-- vkmov: DIR in AUX[0], the mask of DIR = 0 in AUX[3:1] (R145). -/
def wfVkmov (f : FieldV) : Bool :=
  wfV 1 16 (· = 0) f && (if f.aux.getLsbD 0 then f.aux = 1 && maskDst f else f.opa = 0)

/-! F class (R164, R168 Table 1). -/

/-- VM (R47). -/
def vmF (f : FieldF) : Bool := f.aux.getLsbD 8

/-- What every F-class field meets (R47, R52, R164): in scalar mode AUX[7:3] = 0 and scalar selectors, in vector mode a
vector destination, a window within the register and vector selectors. -/
def wfModeF (f : FieldF) : Bool :=
  if vmF f then
    f.dst.toNat < 16 && f.aux.toNat / 16 % 16 + f.aux.toNat % 16 < 16 && selVector f.opa && selVector f.opb
  else f.aux.toNat < 8 && selScalar f.opa && selScalar f.opb

/-- A unary function with no mode bits. -/
def wfUnaryF (f : FieldF) : Bool := wfModeF f && f.opb = 0 && (vmF f || f.aux = 0)

/-- A binary function with no mode bits. -/
def wfBinaryF (f : FieldF) : Bool := wfModeF f && (vmF f || f.aux = 0)

/-- bnet: a pattern in AUX[2:0] and no OPB in scalar mode (R174). -/
def wfBnet (f : FieldF) : Bool := wfModeF f && (vmF f || f.opb = 0)

/-- gfmm: modes 0 to 3 (R178). -/
def wfGfmm (f : FieldF) : Bool := wfModeF f && (vmF f || f.aux.toNat < 4)

/-- keccak: vector mode with RN = 0 only (R180). -/
def wfKeccak (f : FieldF) : Bool := wfModeF f && vmF f && f.aux.toNat % 16 = 0

/-! M class (R48, R281 Table 8, R303 Table 4, R323, R325 Table 3). -/

/-- ORD, AUX[7:6] (R48 Table 6). -/
def ordM (f : FieldM) : Nat := f.aux.toNat / 64

/-- What every scalar M field meets: SC 0 to 4, SZ 0 to 3, KS 0, scalar selectors. -/
def wfScalarM (f : FieldM) : Bool :=
  f.sc.toNat < 5 && f.sz.toNat < 4 && f.ks = 0 && selScalar f.opa && selScalar f.opb

/-- What every vector M field meets: SC 0 to 4, SZ 0 to 2, a vector DST, a vector OPB. -/
def wfVectorM (f : FieldM) : Bool :=
  f.sc.toNat < 5 && f.sz.toNat < 3 && f.dst.toNat < 16 && selScalar f.opa && selVector f.opb

/-- SC is 0 without an ordering and 1 to 4 with one (R281). -/
def scopedM (f : FieldM) : Bool := decide (f.sc = 0) = decide (ordM f = 0)

/-- ld: ORD 0 or 1, SX in AUX[0]. -/
def wfLd (f : FieldM) : Bool :=
  wfScalarM f && !f.ws && f.dst = 0 && scopedM f && ordM f < 2 && f.aux.toNat % 64 < 2

/-- st: ORD 0 or 2. -/
def wfSt (f : FieldM) : Bool :=
  wfScalarM f && !f.ws && scopedM f && (ordM f = 0 || ordM f = 2) && f.aux.toNat % 64 = 0

/-- lds: SX in AUX[0]. -/
def wfLds (f : FieldM) : Bool := wfScalarM f && f.sc = 0 && f.aux.toNat < 2

/-- sts. -/
def wfSts (f : FieldM) : Bool := wfScalarM f && !f.ws && f.sc = 0 && f.aux = 0

/-- vld and vgat: ORD 0 or 1, a flag 1 to 15, and (vgat) IU in AUX[4]. -/
def wfVload (indexed : Bool) (f : FieldM) : Bool :=
  wfVectorM f && !f.ws && scopedM f && ordM f < 2 && f.aux.toNat % 16 ≠ 0
    && f.aux.toNat % 64 < (if indexed then 32 else 16) && (indexed || f.opb = 0)

/-- vst and vsct: ORD 0 or 2, a flag 0 to 15, and (vsct) IU in AUX[4]. -/
def wfVstore (indexed : Bool) (f : FieldM) : Bool :=
  wfVectorM f && !f.ws && scopedM f && (ordM f = 0 || ordM f = 2)
    && f.aux.toNat % 64 < (if indexed then 32 else 16) && (indexed || f.opb = 0)

/-- The window of a scratchpad vector operation (R287). -/
def windowM (f : FieldM) : Bool := f.aux.toNat / 16 + f.aux.toNat % 16 < 16

/-- vlds, vsts, vgats and vscts. -/
def wfSpadV (store indexed : Bool) (f : FieldM) : Bool :=
  wfVectorM f && windowM f && f.sc = 0 && (!store || !f.ws) && (indexed || f.opb = 0)

/-- amo: ORD any, SP in AUX[5], an operation 0 to 10, DST for cas only (R303). -/
def wfAmo (f : FieldM) : Bool :=
  wfScalarM f && !f.ws && f.sc ≠ 0 && 2 ≤ f.sz.toNat && f.aux.toNat % 32 < 11
    && (f.aux.toNat % 32 = 9 || f.dst = 0) && (f.aux.toNat % 32 ≠ 10 || f.sz = 2)
    && (!f.aux.getLsbD 5 || (f.sc = 1 && ordM f = 0))

/-- red: ORD 0 or 2, no swap and no cas (R303). -/
def wfRed (f : FieldM) : Bool :=
  wfScalarM f && !f.ws && f.dst = 0 && f.sc ≠ 0 && 2 ≤ f.sz.toNat && f.aux.toNat % 32 < 11
    && f.aux.toNat % 32 ≠ 8 && f.aux.toNat % 32 ≠ 9 && (f.aux.toNat % 32 ≠ 10 || f.sz = 2)
    && (ordM f = 0 || ordM f = 2) && (!f.aux.getLsbD 5 || (f.sc = 1 && ordM f = 0))

/-- vamo: SC 1 to 3, SZ 2, ORD 0 or 1 and none at SC 1, a flag 1 to 15 (R303). -/
def wfVamo (f : FieldM) : Bool :=
  wfVectorM f && f.sz = 2 && 1 ≤ f.sc.toNat && f.sc.toNat < 4 && ordM f < 2 && (ordM f = 0 || f.sc ≠ 1)
    && f.aux.toNat % 16 ≠ 0

/-- vred: SC 1 to 3, SZ 2, ORD 0 or 2 and none at SC 1 (R303). -/
def wfVred (f : FieldM) : Bool :=
  wfVectorM f && !f.ws && f.sz = 2 && 1 ≤ f.sc.toNat && f.sc.toNat < 4 && (ordM f = 0 || ordM f = 2)
    && (ordM f = 0 || f.sc ≠ 1)

/-- fence: SC 1 to 4, ORD 1 to 3 (R303). -/
def wfFence (f : FieldM) : Bool :=
  wfScalarM f && !f.ws && f.dst = 0 && f.opa = 0 && f.opb = 0 && f.sc ≠ 0 && f.sz = 0
    && 1 ≤ ordM f && f.aux.toNat % 64 = 0

/-- popq (R323). -/
def wfPopq (f : FieldM) : Bool :=
  f.opa = 0 && f.opb = 0 && f.sc = 0 && f.sz = 0 && f.ks = 0 && f.aux = 0

/-- pref: LVL in AUX[0] (R281). -/
def wfPref (f : FieldM) : Bool :=
  wfScalarM f && !f.ws && f.dst = 0 && f.sc = 0 && f.sz = 0 && f.aux.toNat < 2

/-- waita: SC 1 with SP and 2 to 4 without, SZ 2 or 3, a flag 1 to 15 (R281, R289). -/
def wfWaita (f : FieldM) : Bool :=
  wfScalarM f && !f.ws && f.dst = 0 && 2 ≤ f.sz.toNat && f.aux.toNat < 64 && f.aux.toNat % 16 ≠ 0
    && (if f.aux.getLsbD 5 then f.sc = 1 else 2 ≤ f.sc.toNat)

/-- cacheop: operations 0 to 3, a flag in AUX[5:3] (R290). -/
def wfCacheop (f : FieldM) : Bool :=
  wfScalarM f && !f.ws && f.dst = 0 && f.sc = 0 && f.sz = 0 && f.aux.toNat < 64 && f.aux.toNat % 8 < 4

/-- qpush: the notify tag in AUX[3:0] (R325). -/
def wfQpush (f : FieldM) : Bool :=
  wfScalarM f && !f.ws && f.opb = 0 && f.sc = 0 && f.sz = 3 && f.aux.toNat < 16

/-- qpop (R325). -/
def wfQpop (f : FieldM) : Bool := wfScalarM f && f.opb = 0 && f.sc = 0 && f.sz = 3 && f.aux = 0

/-- cspush and cspop (R325). -/
def wfStreamM (push : Bool) (f : FieldM) : Bool :=
  wfVectorM f && windowM f && f.opb = 0 && f.sc = 0 && f.sz = 2 && (!push || !f.ws)

/-! C class (R235 Table 2). -/

/-- The CSR number of a CSR operation: AUX[11:0] (R250). -/
def csrNumber (f : FieldC) : Nat := f.aux.toNat % 4096

/-- The CSRs mapped on a kind of core (R263 Table 7, R356 Table 8, R452 Table 1). -/
def csrMapped (k : CoreKind) (n : Nat) : Bool :=
  n < 0x006 || (0x010 ≤ n && n < 0x030) || (0x040 ≤ n && n < 0x061) || n = 0x070 || n = 0x071
    || (0x080 ≤ n && n < 0x0D1) || (0x100 ≤ n && n < 0x10A)
    || (k = .understory && (0x200 ≤ n && n < 0x209))

/-- The read-only CSRs (R263 Table 7, R356 Table 8, R452 Table 1). -/
def csrReadOnly (n : Nat) : Bool :=
  n = 0x000 || n = 0x005 || (0x010 ≤ n && n < 0x020) || n = 0x070 || n = 0x071
    || (0x106 ≤ n && n < 0x109) || n = 0x200 || n = 0x201 || (0x205 ≤ n && n < 0x208)

/-- A field with no DST, no WS and AUX below a bound. -/
def wfPlainC (bound : Nat) (f : FieldC) : Bool :=
  !f.ws && f.dst = 0 && selScalar f.opa && f.aux.toNat < bound

/-- A field with no DST, no OPA, no WS and AUX below a bound. -/
def wfBareC (bound : Nat) (f : FieldC) : Bool := !f.ws && f.dst = 0 && f.opa = 0 && f.aux.toNat < bound

/-- A field with a DST, no WS and AUX below a bound. -/
def wfDstC (bound : Nat) (f : FieldC) : Bool := !f.ws && selScalar f.opa && f.aux.toNat < bound

/-- chkt: two selectors of one meaning, and in vector mode a window (R241). -/
def wfChkt (f : FieldC) : Bool :=
  !f.ws && f.dst = 0 &&
    (if f.aux.getLsbD 6 then
      selVector f.opa && selVector (BitVec.ofNat 6 f.aux.toNat) && f.aux.toNat / 128 % 16 + f.aux.toNat / 2048 < 16
    else selScalar f.opa && selScalar (BitVec.ofNat 6 f.aux.toNat) && f.aux.toNat < 64)

/-- phbeg and phsw: DST is the first of a register pair, 0 to 30 (R246). -/
def wfPhase (f : FieldC) : Bool := wfDstC 1 f && f.dst ≠ 31

/-- A CSR read: mapped, and privileged above 0x0FF (R250, R87). -/
def wfCsrRead (k : CoreKind) (priv : Bool) (f : FieldC) : Bool :=
  f.opa = 0 && f.aux.toNat < 4096 && csrMapped k (csrNumber f) && (priv || csrNumber f < 0x100)

/-- A CSR write: mapped, not read-only, privileged above 0x0FF (R250, R87). -/
def wfCsrWrite (k : CoreKind) (priv : Bool) (f : FieldC) : Bool :=
  selScalar f.opa && f.aux.toNat < 4096 && csrMapped k (csrNumber f) && !csrReadOnly (csrNumber f)
    && (priv || csrNumber f < 0x100)

/-- The CSR numbers whose access is a deed of its own (R356, R453): a csrr of UCLAIM, a csrw of URET, of ULAUNCH and of
USERVE. -/
def deedRead (n : Nat) : Bool := n = 0x201
/-- The numbers whose csrw is a deed of its own. -/
def deedWrite (n : Nat) : Bool := n = 0x202 || n = 0x203 || n = 0x208

/-- dload and ddrop: classes 0 to 5 (R235). -/
def wfDload (bound : Nat) (f : FieldC) : Bool := wfPlainC bound f && f.aux.toNat % 8 < 6

/-- bankmode: modes 0 to 2 (R235). -/
def wfBankmode (f : FieldC) : Bool := wfPlainC 64 f && f.aux.toNat % 4 < 3

/-- bar: the barrier in AUX[2:0] and OVR in AUX[3] (R311). -/
def wfBar (f : FieldC) : Bool := wfPlainC 16 f

/-! E class (R210 Table 1, R335 Table 9). -/

/-- An mma-family field, with AUX below a bound. -/
def wfMma (bound : Nat) (f : FieldE) : Bool := f.sl.toNat < 6 && selScalar f.ops && f.aux.toNat < bound

/-- lsl: a latch and a descriptor address. -/
def wfLsl (f : FieldE) : Bool :=
  f.td = 0 && f.ta = 0 && f.sl.toNat < 6 && selScalar f.ops && f.aux.toNat < 16

/-- tzero: a tile. -/
def wfTzero (f : FieldE) : Bool := f.ta = 0 && f.sl = 0 && f.ops = 0 && f.aux.toNat < 16

/-- txp: two tiles. -/
def wfTxp (f : FieldE) : Bool := f.sl = 0 && f.ops = 0 && f.aux.toNat < 16

/-- tcvt: two tiles and a count, INTSRC in AUX[4]. -/
def wfTcvt (f : FieldE) : Bool := f.sl = 0 && selScalar f.ops && f.aux.toNat < 32

/-- t2v: a source tile, a vector register in AUX[7:4]. -/
def wfT2v (f : FieldE) : Bool := f.td = 0 && f.sl = 0 && selScalar f.ops && f.aux.toNat < 256

/-- v2t: a destination tile, a vector register in AUX[7:4], BEATS not 1 to 15. -/
def wfV2t (f : FieldE) : Bool :=
  f.ta = 0 && f.sl = 0 && selScalar f.ops && f.aux.toNat < 256 && !(1 ≤ f.beats.toNat && f.beats.toNat ≤ 15)

/-- tcopy and tgath: the flag in TD[3:0]. -/
def wfTcopy (f : FieldE) : Bool := f.td.toNat < 16 && f.ta = 0 && f.sl = 0 && selScalar f.ops

/-- tload: a tile, the flag in TA[3:0]. -/
def wfTload (f : FieldE) : Bool := f.ta.toNat < 16 && f.sl = 0 && selScalar f.ops

/-- tstore: a tile, the flag in TD[3:0]. -/
def wfTstore (f : FieldE) : Bool := f.td.toNat < 16 && f.sl = 0 && selScalar f.ops

/-- Well-formedness: the filter's verdict for a core kind and a dictionary's PRIV flag (R395); for an idle bundle its
cycle and padding counts (R70); for an event the bounds of the names it carries. -/
def wellFormed (k : CoreKind) (priv : Bool) : Instr → Bool
  | .add _ f => wfBinaryS f
  | .sub _ f => wfBinaryS f
  | .addw _ f => wfBinaryS f
  | .subw _ f => wfBinaryS f
  | .and _ f => wfBinaryS f
  | .or _ f => wfBinaryS f
  | .xor _ f => wfBinaryS f
  | .andn _ f => wfBinaryS f
  | .orn _ f => wfBinaryS f
  | .xnor _ f => wfBinaryS f
  | .shl _ f => wfBinaryS f
  | .shr _ f => wfBinaryS f
  | .sar _ f => wfBinaryS f
  | .rotl _ f => wfBinaryS f
  | .rotr _ f => wfBinaryS f
  | .mul _ f => wfBinaryS f
  | .mulh _ f => wfBinaryS f
  | .mulhu _ f => wfBinaryS f
  | .mulw _ f => wfBinaryS f
  | .div _ f => wfBinaryS f
  | .divu _ f => wfBinaryS f
  | .rem _ f => wfBinaryS f
  | .remu _ f => wfBinaryS f
  | .divw _ f => wfBinaryS f
  | .remw _ f => wfBinaryS f
  | .min _ f => wfBinaryS f
  | .max _ f => wfBinaryS f
  | .minu _ f => wfBinaryS f
  | .maxu _ f => wfBinaryS f
  | .clz _ f => wfUnaryS f
  | .ctz _ f => wfUnaryS f
  | .popc _ f => wfUnaryS f
  | .bswap _ f => wfUnaryS f
  | .sext _ f => wfUnaryAuxS 64 f
  | .zext _ f => wfUnaryAuxS 64 f
  | .mov _ f => wfUnaryS f
  | .pack _ f => wfBinaryAuxS 64 f
  | .sel _ f => wfBinaryAuxS 16 f
  | .cmp _ f => wfCmp f
  | .lea _ f => wfBinaryAuxS 8 f
  | .flset _ f => wfFlset f
  | .flget _ f => wfNullaryS 1 f
  | .ident _ f => wfNullaryS 10 f
  | .vget _ f => wfVget f
  | .kget _ f => wfNullaryS 8 f
  | .kset _ f => wfKset f
  | .vadd _ f => wfV 2 1 anyEt f
  | .vsub _ f => wfV 2 1 anyEt f
  | .vmul _ f => wfV 2 1 anyEt f
  | .vmulh _ f => wfV 2 1 isIntEt f
  | .vfma _ f => wfV 3 1 isFloatEt f
  | .vfms _ f => wfV 3 1 isFloatEt f
  | .vfnma _ f => wfV 3 1 isFloatEt f
  | .vdiv _ f => wfV 2 1 isIntEt f
  | .vrem _ f => wfV 2 1 isIntEt f
  | .vmin _ f => wfV 2 1 anyEt f
  | .vmax _ f => wfV 2 1 anyEt f
  | .vabs _ f => wfV 1 1 anyEt f
  | .vneg _ f => wfV 1 1 anyEt f
  | .vsadd _ f => wfV 2 1 isIntEt f
  | .vssub _ f => wfV 2 1 isIntEt f
  | .vand _ f => wfV 2 1 anyEt f
  | .vor _ f => wfV 2 1 anyEt f
  | .vxor _ f => wfV 2 1 anyEt f
  | .vandn _ f => wfV 2 1 anyEt f
  | .vnot _ f => wfV 1 1 anyEt f
  | .vshl _ f => wfV 2 1 isIntEt f
  | .vshr _ f => wfV 2 1 isIntEt f
  | .vsar _ f => wfV 2 1 isIntEt f
  | .vcmp _ f => wfVcmp f
  | .vsel _ f => wfV 3 1 anyEt f
  | .vcvt _ f => wfVcvt f
  | .vpack _ f => wfV 2 4 packedEt f && byteBit f
  | .vunpk _ f => wfV 1 4 packedEt f && byteBit f
  | .vdot4 _ f => wfV 3 4 (· = 7) f
  | .vdot2 _ f => wfV 3 1 (fun e => e = 3 || e = 4) f
  | .vclz _ f => wfV 1 1 isIntEt f
  | .vpopc _ f => wfV 1 1 isIntEt f
  | .vrotr _ f => wfV 2 1 anyEt f
  | .vbcr _ f => wfV 2 1 anyEt f
  | .vredr _ f => wfV 1 8 anyEt f && combineCode f
  | .vscanr _ f => wfV 1 16 anyEt f && combineCode f
  | .vshuf _ f => wfV 2 1 anyEt f
  | .vvote _ f => wfVvote f
  | .vrotc _ f => wfV 2 1 anyEt f && fullWindow f
  | .vbcc _ f => wfV 2 1 anyEt f && fullWindow f
  | .vredc _ f => wfV 1 8 anyEt f && combineCode f && fullWindow f
  | .vscanc _ f => wfV 1 16 anyEt f && combineCode f && fullWindow f
  | .vmov _ f => wfV 1 1 anyEt f
  | .vput _ f => wfVput f
  | .viota _ f => wfV 1 8 (fun e => e = 0 || e = 1) f
  | .vkmov _ f => wfVkmov f
  | .rcp f => wfUnaryF f
  | .rsq f => wfUnaryF f
  | .sqrt f => wfUnaryF f
  | .exp2 f => wfUnaryF f
  | .log2 f => wfUnaryF f
  | .sinp f => wfUnaryF f
  | .cosp f => wfUnaryF f
  | .tanh f => wfUnaryF f
  | .sigm f => wfUnaryF f
  | .bnet f => wfBnet f
  | .pdep f => k ≠ .compute && wfBinaryF f
  | .pext f => k ≠ .compute && wfBinaryF f
  | .bperm f => k ≠ .compute && wfBinaryF f
  | .gfmm f => k ≠ .compute && wfGfmm f
  | .keccak f => k ≠ .compute && wfKeccak f
  | .crcc f => k ≠ .compute && wfModeF f
  | .ld _ f => wfLd f
  | .st _ f => wfSt f
  | .vld _ f => wfVload false f
  | .vst _ f => wfVstore false f
  | .vgat _ f => wfVload true f
  | .vsct _ f => wfVstore true f
  | .lds _ f => wfLds f
  | .sts _ f => wfSts f
  | .vlds _ f => wfSpadV false false f
  | .vsts _ f => wfSpadV true false f
  | .vgats _ f => wfSpadV false true f
  | .vscts _ f => wfSpadV true true f
  | .amo _ f => wfAmo f
  | .vamo _ f => wfVamo f
  | .red _ f => wfRed f
  | .vred _ f => wfVred f
  | .popq _ f => wfPopq f
  | .fence _ f => wfFence f
  | .pref _ f => wfPref f
  | .waita _ f => wfWaita f
  | .qpush _ f => wfQpush f
  | .qpop _ f => wfQpop f
  | .cspush _ f => wfStreamM true f
  | .cspop _ f => wfStreamM false f
  | .cacheop _ f => wfCacheop f && (priv || f.aux.toNat % 8 = 0)
  | .br f => wfPlainC 1 f
  | .brf f => wfPlainC 32 f
  | .brnf f => wfPlainC 32 f
  | .jr f => wfPlainC 1 f
  | .call f => wfDstC 1 f && f.dst = 31
  | .ret f => wfPlainC 1 f && f.opa = 31
  | .loop f => wfDstC 1 f
  | .lexit f => wfDstC 1 f
  | .ipf f => wfPlainC 32 f
  | .pin f => selScalar f.opa && f.aux.toNat < 64
  | .unpin f => wfPlainC 128 f
  | .wait f => wfPlainC 4 f
  | .yield f => wfBareC 1 f
  | .bar f => wfBar f
  | .chkt f => wfChkt f
  | .trap f => wfPlainC 1 f
  | .svc f => wfBareC 32768 f
  | .eret f => priv && wfBareC 2 f
  | .exit f => wfBareC 1 f
  | .cont f => wfDstC 1 f
  | .phbeg f => wfPhase f
  | .phsw f => wfPhase f
  | .csrr f => wfCsrRead k priv f && !deedRead (csrNumber f)
  | .csrw f => wfCsrWrite k priv f && !deedWrite (csrNumber f)
  | .csrs f => wfCsrWrite k priv f
  | .csrc f => wfCsrWrite k priv f
  | .dload f => wfDload 512 f
  | .ddrop f => wfDload 256 f
  | .tlbinv f => priv && wfPlainC 32768 f
  | .bankmode f => wfBankmode f
  | .ctxsave f => priv && wfPlainC 512 f && !f.aux.getLsbD 4
  | .ctxrest f => priv && wfPlainC 512 f
  | .halt f => priv && wfBareC 1 f
  | .mma f => wfMma 16 f
  | .mmaz f => wfMma 16 f
  | .mmas f => wfMma 16 f
  | .mmaa f => wfMma 512 f
  | .mmai f => wfMma 512 f
  | .lsl f => wfLsl f
  | .tzero f => wfTzero f
  | .txp f => wfTxp f
  | .tcvt f => wfTcvt f
  | .t2v f => wfT2v f
  | .v2t f => wfV2t f
  | .tcopy f => wfTcopy f
  | .tgath f => wfTcopy f
  | .tload f => wfTload f
  | .tstore f => wfTstore f
  | .idle count pad => 1 ≤ count && count ≤ 256 && pad < 4
  | .uclaim f => wfCsrRead k priv f && csrNumber f = 0x201
  | .uret f => wfCsrWrite k priv f && csrNumber f = 0x202
  | .ulaunch f => wfCsrWrite k priv f && csrNumber f = 0x203
  | .userve f => wfCsrWrite k priv f && csrNumber f = 0x208
  | .evContextSelect core => core < 1034
  | .evFairnessSwitch core => core < 1034
  | .evForcedSwitch core => core < 1034
  | .evTrapEntry ctx => ctx < 4116
  | .evDebugStop ctx => ctx < 4116
  | .evContextDone ctx => ctx < 4116
  | .evGroupEnd _ => true
  | .evGroupPlace die => die < 8
  | .evSteal die => die < 8
  | .evPreempt _ => true
  | .evResumption _ die => die < 8
  | .evPendingAccessComplete _ pos => pos < 16
  | .evTurnEnd region => region < 65536
  | .evDictionaryRefill what =>
    match what with
    | .serve core => core < 1034
    | .badEntry core cls page => core < 1034 && cls < 6 && page < 1024
  | .evWalkComplete core => core < 1034
  | .evDlqArrival ctx entry => ctx < 4116 && entry < 16
  | .evStorePerformed ctx => ctx < 4116
  | .evVectorAccessComplete ctx _ => ctx < 4116
  | .evAccessFailure ctx _ _ => ctx < 4116
  | .evWatchFire ctx watch => ctx < 4116 && watch < 4
  | .evTlbinvComplete ctx => ctx < 4116
  | .evBankSwitchComplete cluster => cluster < 256
  | .evCacheopComplete ctx => ctx < 4116
  | .evCtxImageComplete ctx => ctx < 4116
  | .evLtsAdvance ctx _ => ctx < 4116
  | .evBackInvalidation _ b => b.all fun bs => decide (bs.length ≤ 64)
  | .evOverrunRollback ctx => ctx < 4116
  | .evPhaseCancel ctx => ctx < 4116
  | .evPhaseRefetchComplete ctx => ctx < 4116
  | .evContainedFault _ => true
  | .evRendezvousTimeout _ latch => latch < 4
  | .evDivergedStateEnd _ latch => latch < 4
  | .evCanopyStart cluster => cluster < 256
  | .evCanopyComplete cluster _ => cluster < 256
  | .evCanopyFault cluster => cluster < 256
  | .evCopyStart cluster => cluster < 256
  | .evCopyComplete cluster _ => cluster < 256
  | .evCopyFault cluster _ => cluster < 256
  | .evGovernorSample _ => true
  | .evNotify queue _ => queue < 65536
  | .evQueueResume queue => queue < 67584
  | .evQueueEnable queue => queue < 67584
  | .evQueueDisable queue => queue < 67584
  | .evInvoke queue => queue < 67584
  | .evDispatch queue => queue < 67584
  | .evCopyPacket queue cluster => queue < 67584 && cluster < 256
  | .evSignalPacket queue => queue < 67584
  | .evWaitPacket queue => queue < 67584
  | .evBarrierAnd queue => queue < 67584
  | .evContinue die => die < 8
  | .evAdapterHint queue => queue < 67584
  | .evQueueUnblock queue => queue < 67584
  | .evWaitTimeout queue => queue < 67584
  | .evCommandComplete _ => true
  | .evFaultResume region _ => region < 65536
  | .evFaultCancel region _ => region < 65536
  | .evFaultRelease region _ => region < 65536
  | .evTrcbaseWrite region _ => region < 65536
  | .evDebugHalt region _ => region < 65536
  | .evDebugRelease region _ => region < 65536
  | .evDump region _ => region < 65536
  | .evLoad region _ => region < 65536
  | .evStopq region _ => region < 65536
  | .evGoq region _ => region < 65536
  | .evStepq region _ => region < 65536
  | .evTraceSample region => region < 65536
  | .evTblcmd _ => true
  | .evTableUpdate => true
  | .evMailboxExtend _ _ => true
  | .evRegisterWrite _ _ => true
  | .evGetVersion _ => true
  | .evGetCapabilities _ => true
  | .evNegotiateAlgorithms _ => true
  | .evGetDigests _ => true
  | .evGetCertificate _ => true
  | .evChallenge _ => true
  | .evGetMeasurements _ => true
  | .evKeyExchange _ => true
  | .evFinish _ => true
  | .evEndSession _ => true
  | .evIdeKm _ => true
  | .evUnsupportedRequest _ => true
  | .evPackageReset => true
  | .evSecurityFailover => true
  | .evReadySet word bit => word < 5 && bit < 64
  | .evClusterFail cluster => cluster < 256
  | .evDieLost die => die < 8
  | .evRootPortLinkDown port => port < 8
  | .evLinkRecoveryTimeout port => port < 8
  | .evLinkRetrain port => port < 8
  | .evPoolRegionLostReport entry => entry < 16384
  | .evHostLinkDown => true
  | .evHostHdmAccess _ => true
  | .evRideFlit _ => true
  | .evRideRailLost unit what =>
    match what with
    | .rail rail => unit < 28 && rail < 5
    | .flits _ => unit < 28
    | .replay => unit < 9
    | .corrected => unit < 1568
  | .evInstructionCacheFill core => core < 1034
  | .evRidePortReturn port => port < 12
  | .evHostLinkRetrain => true
  | .evUnitFail word bit => word < 5 && bit < 64

end Sys2Proof
end

