-- ==== Sys2Proof/Decode.lean ====
section
/-! DEFINITION. Decoding: slot fields of the control word (R39, R41), dictionary containers (R76) and the bytes of the
stream (R67 to R71, R73, R74); after them the encoder, written from the same tables. Decoding is total: a field with a
reserved unit function decodes to nothing (R86), and a malformed stream to the finding of R73. -/

namespace Sys2Proof

/-- Bits [lo + n - 1 : lo] of a word. -/
def takeBits (w lo n : Nat) : BitVec n := BitVec.ofNat n (w / 2 ^ lo)

/-- The fields of an S-class slot field (R41 Table 2). -/
def fieldS (w : Nat) : FieldS :=
  { ws := w.testBit 31, dst := takeBits w 26 5, opa := takeBits w 20 6, opb := takeBits w 14 6,
    pf := takeBits w 10 4, pn := w.testBit 9, aux := takeBits w 0 9 }

/-- The fields of a V-class slot field (R41 Table 2). -/
def fieldV (w : Nat) : FieldV :=
  { ws := w.testBit 47, dst := takeBits w 43 4, opa := takeBits w 37 6, opb := takeBits w 31 6,
    opc := takeBits w 25 6, pf := takeBits w 21 4, pn := w.testBit 20, ks := takeBits w 17 3,
    rb := takeBits w 13 4, rn := takeBits w 9 4, et := takeBits w 6 3, aux := takeBits w 0 6 }

/-- The fields of an F-class slot field (R41 Table 2). -/
def fieldF (w : Nat) : FieldF :=
  { ws := w.testBit 31, dst := takeBits w 26 5, opa := takeBits w 20 6, opb := takeBits w 14 6,
    pf := takeBits w 10 4, pn := w.testBit 9, aux := takeBits w 0 9 }

/-- The fields of an M-class slot field (R41 Table 2). -/
def fieldM (w : Nat) : FieldM :=
  { ws := w.testBit 39, dst := takeBits w 34 5, opa := takeBits w 28 6, opb := takeBits w 22 6,
    pf := takeBits w 18 4, pn := w.testBit 17, sc := takeBits w 14 3, sz := takeBits w 11 3,
    ks := takeBits w 8 3, aux := takeBits w 0 8 }

/-- The fields of a C-class slot field (R41 Table 2). -/
def fieldC (w : Nat) : FieldC :=
  { ws := w.testBit 31, dst := takeBits w 26 5, opa := takeBits w 20 6,
    pf := takeBits w 16 4, pn := w.testBit 15, aux := takeBits w 0 15 }

/-- The fields of an E-class slot field (R41 Table 2). -/
def fieldE (w : Nat) : FieldE :=
  { beats := takeBits w 40 8, td := takeBits w 35 5, ta := takeBits w 30 5, sl := takeBits w 27 3,
    ops := takeBits w 21 6, pf := takeBits w 17 4, pn := w.testBit 16, aux := takeBits w 0 16 }

/-- The S-class operation of a slot field (R86); none for a reserved unit function. -/
def decodeS (u : SlotS) (w : Nat) : Option Instr :=
  let f := fieldS w
  match w / 2 ^ 32 % 256 with
  | 0x01 => some (.add u f)
  | 0x02 => some (.sub u f)
  | 0x03 => some (.addw u f)
  | 0x04 => some (.subw u f)
  | 0x05 => some (.and u f)
  | 0x06 => some (.or u f)
  | 0x07 => some (.xor u f)
  | 0x08 => some (.andn u f)
  | 0x09 => some (.orn u f)
  | 0x0A => some (.xnor u f)
  | 0x0B => some (.shl u f)
  | 0x0C => some (.shr u f)
  | 0x0D => some (.sar u f)
  | 0x0E => some (.rotl u f)
  | 0x0F => some (.rotr u f)
  | 0x10 => some (.mul u f)
  | 0x11 => some (.mulh u f)
  | 0x12 => some (.mulhu u f)
  | 0x13 => some (.mulw u f)
  | 0x14 => some (.div u f)
  | 0x15 => some (.divu u f)
  | 0x16 => some (.rem u f)
  | 0x17 => some (.remu u f)
  | 0x18 => some (.divw u f)
  | 0x19 => some (.remw u f)
  | 0x1A => some (.min u f)
  | 0x1B => some (.max u f)
  | 0x1C => some (.minu u f)
  | 0x1D => some (.maxu u f)
  | 0x1E => some (.clz u f)
  | 0x1F => some (.ctz u f)
  | 0x20 => some (.popc u f)
  | 0x21 => some (.bswap u f)
  | 0x22 => some (.sext u f)
  | 0x23 => some (.zext u f)
  | 0x24 => some (.mov u f)
  | 0x25 => some (.pack u f)
  | 0x26 => some (.sel u f)
  | 0x27 => some (.cmp u f)
  | 0x28 => some (.lea u f)
  | 0x29 => some (.flset u f)
  | 0x2A => some (.flget u f)
  | 0x2B => some (.ident u f)
  | 0x2C => some (.vget u f)
  | 0x2D => some (.kget u f)
  | 0x2E => some (.kset u f)
  | _ => none

/-- The V-class operation of a slot field (R86); none for a reserved unit function. -/
def decodeV (u : SlotV) (w : Nat) : Option Instr :=
  let f := fieldV w
  match w / 2 ^ 48 % 256 with
  | 0x01 => some (.vadd u f)
  | 0x02 => some (.vsub u f)
  | 0x03 => some (.vmul u f)
  | 0x04 => some (.vmulh u f)
  | 0x05 => some (.vfma u f)
  | 0x06 => some (.vfms u f)
  | 0x07 => some (.vfnma u f)
  | 0x08 => some (.vdiv u f)
  | 0x09 => some (.vrem u f)
  | 0x0A => some (.vmin u f)
  | 0x0B => some (.vmax u f)
  | 0x0C => some (.vabs u f)
  | 0x0D => some (.vneg u f)
  | 0x0E => some (.vsadd u f)
  | 0x0F => some (.vssub u f)
  | 0x10 => some (.vand u f)
  | 0x11 => some (.vor u f)
  | 0x12 => some (.vxor u f)
  | 0x13 => some (.vandn u f)
  | 0x14 => some (.vnot u f)
  | 0x15 => some (.vshl u f)
  | 0x16 => some (.vshr u f)
  | 0x17 => some (.vsar u f)
  | 0x18 => some (.vcmp u f)
  | 0x19 => some (.vsel u f)
  | 0x1A => some (.vcvt u f)
  | 0x1B => some (.vpack u f)
  | 0x1C => some (.vunpk u f)
  | 0x1D => some (.vdot4 u f)
  | 0x1E => some (.vdot2 u f)
  | 0x1F => some (.vclz u f)
  | 0x20 => some (.vpopc u f)
  | 0x28 => some (.vrotr u f)
  | 0x29 => some (.vbcr u f)
  | 0x2A => some (.vredr u f)
  | 0x2B => some (.vscanr u f)
  | 0x2C => some (.vshuf u f)
  | 0x2D => some (.vvote u f)
  | 0x30 => some (.vrotc u f)
  | 0x31 => some (.vbcc u f)
  | 0x32 => some (.vredc u f)
  | 0x33 => some (.vscanc u f)
  | 0x38 => some (.vmov u f)
  | 0x39 => some (.vput u f)
  | 0x3A => some (.viota u f)
  | 0x3B => some (.vkmov u f)
  | _ => none

/-- The F-class operation of a slot field (R86); none for a reserved unit function. -/
def decodeF (w : Nat) : Option Instr :=
  let f := fieldF w
  match w / 2 ^ 32 % 256 with
  | 0x01 => some (.rcp f)
  | 0x02 => some (.rsq f)
  | 0x03 => some (.sqrt f)
  | 0x04 => some (.exp2 f)
  | 0x05 => some (.log2 f)
  | 0x06 => some (.sinp f)
  | 0x07 => some (.cosp f)
  | 0x08 => some (.tanh f)
  | 0x09 => some (.sigm f)
  | 0x10 => some (.bnet f)
  | 0x11 => some (.pdep f)
  | 0x12 => some (.pext f)
  | 0x13 => some (.bperm f)
  | 0x14 => some (.gfmm f)
  | 0x15 => some (.keccak f)
  | 0x16 => some (.crcc f)
  | _ => none

/-- The M-class operation of a slot field (R86); none for a reserved unit function. -/
def decodeM (u : SlotM) (w : Nat) : Option Instr :=
  let f := fieldM w
  match w / 2 ^ 40 % 256 with
  | 0x01 => some (.ld u f)
  | 0x02 => some (.st u f)
  | 0x03 => some (.vld u f)
  | 0x04 => some (.vst u f)
  | 0x05 => some (.vgat u f)
  | 0x06 => some (.vsct u f)
  | 0x07 => some (.lds u f)
  | 0x08 => some (.sts u f)
  | 0x09 => some (.vlds u f)
  | 0x0A => some (.vsts u f)
  | 0x0B => some (.vgats u f)
  | 0x0C => some (.vscts u f)
  | 0x10 => some (.amo u f)
  | 0x11 => some (.vamo u f)
  | 0x12 => some (.red u f)
  | 0x13 => some (.vred u f)
  | 0x14 => some (.popq u f)
  | 0x18 => some (.fence u f)
  | 0x19 => some (.pref u f)
  | 0x1A => some (.waita u f)
  | 0x1C => some (.qpush u f)
  | 0x1D => some (.qpop u f)
  | 0x20 => some (.cspush u f)
  | 0x21 => some (.cspop u f)
  | 0x24 => some (.cacheop u f)
  | _ => none

/-- The C-class operation of a slot field (R86); none for a reserved unit function. -/
def decodeC (w : Nat) : Option Instr :=
  let f := fieldC w
  match w / 2 ^ 32 % 256 with
  | 0x01 => some (.br f)
  | 0x02 => some (.brf f)
  | 0x03 => some (.brnf f)
  | 0x04 => some (.jr f)
  | 0x05 => some (.call f)
  | 0x06 => some (.ret f)
  | 0x08 => some (.loop f)
  | 0x09 => some (.lexit f)
  | 0x0A => some (.ipf f)
  | 0x0B => some (.pin f)
  | 0x0C => some (.unpin f)
  | 0x10 => some (.wait f)
  | 0x11 => some (.yield f)
  | 0x12 => some (.bar f)
  | 0x14 => some (.chkt f)
  | 0x15 => some (.trap f)
  | 0x16 => some (.svc f)
  | 0x17 => some (.eret f)
  | 0x18 => some (.exit f)
  | 0x19 => some (.cont f)
  | 0x1A => some (.phbeg f)
  | 0x1B => some (.phsw f)
  | 0x20 => some (if csrNumber f = 0x201 then .uclaim f else .csrr f)
  | 0x21 => some (if csrNumber f = 0x202 then .uret f else if csrNumber f = 0x203 then .ulaunch f
    else if csrNumber f = 0x208 then .userve f else .csrw f)
  | 0x22 => some (.csrs f)
  | 0x23 => some (.csrc f)
  | 0x24 => some (.dload f)
  | 0x25 => some (.ddrop f)
  | 0x26 => some (.tlbinv f)
  | 0x27 => some (.bankmode f)
  | 0x28 => some (.ctxsave f)
  | 0x29 => some (.ctxrest f)
  | 0x2A => some (.halt f)
  | _ => none

/-- The E-class operation of a slot field (R86); none for a reserved unit function. -/
def decodeE (w : Nat) : Option Instr :=
  let f := fieldE w
  match w / 2 ^ 48 % 256 with
  | 0x01 => some (.mma f)
  | 0x02 => some (.mmaz f)
  | 0x03 => some (.mmas f)
  | 0x04 => some (.mmaa f)
  | 0x05 => some (.mmai f)
  | 0x08 => some (.lsl f)
  | 0x09 => some (.tzero f)
  | 0x0A => some (.txp f)
  | 0x0B => some (.tcvt f)
  | 0x0C => some (.t2v f)
  | 0x0D => some (.v2t f)
  | 0x10 => some (.tcopy f)
  | 0x11 => some (.tgath f)
  | 0x12 => some (.tload f)
  | 0x13 => some (.tstore f)
  | _ => none

/-- The width of the slot field of a slot, by its index (R39 Table 1). -/
def slotWidth (slot : Nat) : Nat :=
  match slot with
  | 0 => 40 | 1 => 40 | 2 => 56 | 3 => 56 | 4 => 56 | 5 => 40 | 6 => 48 | 7 => 48 | 8 => 40 | _ => 56

/-- The lowest control-word bit of a slot's field (R39 Table 1). -/
def slotBase (slot : Nat) : Nat :=
  match slot with
  | 0 => 0 | 1 => 40 | 2 => 80 | 3 => 136 | 4 => 192 | 5 => 248 | 6 => 288 | 7 => 336 | 8 => 384 | _ => 424

/-- The class of a slot, in the order S, V, F, M, C, E (R75). -/
def slotClass (slot : Nat) : Nat :=
  match slot with
  | 0 => 0 | 1 => 0 | 2 => 1 | 3 => 1 | 4 => 1 | 5 => 2 | 6 => 3 | 7 => 3 | 8 => 4 | _ => 5

/-- The operation of a slot field in a slot (R39, R41). -/
def decodeSlot (slot w : Nat) : Option Instr :=
  match slot with
  | 0 => decodeS .sa w
  | 1 => decodeS .sb w
  | 2 => decodeV .va w
  | 3 => decodeV .vb w
  | 4 => decodeV .vc w
  | 5 => decodeF w
  | 6 => decodeM .ma w
  | 7 => decodeM .mb w
  | 8 => decodeC w
  | 9 => decodeE w
  | _ => none

/-- The operation of a dictionary container in a slot: the bits above the class width must be zero (R76, R82). -/
def decodeContainer (slot c : Nat) : Option Instr :=
  if c / 2 ^ slotWidth slot % 2 ^ (64 - slotWidth slot) = 0 then decodeSlot slot (c % 2 ^ slotWidth slot) else none

/-- The filter on a container (R82, R395): the operation, or nothing for a bad entry. -/
def filterContainer (k : CoreKind) (priv : Bool) (slot c : Nat) : Option Instr :=
  match decodeContainer slot c with
  | some i => if wellFormed k priv i then some i else none
  | none => none

/-- The unit function of a container in a slot, which ILLEGAL_CW reports (R74). -/
def containerUf (slot c : Nat) : Nat := c / 2 ^ (slotWidth slot - 8) % 256

/-! The stream (R67 to R74). -/

/-- What the bytes at a bundle's address decode to (R73 steps 1 to 5). -/
inductive StreamDecode where
  /-- A byte beyond those at hand is needed. -/
  | short
  /-- ILLEGAL_STREAM with its subcode, slot and token index (R74 Table 2). -/
  | bad (subcode slot index : Nat)
  /-- An idle bundle: its cycles, its padding bytes, SAFE, and its length in bytes (R70). -/
  | idle (count pad : Nat) (safe : Bool) (length : Nat)
  /-- A bundle: the index of each present slot, the immediates as stored, IMMW, SAFE, and its length in bytes. -/
  | bundle (tokens : List (Nat × Nat)) (imms : List Nat) (immw safe : Bool) (length : Nat)
deriving DecidableEq, Repr

/-- One index token (R69): the index, and the bytes after it. -/
inductive TokenDecode where
  | short
  | reserved
  | token (index : Nat) (used : Nat) (rest : List Byte)
deriving DecidableEq, Repr

/-- Read one token (R69). -/
def decodeToken (bs : List Byte) : TokenDecode :=
  match bs with
  | [] => .short
  | b :: rest =>
    if b.toNat < 0x80 then .token b.toNat 1 rest
    else if b.toNat < 0xC0 then
      match rest with
      | [] => .short
      | l :: rest => .token ((b.toNat - 0x80) * 256 + l.toNat) 2 rest
    else .reserved

/-- A little-endian value of n bytes, and the bytes after it; none where there are too few. -/
def takeValue : Nat → List Byte → Option (Nat × List Byte)
  | 0, bs => some (0, bs)
  | _ + 1, [] => none
  | n + 1, b :: bs =>
    match takeValue n bs with
    | some (v, rest) => some (b.toNat + 256 * v, rest)
    | none => none

/-- n immediates of size bytes each (R68). -/
def takeImms (size : Nat) : Nat → List Byte → Option (List Nat)
  | 0, _ => some []
  | n + 1, bs =>
    match takeValue size bs with
    | some (v, rest) =>
      match takeImms size n rest with
      | some l => some (v :: l)
      | none => none
    | none => none

/-- The tokens of the present slots from slot on, n slots to go (R73 step 4): the outcome so far is passed on as the
continuation's argument list, tokens and bytes used. -/
def takeTokens (count : Nat → Nat) (pres : Nat) : Nat → Nat → List Byte → Nat →
    Sum StreamDecode (List (Nat × Nat) × Nat × List Byte)
  | 0, _, bs, used => .inr ([], used, bs)
  | n + 1, slot, bs, used =>
    if pres.testBit slot then
      match decodeToken bs with
      | .short => .inl .short
      | .reserved => .inl (.bad 2 slot 0)
      | .token i u rest =>
        if count (slotClass slot) ≤ i then .inl (.bad 3 slot i)
        else
          match takeTokens count pres n (slot + 1) rest (used + u) with
          | .inl r => .inl r
          | .inr (l, used, rest) => .inr ((slot, i) :: l, used, rest)
    else takeTokens count pres n (slot + 1) bs used

/-- Decode of the bytes at a bundle's address (R67 to R71, R73 steps 1 to 5); count gives the declared entry count of
each class of the bound dictionary. -/
def decodeStream (count : Nat → Nat) (bs : List Byte) : StreamDecode :=
  match bs with
  | b0 :: b1 :: rest =>
    let head := b0.toNat + 256 * b1.toNat
    let pres := head % 1024
    let nimm := head / 1024 % 4
    let safe := head.testBit 12
    let immw := head.testBit 13
    if head / 16384 ≠ 0 then .bad 0 15 0
    else if pres = 0 then
      if immw then .bad 1 15 0
      else
        match rest with
        | [] => .short
        | c :: rest => if rest.length < nimm then .short else .idle (c.toNat + 1) nimm safe (3 + nimm)
    else
      match takeTokens count pres 10 0 rest 0 with
      | .inl r => r
      | .inr (tokens, used, rest) =>
        let size := if immw then 8 else 4
        match takeImms size nimm rest with
        | none => .short
        | some imms => .bundle tokens imms immw safe (2 + used + nimm * size)
  | _ => .short

/-! The encoder. -/

/-- An S-class slot field (R41 Table 2). -/
def bitsS (uf : Nat) (f : FieldS) : Nat :=
  uf * 2 ^ 32 + f.ws.toNat * 2 ^ 31 + f.dst.toNat * 2 ^ 26 + f.opa.toNat * 2 ^ 20 + f.opb.toNat * 2 ^ 14
    + f.pf.toNat * 2 ^ 10 + f.pn.toNat * 2 ^ 9 + f.aux.toNat

/-- A V-class slot field (R41 Table 2). -/
def bitsV (uf : Nat) (f : FieldV) : Nat :=
  uf * 2 ^ 48 + f.ws.toNat * 2 ^ 47 + f.dst.toNat * 2 ^ 43 + f.opa.toNat * 2 ^ 37 + f.opb.toNat * 2 ^ 31
    + f.opc.toNat * 2 ^ 25 + f.pf.toNat * 2 ^ 21 + f.pn.toNat * 2 ^ 20 + f.ks.toNat * 2 ^ 17
    + f.rb.toNat * 2 ^ 13 + f.rn.toNat * 2 ^ 9 + f.et.toNat * 2 ^ 6 + f.aux.toNat

/-- An F-class slot field (R41 Table 2). -/
def bitsF (uf : Nat) (f : FieldF) : Nat :=
  uf * 2 ^ 32 + f.ws.toNat * 2 ^ 31 + f.dst.toNat * 2 ^ 26 + f.opa.toNat * 2 ^ 20 + f.opb.toNat * 2 ^ 14
    + f.pf.toNat * 2 ^ 10 + f.pn.toNat * 2 ^ 9 + f.aux.toNat

/-- An M-class slot field (R41 Table 2). -/
def bitsM (uf : Nat) (f : FieldM) : Nat :=
  uf * 2 ^ 40 + f.ws.toNat * 2 ^ 39 + f.dst.toNat * 2 ^ 34 + f.opa.toNat * 2 ^ 28 + f.opb.toNat * 2 ^ 22
    + f.pf.toNat * 2 ^ 18 + f.pn.toNat * 2 ^ 17 + f.sc.toNat * 2 ^ 14 + f.sz.toNat * 2 ^ 11
    + f.ks.toNat * 2 ^ 8 + f.aux.toNat

/-- A C-class slot field (R41 Table 2). -/
def bitsC (uf : Nat) (f : FieldC) : Nat :=
  uf * 2 ^ 32 + f.ws.toNat * 2 ^ 31 + f.dst.toNat * 2 ^ 26 + f.opa.toNat * 2 ^ 20 + f.pf.toNat * 2 ^ 16
    + f.pn.toNat * 2 ^ 15 + f.aux.toNat

/-- An E-class slot field (R41 Table 2). -/
def bitsE (uf : Nat) (f : FieldE) : Nat :=
  uf * 2 ^ 48 + f.beats.toNat * 2 ^ 40 + f.td.toNat * 2 ^ 35 + f.ta.toNat * 2 ^ 30 + f.sl.toNat * 2 ^ 27
    + f.ops.toNat * 2 ^ 21 + f.pf.toNat * 2 ^ 17 + f.pn.toNat * 2 ^ 16 + f.aux.toNat

/-- The index of a scalar slot. -/
def SlotS.index : SlotS → Nat
  | .sa => 0
  | .sb => 1

/-- The index of a vector slot. -/
def SlotV.index : SlotV → Nat
  | .va => 2
  | .vb => 3
  | .vc => 4

/-- The index of a memory slot. -/
def SlotM.index : SlotM → Nat
  | .ma => 6
  | .mb => 7

/-- The slot and the slot field of an operation (R39, R86); nothing for an idle bundle or an event, which no slot
carries. -/
def encode : Instr → Option (Nat × Nat)
  | .add u f => some (u.index, bitsS 0x01 f)
  | .sub u f => some (u.index, bitsS 0x02 f)
  | .addw u f => some (u.index, bitsS 0x03 f)
  | .subw u f => some (u.index, bitsS 0x04 f)
  | .and u f => some (u.index, bitsS 0x05 f)
  | .or u f => some (u.index, bitsS 0x06 f)
  | .xor u f => some (u.index, bitsS 0x07 f)
  | .andn u f => some (u.index, bitsS 0x08 f)
  | .orn u f => some (u.index, bitsS 0x09 f)
  | .xnor u f => some (u.index, bitsS 0x0A f)
  | .shl u f => some (u.index, bitsS 0x0B f)
  | .shr u f => some (u.index, bitsS 0x0C f)
  | .sar u f => some (u.index, bitsS 0x0D f)
  | .rotl u f => some (u.index, bitsS 0x0E f)
  | .rotr u f => some (u.index, bitsS 0x0F f)
  | .mul u f => some (u.index, bitsS 0x10 f)
  | .mulh u f => some (u.index, bitsS 0x11 f)
  | .mulhu u f => some (u.index, bitsS 0x12 f)
  | .mulw u f => some (u.index, bitsS 0x13 f)
  | .div u f => some (u.index, bitsS 0x14 f)
  | .divu u f => some (u.index, bitsS 0x15 f)
  | .rem u f => some (u.index, bitsS 0x16 f)
  | .remu u f => some (u.index, bitsS 0x17 f)
  | .divw u f => some (u.index, bitsS 0x18 f)
  | .remw u f => some (u.index, bitsS 0x19 f)
  | .min u f => some (u.index, bitsS 0x1A f)
  | .max u f => some (u.index, bitsS 0x1B f)
  | .minu u f => some (u.index, bitsS 0x1C f)
  | .maxu u f => some (u.index, bitsS 0x1D f)
  | .clz u f => some (u.index, bitsS 0x1E f)
  | .ctz u f => some (u.index, bitsS 0x1F f)
  | .popc u f => some (u.index, bitsS 0x20 f)
  | .bswap u f => some (u.index, bitsS 0x21 f)
  | .sext u f => some (u.index, bitsS 0x22 f)
  | .zext u f => some (u.index, bitsS 0x23 f)
  | .mov u f => some (u.index, bitsS 0x24 f)
  | .pack u f => some (u.index, bitsS 0x25 f)
  | .sel u f => some (u.index, bitsS 0x26 f)
  | .cmp u f => some (u.index, bitsS 0x27 f)
  | .lea u f => some (u.index, bitsS 0x28 f)
  | .flset u f => some (u.index, bitsS 0x29 f)
  | .flget u f => some (u.index, bitsS 0x2A f)
  | .ident u f => some (u.index, bitsS 0x2B f)
  | .vget u f => some (u.index, bitsS 0x2C f)
  | .kget u f => some (u.index, bitsS 0x2D f)
  | .kset u f => some (u.index, bitsS 0x2E f)
  | .vadd u f => some (u.index, bitsV 0x01 f)
  | .vsub u f => some (u.index, bitsV 0x02 f)
  | .vmul u f => some (u.index, bitsV 0x03 f)
  | .vmulh u f => some (u.index, bitsV 0x04 f)
  | .vfma u f => some (u.index, bitsV 0x05 f)
  | .vfms u f => some (u.index, bitsV 0x06 f)
  | .vfnma u f => some (u.index, bitsV 0x07 f)
  | .vdiv u f => some (u.index, bitsV 0x08 f)
  | .vrem u f => some (u.index, bitsV 0x09 f)
  | .vmin u f => some (u.index, bitsV 0x0A f)
  | .vmax u f => some (u.index, bitsV 0x0B f)
  | .vabs u f => some (u.index, bitsV 0x0C f)
  | .vneg u f => some (u.index, bitsV 0x0D f)
  | .vsadd u f => some (u.index, bitsV 0x0E f)
  | .vssub u f => some (u.index, bitsV 0x0F f)
  | .vand u f => some (u.index, bitsV 0x10 f)
  | .vor u f => some (u.index, bitsV 0x11 f)
  | .vxor u f => some (u.index, bitsV 0x12 f)
  | .vandn u f => some (u.index, bitsV 0x13 f)
  | .vnot u f => some (u.index, bitsV 0x14 f)
  | .vshl u f => some (u.index, bitsV 0x15 f)
  | .vshr u f => some (u.index, bitsV 0x16 f)
  | .vsar u f => some (u.index, bitsV 0x17 f)
  | .vcmp u f => some (u.index, bitsV 0x18 f)
  | .vsel u f => some (u.index, bitsV 0x19 f)
  | .vcvt u f => some (u.index, bitsV 0x1A f)
  | .vpack u f => some (u.index, bitsV 0x1B f)
  | .vunpk u f => some (u.index, bitsV 0x1C f)
  | .vdot4 u f => some (u.index, bitsV 0x1D f)
  | .vdot2 u f => some (u.index, bitsV 0x1E f)
  | .vclz u f => some (u.index, bitsV 0x1F f)
  | .vpopc u f => some (u.index, bitsV 0x20 f)
  | .vrotr u f => some (u.index, bitsV 0x28 f)
  | .vbcr u f => some (u.index, bitsV 0x29 f)
  | .vredr u f => some (u.index, bitsV 0x2A f)
  | .vscanr u f => some (u.index, bitsV 0x2B f)
  | .vshuf u f => some (u.index, bitsV 0x2C f)
  | .vvote u f => some (u.index, bitsV 0x2D f)
  | .vrotc u f => some (u.index, bitsV 0x30 f)
  | .vbcc u f => some (u.index, bitsV 0x31 f)
  | .vredc u f => some (u.index, bitsV 0x32 f)
  | .vscanc u f => some (u.index, bitsV 0x33 f)
  | .vmov u f => some (u.index, bitsV 0x38 f)
  | .vput u f => some (u.index, bitsV 0x39 f)
  | .viota u f => some (u.index, bitsV 0x3A f)
  | .vkmov u f => some (u.index, bitsV 0x3B f)
  | .rcp f => some (5, bitsF 0x01 f)
  | .rsq f => some (5, bitsF 0x02 f)
  | .sqrt f => some (5, bitsF 0x03 f)
  | .exp2 f => some (5, bitsF 0x04 f)
  | .log2 f => some (5, bitsF 0x05 f)
  | .sinp f => some (5, bitsF 0x06 f)
  | .cosp f => some (5, bitsF 0x07 f)
  | .tanh f => some (5, bitsF 0x08 f)
  | .sigm f => some (5, bitsF 0x09 f)
  | .bnet f => some (5, bitsF 0x10 f)
  | .pdep f => some (5, bitsF 0x11 f)
  | .pext f => some (5, bitsF 0x12 f)
  | .bperm f => some (5, bitsF 0x13 f)
  | .gfmm f => some (5, bitsF 0x14 f)
  | .keccak f => some (5, bitsF 0x15 f)
  | .crcc f => some (5, bitsF 0x16 f)
  | .ld u f => some (u.index, bitsM 0x01 f)
  | .st u f => some (u.index, bitsM 0x02 f)
  | .vld u f => some (u.index, bitsM 0x03 f)
  | .vst u f => some (u.index, bitsM 0x04 f)
  | .vgat u f => some (u.index, bitsM 0x05 f)
  | .vsct u f => some (u.index, bitsM 0x06 f)
  | .lds u f => some (u.index, bitsM 0x07 f)
  | .sts u f => some (u.index, bitsM 0x08 f)
  | .vlds u f => some (u.index, bitsM 0x09 f)
  | .vsts u f => some (u.index, bitsM 0x0A f)
  | .vgats u f => some (u.index, bitsM 0x0B f)
  | .vscts u f => some (u.index, bitsM 0x0C f)
  | .amo u f => some (u.index, bitsM 0x10 f)
  | .vamo u f => some (u.index, bitsM 0x11 f)
  | .red u f => some (u.index, bitsM 0x12 f)
  | .vred u f => some (u.index, bitsM 0x13 f)
  | .popq u f => some (u.index, bitsM 0x14 f)
  | .fence u f => some (u.index, bitsM 0x18 f)
  | .pref u f => some (u.index, bitsM 0x19 f)
  | .waita u f => some (u.index, bitsM 0x1A f)
  | .qpush u f => some (u.index, bitsM 0x1C f)
  | .qpop u f => some (u.index, bitsM 0x1D f)
  | .cspush u f => some (u.index, bitsM 0x20 f)
  | .cspop u f => some (u.index, bitsM 0x21 f)
  | .cacheop u f => some (u.index, bitsM 0x24 f)
  | .br f => some (8, bitsC 0x01 f)
  | .brf f => some (8, bitsC 0x02 f)
  | .brnf f => some (8, bitsC 0x03 f)
  | .jr f => some (8, bitsC 0x04 f)
  | .call f => some (8, bitsC 0x05 f)
  | .ret f => some (8, bitsC 0x06 f)
  | .loop f => some (8, bitsC 0x08 f)
  | .lexit f => some (8, bitsC 0x09 f)
  | .ipf f => some (8, bitsC 0x0A f)
  | .pin f => some (8, bitsC 0x0B f)
  | .unpin f => some (8, bitsC 0x0C f)
  | .wait f => some (8, bitsC 0x10 f)
  | .yield f => some (8, bitsC 0x11 f)
  | .bar f => some (8, bitsC 0x12 f)
  | .chkt f => some (8, bitsC 0x14 f)
  | .trap f => some (8, bitsC 0x15 f)
  | .svc f => some (8, bitsC 0x16 f)
  | .eret f => some (8, bitsC 0x17 f)
  | .exit f => some (8, bitsC 0x18 f)
  | .cont f => some (8, bitsC 0x19 f)
  | .phbeg f => some (8, bitsC 0x1A f)
  | .phsw f => some (8, bitsC 0x1B f)
  | .csrr f => some (8, bitsC 0x20 f)
  | .csrw f => some (8, bitsC 0x21 f)
  | .csrs f => some (8, bitsC 0x22 f)
  | .csrc f => some (8, bitsC 0x23 f)
  | .dload f => some (8, bitsC 0x24 f)
  | .ddrop f => some (8, bitsC 0x25 f)
  | .tlbinv f => some (8, bitsC 0x26 f)
  | .bankmode f => some (8, bitsC 0x27 f)
  | .ctxsave f => some (8, bitsC 0x28 f)
  | .ctxrest f => some (8, bitsC 0x29 f)
  | .halt f => some (8, bitsC 0x2A f)
  | .mma f => some (9, bitsE 0x01 f)
  | .mmaz f => some (9, bitsE 0x02 f)
  | .mmas f => some (9, bitsE 0x03 f)
  | .mmaa f => some (9, bitsE 0x04 f)
  | .mmai f => some (9, bitsE 0x05 f)
  | .lsl f => some (9, bitsE 0x08 f)
  | .tzero f => some (9, bitsE 0x09 f)
  | .txp f => some (9, bitsE 0x0A f)
  | .tcvt f => some (9, bitsE 0x0B f)
  | .t2v f => some (9, bitsE 0x0C f)
  | .v2t f => some (9, bitsE 0x0D f)
  | .tcopy f => some (9, bitsE 0x10 f)
  | .tgath f => some (9, bitsE 0x11 f)
  | .tload f => some (9, bitsE 0x12 f)
  | .tstore f => some (9, bitsE 0x13 f)
  | .uclaim f => some (8, bitsC 0x20 f)
  | .uret f => some (8, bitsC 0x21 f)
  | .ulaunch f => some (8, bitsC 0x21 f)
  | .userve f => some (8, bitsC 0x21 f)
  | .idle _ _ => none
  | .evContextSelect _ => none
  | .evFairnessSwitch _ => none
  | .evForcedSwitch _ => none
  | .evTrapEntry _ => none
  | .evDebugStop _ => none
  | .evContextDone _ => none
  | .evGroupEnd _ => none
  | .evGroupPlace _ => none
  | .evSteal _ => none
  | .evPreempt _ => none
  | .evResumption _ _ => none
  | .evPendingAccessComplete _ _ => none
  | .evTurnEnd _ => none
  | .evDictionaryRefill _ => none
  | .evWalkComplete _ => none
  | .evDlqArrival _ _ => none
  | .evStorePerformed _ => none
  | .evVectorAccessComplete _ _ => none
  | .evAccessFailure _ _ _ => none
  | .evWatchFire _ _ => none
  | .evTlbinvComplete _ => none
  | .evBankSwitchComplete _ => none
  | .evCacheopComplete _ => none
  | .evCtxImageComplete _ => none
  | .evLtsAdvance _ _ => none
  | .evBackInvalidation _ _ => none
  | .evOverrunRollback _ => none
  | .evPhaseCancel _ => none
  | .evPhaseRefetchComplete _ => none
  | .evContainedFault _ => none
  | .evRendezvousTimeout _ _ => none
  | .evDivergedStateEnd _ _ => none
  | .evCanopyStart _ => none
  | .evCanopyComplete _ _ => none
  | .evCanopyFault _ => none
  | .evCopyStart _ => none
  | .evCopyComplete _ _ => none
  | .evCopyFault _ _ => none
  | .evGovernorSample _ => none
  | .evNotify _ _ => none
  | .evQueueResume _ => none
  | .evQueueEnable _ => none
  | .evQueueDisable _ => none
  | .evInvoke _ => none
  | .evDispatch _ => none
  | .evCopyPacket _ _ => none
  | .evSignalPacket _ => none
  | .evWaitPacket _ => none
  | .evBarrierAnd _ => none
  | .evContinue _ => none
  | .evAdapterHint _ => none
  | .evQueueUnblock _ => none
  | .evWaitTimeout _ => none
  | .evCommandComplete _ => none
  | .evFaultResume _ _ => none
  | .evFaultCancel _ _ => none
  | .evFaultRelease _ _ => none
  | .evTrcbaseWrite _ _ => none
  | .evDebugHalt _ _ => none
  | .evDebugRelease _ _ => none
  | .evDump _ _ => none
  | .evLoad _ _ => none
  | .evStopq _ _ => none
  | .evGoq _ _ => none
  | .evStepq _ _ => none
  | .evTraceSample _ => none
  | .evTblcmd _ => none
  | .evTableUpdate => none
  | .evMailboxExtend _ _ => none
  | .evRegisterWrite _ _ => none
  | .evGetVersion _ => none
  | .evGetCapabilities _ => none
  | .evNegotiateAlgorithms _ => none
  | .evGetDigests _ => none
  | .evGetCertificate _ => none
  | .evChallenge _ => none
  | .evGetMeasurements _ => none
  | .evKeyExchange _ => none
  | .evFinish _ => none
  | .evEndSession _ => none
  | .evIdeKm _ => none
  | .evUnsupportedRequest _ => none
  | .evPackageReset => none
  | .evSecurityFailover => none
  | .evReadySet _ _ => none
  | .evClusterFail _ => none
  | .evDieLost _ => none
  | .evRootPortLinkDown _ => none
  | .evLinkRecoveryTimeout _ => none
  | .evLinkRetrain _ => none
  | .evPoolRegionLostReport _ => none
  | .evHostLinkDown => none
  | .evHostHdmAccess _ => none
  | .evRideFlit _ => none
  | .evRideRailLost _ _ => none
  | .evInstructionCacheFill _ => none
  | .evRidePortReturn _ => none
  | .evHostLinkRetrain => none
  | .evUnitFail _ _ => none

/-- The bytes of an idle bundle (R70). -/
def encodeIdle (count pad : Nat) (safe : Bool) : List Byte :=
  [0, BitVec.ofNat 8 (pad * 4 + (if safe then 16 else 0)), BitVec.ofNat 8 (count - 1)] ++ List.replicate pad 0

/-- The slots whose field of a 480-bit control word is not the null field, with their operations. -/
def wordSlots (w : Nat) : List (Nat × Option Instr) :=
  (List.range 10).filterMap fun slot =>
    let x := w / 2 ^ slotBase slot % 2 ^ slotWidth slot
    if x = 0 then none else some (slot, decodeSlot slot x)

/-- The instruction of a control word that holds one slot field (R39): the opcode table gives its rows no bits, so the
word is read as the 480-bit control word, whose bits the spec numbers from bit 0 of SA on. nbits is not needed: every bit
above it is 0. -/
def decodeTableWord (_nbits w : Nat) : Option Instr :=
  match wordSlots w with
  | [(_, i)] => i
  | _ => none

end Sys2Proof
end

