-- ==== Sys2Proof/Machine/Memory.lean ====
section
/-! DEFINITION. Memory as one list of cells in canonical form, and the keys of its planes: the four tiers and the pool
devices behind them (R273, R405), the scratchpad banks (R266) and the tile registers (R181). -/

namespace Sys2Proof.Machine

/-- Memory: cells of strictly rising address, none of them equal to what an unlisted address reads as, 0
(DESIGN CHOICE, notes/assumptions/4.md). -/
abbrev Memory := List Host.Cell

/-- The byte at an address; 0 where nothing is listed (DESIGN CHOICE, notes/assumptions/4.md). -/
def memGet : Memory → Nat → Byte
  | [], _ => 0
  | (k, b) :: m, a => if a = k then b else if a < k then 0 else memGet m a

/-- Memory with one byte written, in canonical form. -/
def memPut : Memory → Nat → Byte → Memory
  | [], a, b => if b = 0 then [] else [(a, b)]
  | (k, c) :: m, a, b =>
    if a = k then (if b = 0 then m else (a, b) :: m)
    else if a < k then (if b = 0 then (k, c) :: m else (a, b) :: (k, c) :: m)
    else (k, c) :: memPut m a b

/-- The canonical form from an address on. -/
def Memory.wfFrom : Memory → Nat → Bool
  | [], _ => true
  | (k, b) :: m, lo => decide (lo ≤ k) && decide (b ≠ 0) && Memory.wfFrom m (k + 1)

/-- The canonical form: addresses strictly rising, no cell that reads as an unlisted one. -/
def Memory.wf (m : Memory) : Bool := Memory.wfFrom m 0

/-- The n bytes from an address on, lowest address first. -/
def memGetBytes (m : Memory) : Nat → Nat → List Byte
  | _, 0 => []
  | a, n + 1 => memGet m a :: memGetBytes m (a + 1) n

/-- Memory with bytes written from an address on. -/
def memPutBytes : Memory → Nat → List Byte → Memory
  | m, _, [] => m
  | m, a, b :: bs => memPutBytes (memPut m a b) (a + 1) bs

/-- Memory with the cells from lo on, n of them, forgotten: they read 0 again. -/
def memClear (m : Memory) (lo n : Nat) : Memory := m.filter fun c => decide (c.1 < lo) || decide (lo + n ≤ c.1)

/-- The cells from lo on, n of them, counted from lo. -/
def memSlice (m : Memory) (lo n : Nat) : List (Nat × Byte) :=
  (m.filter fun c => decide (lo ≤ c.1) && decide (c.1 < lo + n)).map fun c => (c.1 - lo, c.2)

/-- Memory with saved cells put back at lo. -/
def memRestore : Memory → Nat → List (Nat × Byte) → Memory
  | m, _, [] => m
  | m, lo, (o, b) :: l => memRestore (memPut m (lo + o) b) lo l

/-- The key of a tier address (R273): tiers 0, 1 and 3. -/
def tierKey (tier addr : Nat) : Nat := 2 ^ 80 * tier + addr
/-- The key of a host physical address behind a root port (R405). -/
def poolKey (port hpa : Nat) : Nat := 2 ^ 80 * (8 + port) + hpa
/-- The key of a pool line's copy that the device holds modified and has not written back (R388).
(DESIGN CHOICE, notes/assumptions/34.md) -/
def modifiedKey (key : Nat) : Nat := key + 2 ^ 80 * 16
/-- The key of a byte of a cluster's bank (R266). -/
def bankKey (cluster bank off : Nat) : Nat := 2 ^ 80 * 40 + cluster * 2 ^ 23 + bank * 2 ^ 19 + off
/-- The key of a byte of a cluster's physical tile (R181). -/
def tileKey (cluster tile off : Nat) : Nat := 2 ^ 80 * 41 + cluster * 2 ^ 20 + tile * 2 ^ 15 + off
/-- The plane of a key: 0, 1, 3 the tiers, 8 to 15 the pool devices, 40 the banks, 41 the tiles. -/
def planeOf (key : Nat) : Nat := key / 2 ^ 80
/-- The address of a key within its plane. -/
def planeAddr (key : Nat) : Nat := key % 2 ^ 80
/-- The 64-byte line of a key. -/
def lineOf (key : Nat) : Nat := key / 64

end Sys2Proof.Machine
end

