-- ==== Sys2Proof/Machine/Map.lean ====
section
/-! DEFINITION. Sparse maps: lists of key and value with strictly rising keys. -/

namespace Sys2Proof.Machine

/-- A sparse map from natural numbers: pairs in strictly rising order of keys. -/
abbrev SMap (α : Type) := List (Nat × α)

/-- The value at a key. -/
def mapGet? {α : Type} : SMap α → Nat → Option α
  | [], _ => none
  | (k, a) :: m, n => if n = k then some a else mapGet? m n

/-- The value at a key, or a default. -/
def mapGet {α : Type} (m : SMap α) (d : α) (n : Nat) : α := (mapGet? m n).getD d

/-- The map with the value at a key replaced. -/
def mapSet {α : Type} : SMap α → Nat → α → SMap α
  | [], n, b => [(n, b)]
  | (k, a) :: m, n, b =>
    if n = k then (n, b) :: m else if n < k then (n, b) :: (k, a) :: m else (k, a) :: mapSet m n b

/-- The map without a key. -/
def mapErase {α : Type} (m : SMap α) (n : Nat) : SMap α := m.filter fun x => x.1 ≠ n

end Sys2Proof.Machine
end

