-- ==== Sys2Proof/Machine/State.lean ====
section
/-! DEFINITION. The state of the machine as plain data, holding every piece of state that the spec gives it (see
INVENTORY.md), and the machine right after reset. -/

namespace Sys2Proof.Machine

/-! ## In-flight work of a context (R55 to R59) -/

/-- What an issued operation writes when a result lands. Masks say which lanes, bits or flags are written. -/
inductive Landing where
  /-- A scalar register. -/
  | scalar (reg : Nat) (value : W64)
  /-- The lanes of one row of a vector register. -/
  | vrow (reg row : Nat) (mask : W64) (value : Row)
  /-- The lanes of a mask register. -/
  | kmask (reg : Nat) (mask value : W64)
  /-- The flag bits of FL. -/
  | flags (mask value : BitVec 16)
  /-- The scalar part of a slot latch: 0 SA, 1 SB, 2 FN, 3 MA, 4 MB. -/
  | latchS (latch : Nat) (value : W64)
  /-- One row of the vector part of a slot latch: 0 VA, 1 VB, 2 VC, 3 FN, 4 MA, 5 MB. -/
  | latchV (latch row : Nat) (value : Row)
  /-- Sticky status bits (R100), and the slot that raised them. -/
  | status (slot : Nat) (bits : BitVec 8)
  /-- A CSR write taking effect (R250). -/
  | csr (number : Nat) (value : W64)
  /-- One row of a scratchpad vector store: its place in program order, element addresses and their bytes (R287). -/
  | spadRow (order : Nat) (elements : List (Nat × List Byte))
  /-- A queue event: a flag of another context of the group (R326). -/
  | notify (ctx flag : Nat)
deriving DecidableEq, Repr

/-- A result in flight: the first cycle at which a reading bundle sees it, the cycle and slot of the operation that
produces it, and the lanes, bits or flags that an operation issued later writes no later than it does (R56, R57); a scalar
register and a latch stand as bit 0. -/
structure Pending where
  due : Nat
  issued : Nat
  slot : Nat
  contested : W64
  what : Landing
deriving DecidableEq, Repr

/-- A vector source as resolved at issue: a register, a latch, or one row that stands for every window row. -/
inductive VSource where
  | reg (v : Nat)
  | latch (l : Nat)
  | same (r : Row)
deriving DecidableEq, Repr

/-- What a vector operation that reads its window row by row writes: result row k once source row k is read, every result row
once the last source row is read (R160), or a mask register then (R142, R145). -/
inductive TaskResult where
  | rows | column | mask
deriving DecidableEq, Repr

/-- A vector operation that still has window rows to read (R55), or a v2t (R231): the cycle at which it reads row k next,
its instruction, window, latency of row k (lat + step × k), what it writes, destination register and WS, what it read at
issue, its sources, the rows it keeps for a result over all rows, the mask result so far, the pattern tables of a bnet, and
the lanes of result rows (of row 0 for a mask register) that writes issued later have overtaken (R56). -/
structure RowTask where
  due : Nat
  issued : Nat
  slot : Nat
  k : Nat
  instr : Instr
  rb : Nat
  rn : Nat
  lat : Nat
  step : Nat
  result : TaskResult
  dst : Nat
  ws : Bool
  inp : VecIn
  srcA : VSource
  srcB : VSource
  srcC : VSource
  kept : List (Row × Row)
  acc : W64
  pat : List W64
  contested : List (Nat × W64)
deriving DecidableEq, Repr

/-- Trap causes (R261 Table 10). -/
inductive Cause where
  | illegalStream | illegalCw | scheduleFault | privilege | formatDiverge | partialMask | misaligned
  | pageFault | accessFault | poison | checkMismatch | software | svc | fpTrap | poolRegionLost
  | queueProtocol | breakpoint | rendezvousTimeout
deriving DecidableEq, Repr

/-- A trap as settled at issue: its cause, the slot at fault (15: none), TVAL, and whether the bundle was decoded, so that
TNPC names the next bundle (R260). -/
structure Trap where
  cause : Cause
  slot : Nat
  tval : W64
  decoded : Bool
deriving DecidableEq, Repr

/-- Why a context is BLOCKED (R26 Table 8). -/
inductive BlockCause where
  | queueEmpty (queue : Nat)
  | streamShort (stream : Nat)
  | queueFull (queue : Nat)
  | streamFull (stream : Nat)
  | continuationFull
  /-- The value of a DLQ entry, named by its number, has not arrived. -/
  | dlqHead (entry : Nat)
  | canopyFull
  | copyFull
  | rendezvous (latch : Nat)
  | wait (mask : BitVec 16) (all : Bool)
  | barrier (barrier generation : Nat)
  | refetch
  /-- A synchronisation event of a kind on an object that is not next in its replay stream (R421). -/
  | replayTurn (kind obj : Nat)
  /-- A context restored BLOCKED from an image: its bundle is evaluated anew at once (R34, R255). -/
  | restored
deriving DecidableEq, Repr

/-- What a context does when its drain ends (R64, R244, R257, R249, R317). -/
inductive Drain where
  | none
  | trap (t : Trap) (pc next : BitVec 57)
  /-- by: 0 a halt instruction, 1 a debugger, 2 a fault of a context that no group holds. -/
  | halt (by_ : Nat)
  | exit
  | cancel (cause : Cause) (address : W64)
  | rollback
  | preempt
deriving DecidableEq, Repr

/-- The states of a context (R25 Table 7). -/
inductive CtxPhase where
  | free | ready | running | blocked | halted | done
deriving DecidableEq, Repr

/-- The eight slot latches (R53 Table 9a): scalar parts of SA, SB, FN, MA, MB and vector parts of VA, VB, VC, FN, MA, MB. -/
structure Latches where
  sc : Vector W64 5
  vec : Vector VReg 6
deriving DecidableEq, Repr

/-- The latches reading zero. -/
def Latches.zero : Latches := { sc := Vector.replicate 5 0, vec := Vector.replicate 6 VReg.zero }

/-! ## Memory accesses of a context -/

/-- A physical place of a byte: the key of the memory map (see Host.Cell memory below), and whether its page is NC (R275). -/
structure Place where
  key : Nat
  nc : Bool
deriving DecidableEq, Repr

/-- One element of a global access: its virtual address, its place, and for stores and atomics its data. -/
structure Element where
  va : W64
  place : Place
  row : Nat
  lane : Nat
  data : W64
deriving DecidableEq, Repr

/-- What a queued global access does when it is performed. -/
inductive AccessKind where
  /-- ld (R283): the DLQ entry it fills, sign extension. -/
  | load (entry : Nat) (signed : Bool)
  /-- st (R283). -/
  | store
  /-- amo (R304): the DLQ entry, the operation, the new value of cas. -/
  | amo (entry : Nat) (op : Nat) (new : W64)
  /-- red (R305): the operation. -/
  | red (op : Nat)
  /-- vld and vgat (R285, R286): destination register, completion flag. -/
  | vload (reg flag : Nat)
  /-- vst and vsct: completion flag. -/
  | vstore (flag : Nat)
  /-- vamo (R306): destination register, whether it is written, vector operation, completion flag. -/
  | vamo (reg : Nat) (write : Bool) (op flag : Nat)
  /-- vred (R306): vector operation, completion flag. -/
  | vred (op flag : Nat)
deriving DecidableEq, Repr

/-- A global access that has issued and is not yet performed: a number of its own, the cycle of its core in which it issued,
whether it holds an entry of the store queue (R322), what it does, its element size in bytes, scope and ordering, and the
elements still to be performed, in order; and the first element that has failed while others waited for their turn in a replay
(R421): whether it was lost, and its address. -/
structure Access where
  id : Nat
  issued : Nat
  stored : Bool
  kind : AccessKind
  size : Nat
  scope : Nat
  ord : Nat
  elements : List Element
  failed : Option (Bool × W64) := none
deriving DecidableEq, Repr

/-- The fate of a DLQ entry (R322 Table 1). -/
inductive DlqFate where
  | waiting | ready | poisoned | lost
deriving DecidableEq, Repr

/-- A DLQ entry (R322): the number that links it to its access, its value (or the address of a failed access), its fate. -/
structure DlqEntry where
  id : Nat
  value : W64
  fate : DlqFate
deriving DecidableEq, Repr

/-- An armed watch (R289 Table 9): flag, virtual address, place, size, scope, SP, condition (true: eq), value, and whether a
read has satisfied it. -/
structure Watch where
  flag : Nat
  va : W64
  place : Place
  size : Nat
  scope : Nat
  spad : Bool
  eq : Bool
  value : W64
  hit : Bool
deriving DecidableEq, Repr

/-- Maintenance operations of a context that complete by an event: the operation and the flag it sets. -/
inductive Maintenance where
  /-- tlbinv (R252): mode, slot, address, whole package, flag. -/
  | tlbinv (mode slot : Nat) (address : W64) (package : Bool) (flag : Nat)
  /-- cacheop (R290): operation, start, length, flag. -/
  | cacheop (op : Nat) (address length : W64) (flag : Nat)
  /-- ctxsave (R255): target context, image address, flag. -/
  | ctxsave (target : Nat) (address : W64) (flag : Nat)
  /-- ctxrest (R255): target context, image address, GO, flag. -/
  | ctxrest (target : Nat) (address : W64) (go : Bool) (flag : Nat)
deriving DecidableEq, Repr

/-- The phase of a context (R246 to R249, R377): its descriptor address, output base and length, the opening bundle, the
checkpoint bank it holds, whether it is exposed, its held reductions, and the cycle in which it opened (R384). -/
structure PhaseRecord where
  desc : W64
  base : W64
  length : W64
  opening : BitVec 57
  bank : Option Nat
  exposed : Bool
  held : List Access
  opened : Nat
deriving DecidableEq, Repr

/-- The wait record of a context at a barrier (R312 Table 6). -/
structure BarrierWait where
  barrier : Nat
  generation : Nat
deriving DecidableEq, Repr

/-- The checkpointed state of a context (R254 Table 3, R256 Table 9), with the core cycle in which it was taken. The enabled flags that
had been raised by then and have trapped nothing yet (R101) stand beside it: a rollback of overrun takes them up, so that it changes no
result (R317), and a cancellation does not (R380; DEDUCED, notes/assumptions/45.md). -/
structure Snapshot where
  taken : Nat
  pc : BitVec 57
  s : Vector W64 32
  fl : BitVec 16
  v : Vector VReg 16
  k : Vector W64 8
  csrs : List (Nat × W64)
  dlq : List DlqEntry
  fpPending : Option (BitVec 5 × Nat)
deriving DecidableEq, Repr

/-- A hardware context (R11, R25): the state of R21, R232, R264, R322, R289 and of the rules its fields cite. -/
structure Ctx where
  phase : CtxPhase
  /-- Handle of the group it belongs to. -/
  group : Option Nat
  /-- Position in the group (R20). -/
  pos : Nat
  pc : BitVec 57
  s : Vector W64 32
  fl : BitVec 16
  v : Vector VReg 16
  k : Vector W64 8
  lmask : W64
  vstat : BitVec 13
  frm : BitVec 3
  gang : W64
  /-- DICT (R80): handle and object address. -/
  dictHandle : Nat
  dictObj : Nat
  ba : Vector W64 16
  fmt : Vector W64 16
  ts : Vector W64 32
  adt : W64
  lts : W64
  pmc : Vector W64 16
  /-- PMC0 to PMC15 as they stood at the start of the cycle: what a csrr of the cycle reads (R411). -/
  pmcBefore : Vector W64 16
  /-- PAT0 to PAT7 as the 64 CSR words 0x090 to 0x0CF (R173). -/
  pat : Vector W64 64
  rvto : W64
  /-- RP, a rendezvous passed (R218). -/
  rp : Bool
  tvec : BitVec 57
  tcause : BitVec 12
  tepc : BitVec 57
  tnpc : BitVec 57
  tval : W64
  /-- TSTATUS.U, PU and ND (R264): PHS and OVR are read from the phase and overrun records. -/
  user : Bool
  prevUser : Bool
  nesting : BitVec 2
  tscratch : W64
  /-- UQSEL and USERVE of an Understory context (R452), and the number of its last queue claimed. -/
  uqsel : BitVec 17
  userve : BitVec 8
  shadow : Latches
  /-- Latches that the first bundle after a release or a resumption sees (R34, R257). -/
  restored : Option Latches
  pending : List Pending
  rows : List RowTask
  /-- Enabled flags raised since the last FP_TRAP, and the lowest raising slot (R101). -/
  fpPending : Option (BitVec 5 × Nat)
  drain : Drain
  block : Option BlockCause
  /-- The trap a reissued rendezvous bundle takes (R219, R220). -/
  rendezvousTrap : Option Trap
  /-- The address of the bundle whose rendezvous has passed or failed: RP and rendezvousTrap are that bundle's (R218 to R220;
  DEDUCED, notes/assumptions/54.md). -/
  meetPc : BitVec 57
  /-- The core cycle at which the context became READY, in unfrozen cycles (R29). -/
  readySince : Nat
  /-- TSC when the context became READY: its wait goes on while its core is frozen (R28). -/
  readyAt : Nat
  /-- The core cycle of its first issue since it was last chosen (R29). -/
  firstIssue : Option Nat
  dlq : List DlqEntry
  accesses : List Access
  /-- Rows of vector registers that have landed while an asynchronous write of an earlier bundle to the register was in flight: the
  cycle of issue, register, row and lanes (R56). -/
  landed : List (Nat × Nat × Nat × W64)
  nextAccess : Nat
  watches : List Watch
  maintenance : List Maintenance
  /-- Loop buffer (R232, R234): start, loop-bundle address and end of the captured body; the lock bit. -/
  loopBuf : Option (BitVec 57 × BitVec 57 × BitVec 57)
  loopLock : Bool
  barrierWait : Option BarrierWait
  /-- The checkpoint bank of an overrun under way (R314). -/
  overrun : Option Nat
  /-- The completion timestamp of the barrier whose overrun commits at the end of this cycle (R319, R447). -/
  committing : Option W64
  phaseRec : Option PhaseRecord
  /-- Consecutive cancellations of the current phase (R381). -/
  cancels : Nat
  /-- Entry and argument of its continuation request (R245). -/
  contReq : Option (BitVec 57 × W64)
  /-- The bundle that a debugger release lets pass its breakpoint (R418). -/
  bpExempt : Option (BitVec 57)
  /-- A debugger's HALT that waits for the end of a drain under way (R416). -/
  haltReq : Bool
  /-- TSC at placement, for placement age (R412). -/
  placedAt : Nat
deriving DecidableEq, Repr

/-- The state of a context that no group holds, and of every item at its launch value (R21 Table 6).
(DESIGN CHOICE, notes/assumptions/5.md) -/
def Ctx.launch : Ctx :=
  { phase := .free, group := none, pos := 0, pc := 0, s := Vector.replicate 32 0, fl := 1,
    v := Vector.replicate 16 VReg.zero, k := (Vector.replicate 8 0).set 0 (BitVec.allOnes 64),
    lmask := BitVec.allOnes 64, vstat := 0, frm := 0, gang := 0, dictHandle := 0, dictObj := 0,
    ba := Vector.replicate 16 0, fmt := Vector.replicate 16 0, ts := Vector.replicate 32 0, adt := 0, lts := 0,
    pmc := Vector.replicate 16 0, pmcBefore := Vector.replicate 16 0, pat := Vector.replicate 64 0, rvto := 10000000, rp := false, tvec := 0, tcause := 0,
    tepc := 0, tnpc := 0, tval := 0, user := false, prevUser := false, nesting := 0, tscratch := 0, uqsel := 0,
    userve := 0, shadow := Latches.zero, restored := none, pending := [], rows := [], fpPending := none, drain := .none, block := none,
    rendezvousTrap := none, meetPc := 0, readySince := 0, readyAt := 0, firstIssue := none, dlq := [], accesses := [], landed := [], nextAccess := 0,
    watches := [], maintenance := [], loopBuf := none, loopLock := false, barrierWait := none, overrun := none, committing := none,
    phaseRec := none, cancels := 0, contReq := none, bpExempt := none, haltReq := false, placedAt := 0 }

/-! ## A core (R11) -/

/-- Why a core is frozen (R30): dictionary pages to install for the bundle (R81), translation walks of a vector access
(R279), cycles left of the bank conflicts of a slot (R269), or banks held (R253, R270). -/
inductive FreezeCause where
  | refill (pages : List (Nat × Nat))
  | header (object : Nat)
  | walk (pages : List Nat)
  | conflict (slot cycles : Nat)
  | banks (mask : BitVec 16)
deriving DecidableEq, Repr

/-- A page of a decode table (R78): class, handle, page index, its sixteen containers with their bad flags, first
candidate for eviction (R84), and the free-running count of its last use. -/
structure DecodePage where
  cls : Nat
  handle : Nat
  page : Nat
  entries : List (Nat × Bool)
  dropped : Bool
  used : Nat
deriving DecidableEq, Repr

/-- A dictionary handle (R78 Table 4), with the count of its last binding and whether a dload.obj took it and no context has
bound it since (R79). -/
structure DictHandle where
  object : Nat
  asid : Nat
  counts : List Nat
  pinPages : List Nat
  arrays : List Nat
  priv : Bool
  bound : Nat
  loaded : Bool
deriving DecidableEq, Repr

/-- A line of the instruction cache (R232): ASID slot, line address, whether its bytes are valid (an invalidated line that is
pinned keeps its pins, R233), bytes, and the contexts whose pins it carries. -/
structure CodeLine where
  asid : Nat
  line : Nat
  valid : Bool
  bytes : List Byte
  pins : List Nat
deriving DecidableEq, Repr

/-- The issue stage's control word (R39): address and length of the bundle, SAFE, IMMW, its immediates as stored, and
its operations in slot order. -/
structure IssueBundle where
  pc : BitVec 57
  length : Nat
  safe : Bool
  immw : Bool
  imms : List Nat
  ops : List Instr
deriving DecidableEq, Repr

/-- A slot still occupied (R59): the slot, the first cycle at which it accepts an operation again, and its context. -/
structure Occupied where
  slot : Nat
  free : Nat
  ctx : Nat
deriving DecidableEq, Repr

/-- A store buffered during overrun, in program order, as its access and element (R319). -/
structure BufferedStore where
  spad : Bool
  size : Nat
  key : Nat
  va : W64
  data : W64
  order : Nat
  nc : Bool
deriving DecidableEq, Repr

/-- A checkpoint bank (R254 Table 3): its owner, its snapshot, the buffered stores in program order, the keys loaded from memory
with the place of each in the context's program order (R319), the lines of its read set (exact, then those held only by the filter),
failures held until commit (R320), and TSC of the cycle after it was last freed (R445). -/
structure CheckpointBank where
  owner : Option Nat
  snapshot : Snapshot
  stores : List BufferedStore
  loads : List (Nat × Nat)
  exact : List Nat
  filter : List Nat
  failures : List (Option Nat × Bool × W64)
  freed : Nat
deriving DecidableEq, Repr

/-- An engine command queue entry (R331 Table 6, R212): the command's number in the cluster. -/
abbrev CommandId := Nat

/-- A core (R11): the issue stage, the state of R27 to R30, the decode tables of R78, the instruction cache of R232, the
checkpoint banks of R254 and the engine command queues of R331. -/
structure Core where
  /-- Unfrozen cycles since reset: the cycle in which the next bundle may issue. -/
  lt : Nat
  /-- Frozen cycles since reset (R411). -/
  frozenCycles : Nat
  freeze : Option FreezeCause
  /-- Slots of the current bundle whose bank conflicts have been waited out (R269). -/
  conflictPaid : List Nat
  /-- The context that issues. -/
  running : Option Nat
  /-- The earliest cycle of the next issue (R27, R28, R60). -/
  nextIssue : Nat
  /-- The cycle in which the target of the last taken branch may issue: the two before it are fetch gaps (R60, R62). -/
  gapUntil : Nat
  occupied : List Occupied
  lat : Latches
  bundle : Option IssueBundle
  /-- Pages whose walk has ended for the bundle held or frozen (R279): virtual page numbers. -/
  walked : List Nat
  /-- Pages whose walks the bundle waits for in a fetch gap (R279). -/
  walking : List Nat
  /-- Fetch failures found for lines of the next bundle: the line, the cause, the failing address (R72). -/
  fetchFaults : List (Nat × Cause × Nat)
  /-- A refill failure found for a bundle: cause and failing address (R81). -/
  refillFault : Option (Cause × Nat)
  pages : List DecodePage
  handles : List (Option DictHandle)
  /-- Pages queued by dload and by pins (R83, R251): region, handle, class, page. -/
  refillQueue : List (Nat × Nat × Nat × Nat)
  icache : List CodeLine
  banks : List CheckpointBank
  canopyQueue : List CommandId
  copyQueue : List CommandId
  /-- Last queue claimed by an Understory core's UCLAIM (R356). -/
  claimed : Nat
  uses : Nat
deriving DecidableEq, Repr

/-- A checkpoint bank that no context holds. -/
def CheckpointBank.empty : CheckpointBank :=
  { owner := none,
    snapshot := { taken := 0, pc := 0, s := Vector.replicate 32 0, fl := 1, v := Vector.replicate 16 VReg.zero,
                  k := Vector.replicate 8 0, csrs := [], dlq := [], fpPending := none },
    stores := [], loads := [], exact := [], filter := [], failures := [], freed := 0 }

/-- A core at reset. -/
def Core.initial : Core :=
  { lt := 0, frozenCycles := 0, freeze := none, conflictPaid := [], running := none, nextIssue := 0, gapUntil := 0, occupied := [],
    lat := Latches.zero, bundle := none, walked := [], walking := [], fetchFaults := [], refillFault := none,
    pages := [], handles := List.replicate 8 none, refillQueue := [], icache := [],
    banks := List.replicate 2 CheckpointBank.empty, canopyQueue := [], copyQueue := [], claimed := 0, uses := 0 }

/-! ## Groups (R17 to R24) -/

/-- A group declaration (R17, R349): contexts, scratchpad banks, FIFO banks, barriers, named queues, rendezvous latches. -/
structure Decl where
  n : Nat
  b : Nat
  q : Nat
  barriers : Nat
  queues : Nat
  latches : Nat
deriving DecidableEq, Repr

/-- A barrier (R312 Table 6). -/
structure Barrier where
  count : Nat
  arrived : BitVec 16
  generation : BitVec 8
  lts : W64
deriving DecidableEq, Repr

/-- A clear barrier. -/
def Barrier.clear : Barrier := { count := 0, arrived := 0, generation := 0, lts := 0 }

/-- An entry of a named queue (R324 Table 2), with the pusher's LTS (R326). -/
structure QueueEntry where
  value : W64
  producer : Nat
  notify : Nat
  lts : W64
deriving DecidableEq, Repr

/-- A named queue (R324 Table 2): entries, oldest first; the send allowance of each position; the LTS carried by the
allowance returned most recently to each position (R326). -/
structure NamedQueue where
  entries : List QueueEntry
  allowance : List Nat
  returned : List W64
deriving DecidableEq, Repr

/-- A named queue at placement. -/
def NamedQueue.fresh : NamedQueue :=
  { entries := [], allowance := List.replicate 16 64, returned := List.replicate 16 0 }

/-- An item of a conditional stream (R327 Table 4): a record with its pusher's LTS, or an end mark. -/
inductive StreamItem where
  | record (words : List W32) (lts : W64)
  | mark
deriving DecidableEq, Repr

/-- A conditional stream (R327 Table 4). -/
structure Stream where
  items : List StreamItem
  length : Option Nat
deriving DecidableEq, Repr

/-- A conditional stream at placement. -/
def Stream.fresh : Stream := { items := [], length := none }

/-- The vote key of a gang member (R205). -/
structure VoteKey where
  uf : Nat
  word : W64
  fmtA : W64
  fmtB : W64
  ta : Nat
  tsA : W64
  gang : W64
deriving DecidableEq, Repr

/-- What a joint command captures of a member at the arrival of its bundle (R188, R218), its LTS then (R296), and in
which cycle the open phase that is not exposed had opened, if it arrived from one (R215). -/
structure Member where
  index : Nat
  pos : Nat
  td : Nat
  ta : Nat
  ti : Nat
  sl : Nat
  flag : Nat
  adt : W64
  ts : Vector W64 32
  fmt : Vector W64 16
  lts : W64
  phase : Option Nat
deriving DecidableEq, Repr

/-- The diverged state of a rendezvous latch (R219): the index of the first arrival and of the arrival that differed,
the cycle of the divergence, the members listed and those that have trapped. -/
structure Diverged where
  first : Nat
  differing : Nat
  since : Nat
  listed : List Nat
  trapped : List Nat
deriving DecidableEq, Repr

/-- A rendezvous latch (R206 Table 13): vote key of the first arrival, the arrived members in order of arrival, the cycle
of the first arrival, its RVTO, and the diverged state. -/
structure RendezvousLatch where
  key : Option VoteKey
  members : List Member
  start : Nat
  rvto : W64
  diverged : Option Diverged
deriving DecidableEq, Repr

/-- A clear rendezvous latch. -/
def RendezvousLatch.clear : RendezvousLatch :=
  { key := none, members := [], start := 0, rvto := 0, diverged := none }

/-- A latch record of a group (R201 Table 10, R227): loaded, K, class, captured FMT word, kof, nof; and the contents the
group last loaded under that name, in the physical latch or in the save area (R202): data bytes and scale bytes. -/
structure LatchRecord where
  loaded : Bool
  k : Nat
  cls : Nat
  fmt : W64
  kof : Nat
  nof : Nat
  data : List Byte
  scales : List Byte
deriving DecidableEq, Repr

/-- A latch record that is not loaded. -/
def LatchRecord.empty : LatchRecord :=
  { loaded := false, k := 0, cls := 0, fmt := 0, kof := 0, nof := 0, data := [], scales := [] }

/-- Modes of a bank (R267). -/
inductive BankMode where
  | cache | scratch | fifo
deriving DecidableEq, Repr

/-! ## Engine commands -/

/-- A copy descriptor as read by the engine (R333 Tables 7 and 8). -/
structure CopyDesc where
  src : Nat
  dst : Nat
  cwaddr : Nat
  cwval : Nat
  ctl : Nat
  banks : Nat
  pos : Nat
  idx : Nat
  ext : List Nat
  sstr : List Int
  dstr : List Int
  reservedZero : Bool
deriving DecidableEq, Repr

/-- An engine command (R212, R331): its group and issuer by group position, the core whose queue holds it, the unit
function, its fields and operand as read at issue, the members of a joint command, the vector rows of v2t, whether it
has started, its position, its LTS (R295), and for a copy command its descriptor once read, the ASID slot of its accesses and
the COPY packet or phase refetch it runs for. -/
structure EngineCmd where
  copy : Bool
  uf : Nat
  group : Option Nat
  pos : Nat
  cluster : Nat
  core : Nat
  region : Nat
  /-- The command (queue, packet index) it works for. -/
  command : Nat
  td : Nat
  ta : Nat
  sl : Nat
  aux : Nat
  flag : Nat
  operand : W64
  members : List Member
  rows : List Row
  queued : Bool
  started : Bool
  position : Nat
  /-- The position from which it has run since it last started: POS, or the position of its record (R185, R337, R342). -/
  origin : Nat
  /-- The cycle of its core in which it was issued. -/
  forked : Nat
  lts : W64
  asid : Nat
  user : Bool
  desc : Option CopyDesc
  resumed : Bool
  cancel : Bool
  /-- It refetches the input of a cancelled phase of this context (R249). -/
  refetch : Bool
  /-- It was issued inside an open phase: the cycle in which that phase opened. -/
  phase : Option Nat
  /-- It runs for a COPY packet and has no issuing context (R350). -/
  packet : Bool
  /-- The adapter entries that mmaa has read: address, identifier, bytes (R209, R443). -/
  entries : List (Nat × Nat × List Byte)
deriving DecidableEq, Repr

/-- A bank switched from FIFO to SCRATCH whose bytes are not known (R268 Table 2): the physical bank, a number of its own, the
byte values that its group had written to it, and the offsets written since. -/
structure Haze where
  bank : Nat
  tag : Nat
  values : BitVec 256
  known : List Nat
deriving DecidableEq, Repr

/-- What a context's saved image also holds of its group (R32, R33): see SavedGroup. -/
structure SavedBank where
  localBank : Nat
  mode : BankMode
  /-- What is not known of its bytes, as in Cluster.haze, and the byte values written to it. -/
  haze : Option Haze
  wrote : BitVec 256
  bytes : List (Nat × Byte)
deriving DecidableEq, Repr

/-- A pre-empted group's saved contents (R32 to R35, R184, R202): the cluster it left, banks with their modes, tile bytes by
local byte offset, engine commands stopped with their positions. Its context images are the contexts of its parked
numbers (see parkKey). -/
structure SavedGroup where
  cluster : Nat
  banks : List SavedBank
  tiles : List (Nat × Byte)
  commands : List EngineCmd
deriving DecidableEq, Repr

/-- How a group is ending by a contained fault (R376): the cause, the slot, TVAL and TEPC of the record, and the position of
the context at fault. -/
structure GroupFault where
  cause : Cause
  slot : Nat
  tval : W64
  tepc : W64
  pos : Nat
  exposed : Bool
deriving DecidableEq, Repr

/-- A group (R14 to R24): its command and place in the grid, declaration and dictionary object, the cluster that holds it
(none while it is pre-empted), its hardware contexts by position (cluster-wide numbers), its physical banks by local
number, and its allocated units. -/
structure Group where
  command : Nat
  region : Nat
  g : Nat
  gcount : Nat
  decl : Decl
  dictObj : W64
  bas : Vector W64 16
  cluster : Option Nat
  contexts : List Nat
  banks : List Nat
  barriers : List Barrier
  queues : List NamedQueue
  streams : List Stream
  latches : List RendezvousLatch
  records : List LatchRecord
  contReserved : Bool
  fault : Option GroupFault
  /-- It is being pre-empted: its contexts drain (R32). -/
  preempting : Bool
  saved : Option SavedGroup
  /-- Its contexts have ended and it waits as the kept resources of a CONTINUE (R24). -/
  kept : Bool
  /-- TSC when it was placed or resumed: order of placement (R365). -/
  placedAt : Nat
deriving DecidableEq, Repr

/-! ## A cluster (R11) -/

/-- A TLB entry (R278): virtual page number, page size in log₂ bytes, ASID slot, leaf PTE. -/
structure TlbEntry where
  vpn : Nat
  size : Nat
  asid : Nat
  pte : W64
deriving DecidableEq, Repr

/-- A bank switch under way (R253, R268): the bankmode operation it belongs to, the physical bank, the new mode. -/
structure BankSwitch where
  op : Nat
  bank : Nat
  mode : BankMode
deriving DecidableEq, Repr

/-- A bankmode operation whose flag is still to be set: its number, the context, the flag. -/
structure BankOp where
  op : Nat
  ctx : Nat
  flag : Nat
deriving DecidableEq, Repr

/-- An entry of the bank reservation table (R270): group, local bank mask, owning command. -/
structure Reservation where
  group : Nat
  mask : BitVec 16
  command : Nat
deriving DecidableEq, Repr

/-- A cluster (R11): bank modes, switches under way, bank reservations, owners of the stationary latches, TLB. The
contents of banks and tiles are bytes of State.mem; haze names the FIFO banks switched to SCRATCH whose bytes are not yet
known (R268); wrote holds, a bit each, the byte values that the holding group has written to a bank (R268 Table 2). -/
structure Cluster where
  modes : Vector BankMode 16
  switches : List BankSwitch
  bankOps : List BankOp
  nextOp : Nat
  reservations : List Reservation
  haze : List Haze
  wrote : Vector (BitVec 256) 16
  latchOwner : Vector (Option Nat) 6
  tlb : List TlbEntry
deriving DecidableEq, Repr

/-- A cluster at reset: every bank in CACHE mode. -/
def Cluster.initial : Cluster :=
  { modes := Vector.replicate 16 .cache, switches := [], bankOps := [], nextOp := 0, reservations := [], haze := [],
    wrote := Vector.replicate 16 0, latchOwner := Vector.replicate 6 none, tlb := [] }

/-! ## A compute die (R10): distributor, continuation queues, TLB -/

/-- A range of groups a distributor holds (R22, R23): groups first + k × stride for k in [next, stop). -/
structure GroupRange where
  command : Nat
  first : Nat
  stride : Nat
  next : Nat
  stop : Nat
deriving DecidableEq, Repr

/-- A continuation queue assigned to a region (R361): its number on the die, the region, reservations outstanding, and its packets
that are not yet consumed, which stand in its ring (R345; DESIGN CHOICE, notes/assumptions/48.md). -/
structure ContQueue where
  number : Nat
  region : Nat
  reserved : Nat
  waiting : Nat
deriving DecidableEq, Repr

/-- A compute die (R10). -/
structure Die where
  ranges : List GroupRange
  conts : List ContQueue
  tlb : List TlbEntry
deriving DecidableEq, Repr

/-- A die at reset. -/
def Die.initial : Die := { ranges := [], conts := [], tlb := [] }

/-! ## Regions, queues and commands -/

/-- A region control block as applied (R396 Table 3), with the device-owned fields and the scheduler's record of the
region (R363, R364). -/
structure Region where
  parent : Nat
  depth : Nat
  prio : Nat
  flags : BitVec 16
  ovr : BitVec 16
  ptbase : W64
  cshare : Nat
  qcnt : Nat
  pcnt : Nat
  hbmf : Nat
  quantum : Nat
  flogn : Nat
  dbgrgn : Nat
  fqbase : W64
  fqwra : W64
  fqrda : W64
  fqovfa : W64
  cused : Nat
  qused : Nat
  pused : Nat
  hused : Nat
  aslot : Option Nat
  /-- What is left of its turn and of the turn of its own work, in sevenths of a ns (R364). -/
  deficit : Nat
  ownDeficit : Nat
  /-- The full length of its turn or sub-turn, in sevenths of a ns. -/
  turnLen : Nat
  /-- The member of its rotation that holds its sub-turn, or held it last: a child, or itself for its own work. -/
  cursor : Option Nat
deriving DecidableEq, Repr

/-- A region control block that no table update has applied. -/
def Region.invalid : Region :=
  { parent := 0xFFFF, depth := 0, prio := 0, flags := 0, ovr := 0, ptbase := 0, cshare := 0, qcnt := 0, pcnt := 0,
    hbmf := 0, quantum := 0, flogn := 0, dbgrgn := 0, fqbase := 0, fqwra := 0, fqrda := 0, fqovfa := 0, cused := 0,
    qused := 0, pused := 0, hused := 0, aslot := none, deficit := 0, ownDeficit := 0, turnLen := 0, cursor := none }

/-- A residency slot as applied (R399 Table 4). -/
structure Residency where
  valid : Bool
  pinned : Bool
  nba : Nat
  owner : Nat
  adoff : Nat
  entry : W64
  dictObj : W64
  decl : Nat
  adt : W64
  /-- PINPG of its object by class, as its header held it when the update applied (R400). -/
  pinPages : List Nat
deriving DecidableEq, Repr

/-- The states of a pool region (R385 Table 4, R405). -/
inductive PoolState where
  | unmapped | active | faulted | lost
deriving DecidableEq, Repr

/-- A pool region map entry as applied (R405 Table 5); discarded counts the bytes lost since its last record (R388), and locked is what
its device field LOCKED was last given. -/
structure PoolEntry where
  pridx : Nat
  state : PoolState
  port : Nat
  owner : Nat
  target : Nat
  discarded : Nat
  locked : Nat
deriving DecidableEq, Repr

/-- An ASID slot (R403): table root, generation, cycle of its last use. -/
structure AsidSlot where
  ptbase : W64
  generation : BitVec 8
  lastUse : Nat
deriving DecidableEq, Repr

/-- What a BLOCKED queue waits for (R352, R353): the commands before its BAR packet; or words of memory, by their places, that
compare with a value under a COND, with the TIMEOUT of the packet, and whether an evaluation after a write has passed. -/
inductive QueueBlock where
  | bar
  | words (keys : List Nat) (cond : Nat) (value : W64) (timeout : Nat) (passed : Bool)
deriving DecidableEq, Repr

/-- What the Understory holds of a queue beside its control block in memory (R344, R345, R353, R355, R358, R359): the held read
index; the Understory context that owns it, and that served it last; its lane, and the place in the round of the type read at its
head while that is still to serve; packets served since it was claimed, consecutive empty reads; what it waits for while BLOCKED and
the cycle of the first evaluation of its WAIT or BARRIER-AND; and the debugger's hold (R417): held, and packets it may still let
through. -/
structure QueueHold where
  held : Nat
  owner : Option Nat
  server : Option Nat
  lane : Nat
  rank : Option Nat
  served : Nat
  empty : Nat
  blocked : Option QueueBlock
  waitFrom : Option Nat
  stopped : Bool
  steps : Nat
deriving DecidableEq, Repr

/-- The hold of a queue that was never enabled. -/
def QueueHold.initial : QueueHold :=
  { held := 0, owner := none, server := none, lane := 0, rank := none, served := 0, empty := 0, blocked := none, waitFrom := none
    stopped := false, steps := 0 }

/-- A command running (R351): queue (continuation queues count from 65,536), packet index, packet type, the Understory context that
served its packet (R355), region; what a launch gives its groups; groups not yet ended and not yet placed; release scope and signal
index; state hash, RERUN and INCOMPLETE (R422); ordinal (R420); LTS after its acquire. -/
structure Command where
  queue : Nat
  seq : Nat
  server : Option Nat
  type : Nat
  region : Nat
  entry : W64
  dictObj : W64
  args : W64
  gcount : Nat
  decl : Decl
  bas : Vector W64 16
  left : Nat
  unplaced : Nat
  rel : Nat
  sigidx : Nat
  hash : W64
  rerun : Bool
  incomplete : Bool
  ordinal : Nat
  lts : W64
  cancelled : Bool
deriving DecidableEq, Repr

/-- An operation held with RES = 1 (R373): the region that owns it, the region whose fault queue holds its record, the index
there, and a RESUME (1), CANCEL (2) or RELEASE (3) written while its group was pre-empted. -/
structure HeldOp where
  region : Nat
  fqRegion : Nat
  index : Nat
  cmd : EngineCmd
  order : Nat
deriving DecidableEq, Repr

/-! ## Debug and trace (R414 to R422) -/

/-- A debug service of a region (R414 Table 6). logCount counts log entries; replay holds the positions done. -/
structure TraceService where
  base : W64
  ring : W64
  rlogn : Nat
  mode : BitVec 8
  types : BitVec 16
  sper : Nat
  wra : W64
  rda : W64
  ovfa : W64
  logb : W64
  llogn : Nat
  logwr : W64
  bp : List W64
  img : W64
  debugger : Nat
  logCount : Nat
  logFull : Bool
  done : List Nat
  ordinals : List (Nat × Nat)
  lastSample : Nat
deriving DecidableEq, Repr

/-- A debugger's HALT under way (R415): the contexts that are still to stop, and the commands written since, as CMD and value, in their
order. -/
structure DebugWork where
  halting : List Nat
  waiting : List (Nat × W64)
deriving DecidableEq, Repr

/-! ## What the device says to the outside -/

/-- What leaves the device: what a host read returned, an SPDM response, a Ride flit. -/
inductive Output where
  | hostRead (address : Nat) (bytes : List Byte)
  | hostReadUncorrectable (address : Nat)
  | spdm (code : Byte) (param1 param2 : Byte) (body : List Byte)
  /-- A response inside an SPDM session, as its keys protect it. -/
  | spdmGuarded (session : Nat) (bytes : List Byte)
  | ride (flit : RideFlit)
deriving DecidableEq, Repr

/-- A write to the doorbell aperture that has been performed and not yet acted on (R426): offset, value, and the region of its
writer, once known. -/
structure Doorbell where
  offset : Nat
  value : W64
  region : Option Nat
deriving DecidableEq, Repr

/-- A reduction kept in a die's partial of a line (R309): die, operation, size, key of its first byte, operand. -/
structure PartialOp where
  die : Nat
  op : Nat
  size : Nat
  key : Nat
  value : W64
deriving DecidableEq, Repr

/-- A table command queued (R407). -/
abbrev TableCommand := W64

/-- An SPDM session (R437): its number, whether FINISH has completed it, the transcript of its handshake, the secret of its present
phase with those of its two directions, and the number of the next protected message in each. -/
structure SpdmSession where
  id : Nat
  finished : Bool
  transcript : List Byte
  secret : List Byte
  requestSecret : List Byte
  responseSecret : List Byte
  requests : Nat
  responses : Nat
deriving DecidableEq, Repr

/-- The SPDM responder (R437): how far its connection has come, the transcripts of the negotiation, of certificates and of the
measurements by session, the open sessions, and whether the requester has yet to start anew after a failover (R438). -/
structure SpdmState where
  version : Bool
  capabilities : Bool
  algorithms : Bool
  negotiated : List Byte
  certified : List Byte
  measured : SMap (List Byte)
  sessions : List SpdmSession
  resynch : Bool
deriving DecidableEq, Repr

/-- A key of an IDE stream (R424): the stream, key set, direction (true: sent) and sub-stream it is for, the key with its
initialisation vector, and whether its set is in use. -/
structure IdeKey where
  stream : Nat
  set : Nat
  sent : Bool
  sub : Nat
  key : List Byte
  running : Bool
deriving DecidableEq, Repr

/-! ## The faults and refusals of the model -/

/-- Faults of the model. Every trap, contained fault and error of the spec is a next state, so no step raises one. -/
inductive Fault where
  /-- A step found State.inputs holding an instruction of a slot, which is no deed of another agent. Raised by step
  alone, in states that no run reaches; safe. -/
  | inputNotEvent
deriving DecidableEq, Repr

/-- Refusals of the model. -/
inductive Refusal where
  /-- exec met an instruction that has no meaning yet; raised by exec; safe. -/
  | notModelled (mnemonic : String)
deriving DecidableEq, Repr

/-! ## The whole machine -/

/-- The state of the package. Contexts, cores, clusters, groups and tables are sparse maps by number; a number that is not
listed holds the initial value of its kind. -/
structure State where
  /-- Arithmetic-clock cycles since package reset: TSC (R409). -/
  clk : Nat
  /-- Index of the next free value (the model's own field, DESIGN CHOICE, notes/assumptions/2.md). -/
  free : Nat
  /-- The core that issues (the model's own field, DESIGN CHOICE, notes/assumptions/1.md). -/
  turn : Nat
  /-- Deeds of other agents, in the order in which they land (the model's own field, DESIGN CHOICE, notes/assumptions/1.md). -/
  inputs : List Instr
  /-- What the device has answered to the outside (the model's own field, DESIGN CHOICE, notes/assumptions/1.md). -/
  outputs : List Output
  ctxs : SMap Ctx
  cores : SMap Core
  clusters : SMap Cluster
  groups : SMap Group
  nextGroup : Nat
  dies : SMap Die
  /-- Memory: bytes of tiers 0, 1 and 3, pool devices, scratchpad banks and tiles (DESIGN CHOICE, notes/assumptions/4.md). -/
  mem : List Host.Cell
  /-- Lines that hold uncorrectable data (R389). -/
  poisoned : List Nat
  /-- Write timestamp and read lease of a line (R292). -/
  stamps : SMap (W64 × W64)
  /-- Partials of a line in commutative-update state (R309): its reductions, in order of arrival. -/
  partials : SMap (List PartialOp)
  /-- Lines that the device holds modified and has not written back to their tier; those of a FAULTED pool region are the locked
  lines (R272, R388). -/
  modified : List Nat
  doorbells : List Doorbell
  /-- What images hold of armed watches and of barrier wait records, by the bytes that stand for them
  (DESIGN CHOICE, notes/assumptions/40.md). -/
  imageRecords : List (List Byte × List Watch × Option BarrierWait)
  commands : SMap Command
  nextCommand : Nat
  engine : SMap EngineCmd
  nextEngine : Nat
  queues : SMap QueueHold
  /-- The cycle in which the firmware of an Understory context last began a round (R358). -/
  rounds : SMap Nat
  heldOps : List HeldOp
  /-- Tables as applied (R394). -/
  regions : SMap Region
  residency : SMap Residency
  frames : SMap Nat
  pool : SMap PoolEntry
  asids : SMap AsidSlot
  /-- The regions that hold turns and sub-turns, from the root's child down, and the cycle in which the path last changed
  (R364). -/
  turnPath : List Nat
  turnSince : Nat
  /-- RCBBASE, RESBASE, FOWNBASE, PMAPBASE, QTBASE (R407). -/
  bases : Vector W64 5
  tblQueue : List TableCommand
  tblCount : Nat
  tblError : Nat
  tblIndex : Nat
  /-- READY words 0 to 4 (R439). -/
  ready : Vector W64 5
  /-- The units whose self test has passed since the last reset, by the places of their READY bits: each bit is set at one point
  (R439). -/
  tested : Vector W64 5
  /-- The physical clusters of each compute die that passed the boot test: 32, and the two spares as 32 and 33 (R9, R12). -/
  healthy : Vector (BitVec 34) 8
  counters : SMap Nat
  traces : SMap TraceService
  /-- The debugger commands of a region while a HALT is under way (R415). -/
  debugWork : SMap DebugWork
  /-- Driver registers (R427): DEVINFO boot status, DEVID, GOVLIM, GOVSTAT. -/
  bootStatus : BitVec 8
  devid : BitVec 22
  govlim : BitVec 14
  govCurrent : BitVec 14
  govHeld : BitVec 32
  /-- Whether the governor holds ready Canopy beats since its last sample (R441). -/
  govHolds : Bool
  /-- The number of µs until the end of the last one that GOVSTAT counts (R441). -/
  govMicro : Nat
  routes : SMap (W64 × W64)
  inbound : SMap (W64 × W64)
  /-- Rails that are up: of the Ride ports 0 to 11 (R432), and of the die-to-die links as 12 to 27 (R383). -/
  rails : Vector (BitVec 5) 28
  /-- Sequence numbers of the next flit sent and of the next one received, by port and virtual channel (R432). -/
  rideSent : SMap (BitVec 8)
  rideSeen : SMap (BitVec 8)
  /-- Lines of tier 3 whose accesses a peer refuses (R434). -/
  rideRefused : List Nat
  rootUp : BitVec 8
  hostUp : Bool
  cxlCache : Bool
  mailbox : List Byte
  mr : Vector (List Byte) 32
  securityDie : BitVec 1
  spdm : SpdmState
  /-- The keys of IDE streams (R424). -/
  ideKeys : List IdeKey
deriving DecidableEq, Repr

/-- The machine right after package reset (R435, R439 and the state cards; DESIGN CHOICE, notes/assumptions/4.md, 5.md, 6.md).
(DESIGN CHOICE, notes/assumptions/5.md) Every physical cluster counts as one that has passed its boot test, before a boot says
otherwise (DESIGN CHOICE, notes/assumptions/97.md). -/
def State.reset : State :=
  { clk := 0, free := 0, turn := 0, inputs := [], outputs := [], ctxs := [], cores := [], clusters := [], groups := [],
    nextGroup := 0, dies := [], mem := [], poisoned := [], stamps := [], partials := [], modified := [], doorbells := [], imageRecords := [], commands := [],
    nextCommand := 0, engine := [], nextEngine := 0, queues := [], rounds := [], heldOps := [], regions := [], residency := [],
    frames := [], pool := [], asids := [], turnPath := [], turnSince := 0, bases := Vector.replicate 5 0, tblQueue := [], tblCount := 0,
    tblError := 0, tblIndex := 0, ready := Vector.replicate 5 0, tested := Vector.replicate 5 0,
    healthy := Vector.replicate 8 (BitVec.allOnes 34), counters := [], traces := [], debugWork := [], bootStatus := 0,
    devid := 0, govlim := 9000, govCurrent := 0, govHeld := 0, govHolds := false, govMicro := 0, routes := [], inbound := [],
    rails := Vector.replicate 28 0x1F, rideSent := [], rideSeen := [], rideRefused := [], rootUp := 0xFF, hostUp := true, cxlCache := false,
    mailbox := List.replicate 128 0, mr := Vector.replicate 32 (List.replicate 64 0), securityDie := 0,
    spdm := { version := false, capabilities := false, algorithms := false, negotiated := [], certified := [], measured := [],
              sessions := [], resynch := false },
    ideKeys := [] }

end Sys2Proof.Machine
end

