-- ==== Sys2Proof/Machine/Access.lean ====
section
/-! DEFINITION. Where things are and how they are reached: numbers of contexts, cores, clusters and dies (R10 to R14, R355,
R438), accessors of the sparse maps of State, regions and their effective values (R397), privilege (R258), READY bits (R439),
counters (R413) and reference time (R15). -/

namespace Sys2Proof.Machine

/-! Numbers (R14, R356, R438): contexts 0 to 4,095 are compute contexts, 4,096 to 4,111 Understory contexts and 4,112 to
4,115 security contexts, as ident item 8 numbers them. Cores 0 to 1,023 are compute cores, 1,024 to 1,031 Understory
cores, 1,032 and 1,033 security cores. Clusters 256 and 257 stand for the I/O dies. -/

/-- The core of a context. -/
def coreOf (k : Nat) : Nat :=
  if k < 4096 then k / 4 else if k < 4112 then 1024 + (k - 4096) / 2 else 1032 + (k - 4112) / 2
/-- The cluster of a context. -/
def clusterOf (k : Nat) : Nat :=
  if k < 4096 then k / 16 else if k < 4112 then 256 + (k - 4096) / 8 else 256 + (k - 4112) / 2
/-- The contexts of a core. -/
def ctxsOfCore (core : Nat) : List Nat :=
  if core < 1024 then tabulate id 4 (4 * core)
  else if core < 1032 then tabulate id 2 (4096 + 2 * (core - 1024)) else tabulate id 2 (4112 + 2 * (core - 1032))
/-- The die of a cluster: 0 to 7 the compute dies, 8 and 9 the I/O dies. -/
def dieOf (cluster : Nat) : Nat := if cluster < 256 then cluster / 32 else 8 + (cluster - 256)
/-- The cluster of a core. -/
def clusterOfCore (core : Nat) : Nat :=
  if core < 1024 then core / 4 else if core < 1032 then 256 + (core - 1024) / 4 else 256 + (core - 1032)
/-- The kind of a core. -/
def kindOf (core : Nat) : CoreKind :=
  if core < 1024 then .compute else if core < 1032 then .understory else .security

/-! Entries of the maps of State. -/

/-- A context. -/
def State.ctx (s : State) (k : Nat) : Ctx := mapGet s.ctxs Ctx.launch k
/-- A context replaced. -/
def State.setCtx (s : State) (k : Nat) (c : Ctx) : State := { s with ctxs := mapSet s.ctxs k c }
/-- A context changed. -/
def State.updCtx (s : State) (k : Nat) (f : Ctx → Ctx) : State := s.setCtx k (f (s.ctx k))
/-- A core. -/
def State.core (s : State) (n : Nat) : Core := mapGet s.cores Core.initial n
/-- A core replaced. -/
def State.setCore (s : State) (n : Nat) (c : Core) : State := { s with cores := mapSet s.cores n c }
/-- A core changed. -/
def State.updCore (s : State) (n : Nat) (f : Core → Core) : State := s.setCore n (f (s.core n))
/-- A cluster. -/
def State.cluster (s : State) (n : Nat) : Cluster := mapGet s.clusters Cluster.initial n
/-- A cluster changed. -/
def State.updCluster (s : State) (n : Nat) (f : Cluster → Cluster) : State :=
  { s with clusters := mapSet s.clusters n (f (s.cluster n)) }
/-- A die. -/
def State.die (s : State) (n : Nat) : Die := mapGet s.dies Die.initial n
/-- A die changed. -/
def State.updDie (s : State) (n : Nat) (f : Die → Die) : State := { s with dies := mapSet s.dies n (f (s.die n)) }
/-- A group that is placed, kept or pre-empted. -/
def State.group? (s : State) (g : Nat) : Option Group := mapGet? s.groups g
/-- A group changed; nothing where there is no such group. -/
def State.updGroup (s : State) (g : Nat) (f : Group → Group) : State :=
  match s.group? g with
  | some x => { s with groups := mapSet s.groups g (f x) }
  | none => s
/-- A region control block as applied. -/
def State.region (s : State) (r : Nat) : Region := mapGet s.regions Region.invalid r
/-- A region changed. -/
def State.updRegion (s : State) (r : Nat) (f : Region → Region) : State :=
  { s with regions := mapSet s.regions r (f (s.region r)) }
/-- A queue's hold. -/
def State.hold (s : State) (q : Nat) : QueueHold := mapGet s.queues QueueHold.initial q
/-- A queue's hold changed. -/
def State.updHold (s : State) (q : Nat) (f : QueueHold → QueueHold) : State :=
  { s with queues := mapSet s.queues q (f (s.hold q)) }
/-- An engine command changed. -/
def State.updEngine (s : State) (n : Nat) (f : EngineCmd → EngineCmd) : State :=
  match mapGet? s.engine n with
  | some x => { s with engine := mapSet s.engine n (f x) }
  | none => s
/-- A running command changed. -/
def State.updCommand (s : State) (n : Nat) (f : Command → Command) : State :=
  match mapGet? s.commands n with
  | some x => { s with commands := mapSet s.commands n (f x) }
  | none => s

/-- The group of a context. -/
def State.groupOf (s : State) (k : Nat) : Option Group := (s.ctx k).group.bind s.group?
/-- The contexts of a placed group, by position. -/
def Group.keys (g : Group) : List Nat :=
  match g.cluster with
  | some c => g.contexts.map fun h => 16 * c + h
  | none => []
/-- The physical tile of a local tile name (R181). -/
def Group.tile (g : Group) (j : Nat) : Nat := 2 * g.contexts.getD (j / 2) 0 + j % 2
/-- A parked context's number: where the image of position pos of a pre-empted group stands in State.ctxs (R32). -/
def parkKey (g pos : Nat) : Nat := 2 ^ 20 + 16 * g + pos
/-- Whether a context number is that of a saved image. -/
def parked (k : Nat) : Bool := decide (2 ^ 20 ≤ k)
/-- The context at a position of a group: placed, or parked. -/
def State.keyAt (s : State) (g pos : Nat) : Nat :=
  match s.group? g with
  | some x => if x.cluster.isSome then x.keys.getD pos 0 else parkKey g pos
  | none => 0
/-- The die of a context: a parked one counts on the die that its group left. -/
def State.dieOfCtx (s : State) (k : Nat) : Nat :=
  match (s.groupOf k).bind Group.saved with
  | some x => dieOf x.cluster
  | none => dieOf (clusterOf k)
/-- The owning region of a context: the root for Understory and security contexts (R356, R438). -/
def State.regionOf (s : State) (k : Nat) : Nat := ((s.groupOf k).map Group.region).getD 0

/-! Reference time (R15). -/

/-- Nanoseconds of the reference time base at the start of a cycle of the 700 MHz clock. -/
def nsOf (clk : Nat) : Nat := clk * 10 / 7
/-- Whether ns nanoseconds have passed at cycle now since cycle start (R15: the first cycle that starts at or after the
instant). -/
def expired (start ns now : Nat) : Bool := decide (ns * 7 ≤ (now - start) * 10) && decide (start ≤ now)

/-! Regions (R396, R397). -/

/-- VALID. -/
def Region.valid (r : Region) : Bool := r.flags.getLsbD 0
/-- FIREBREAK. -/
def Region.firebreak (r : Region) : Bool := r.flags.getLsbD 1

/-- The nearest region on the path from r to the root whose OVR bit is set; the root where there is none (R397). -/
def State.effFrom (s : State) (bit : Nat) : Nat → Nat → Nat
  | 0, r => r
  | fuel + 1, r =>
    if (s.region r).ovr.getLsbD bit || r = 0 || (s.region r).parent = 0xFFFF then r
    else s.effFrom bit fuel (s.region r).parent
/-- The region that gives r's effective value of a field: 0 PRIO, 1 CSHARE, 2 HBMF, 3 QCNT, 4 PCNT, 5 QUANTUM, 6 PTBASE,
7 SUPK (R397). -/
def State.eff (s : State) (bit r : Nat) : Region := s.region (s.effFrom bit 9 r)
/-- The table root of a region (R397, R403). -/
def State.ptbase (s : State) (r : Nat) : W64 := (s.eff 6 r).ptbase
/-- The priority of a region. -/
def State.prio (s : State) (r : Nat) : Nat := (s.eff 0 r).prio
/-- The quantum of a region in ns; 50 µs where its block holds 0 (R364). -/
def State.quantumNs (s : State) (r : Nat) : Nat :=
  let q := (s.eff 5 r).quantum
  if q = 0 then 50000 else 1000 * q
/-- r and its ancestors, up to the root; an invalid block has no ancestors. -/
def State.pathFrom (s : State) : Nat → Nat → List Nat
  | 0, r => [r]
  | fuel + 1, r =>
    if r = 0 || !(s.region r).valid || (s.region r).parent = 0xFFFF then [r] else r :: s.pathFrom fuel (s.region r).parent
/-- r and its ancestors, up to the root. -/
def State.path (s : State) (r : Nat) : List Nat := s.pathFrom 9 r
/-- The root of a region's fault domain: the nearest Firebreak (R374). -/
def State.domainRoot (s : State) (r : Nat) : Nat :=
  ((s.path r).find? fun x => (s.region x).firebreak).getD 0
/-- The slot that holds a table root (R403). -/
def State.slotHolding (s : State) (root : W64) : Option Nat := (s.asids.find? fun a => a.2.ptbase = root).map Prod.fst
/-- The tag of a region's address space in caches, TLBs and handles: its ASID slot, or a number of its own, from 256 on, where no
slot holds its table root (R403). (DEDUCED, notes/assumptions/65.md) -/
def State.asidOf (s : State) (r : Nat) : Nat := (s.slotHolding (s.ptbase r)).getD (256 + (s.ptbase r).toNat)

/-! Privilege (R258). -/

/-- The handle a context is bound to. -/
def State.handleOf (s : State) (k : Nat) : Option DictHandle :=
  ((s.core (coreOf k)).handles[(s.ctx k).dictHandle]?).bind id
/-- PRIV of the bound dictionary. -/
def State.privOf (s : State) (k : Nat) : Bool := ((s.handleOf k).map DictHandle.priv).getD false
/-- Supervisor state (R258). -/
def State.supervisor (s : State) (k : Nat) : Bool := s.privOf k && !(s.ctx k).user

/-! READY bits (R439). -/

/-- A bit of a READY word. -/
def State.readyBit (s : State) (word bit : Nat) : Bool := (s.ready[word]?.getD 0).getLsbD bit
/-- A bit of a READY word set or cleared. -/
def State.setReady (s : State) (word bit : Nat) (v : Bool) : State :=
  let w := s.ready[word]?.getD 0
  let m : W64 := (1 : W64) <<< bit
  { s with ready := s.ready.setIfInBounds word (if v then w ||| m else w &&& ~~~m) }
/-- Whether a cluster is ready. -/
def State.clusterReady (s : State) (c : Nat) : Bool := decide (c < 256) && s.readyBit (1 + c / 64) (c % 64)
/-- Whether a compute die is ready. -/
def State.dieReady (s : State) (d : Nat) : Bool := decide (d < 8) && s.readyBit 0 d
/-- The ready compute dies, in ascending order. -/
def State.readyDies (s : State) : List Nat := (List.range 8).filter s.dieReady

/-! Counters (R413 Table 5): numbered by their place in BAR0 from 0x01_0000 on, in that table's row order, each row's
counters in ascending index and a row's several counters one after another. -/

/-- A counter raised, saturating. (DESIGN CHOICE, notes/assumptions/72.md) -/
def State.count (s : State) (n by_ : Nat) : State :=
  { s with counters := mapSet s.counters n (min (mapGet s.counters 0 n + by_) (2 ^ 64 - 1)) }

/-- First counter of uncorrectable data found: 8 dies of 8, by tier (0 to 3) and kind.
(DESIGN CHOICE, notes/assumptions/32.md) -/
def ctrUncorrectable (die kind : Nat) : Nat := 1568 + 8 * die + kind
/-- Instruction-cache refetches of a core. -/
def ctrRefetch (core : Nat) : Nat := 1632 + core
/-- Decode-table entries of a core evicted for errors. -/
def ctrEvicted (core : Nat) : Nat := 2656 + core
/-- Ride rails rebuilt of a port. -/
def ctrRails (port : Nat) : Nat := 3680 + port
/-- Flits replayed of a port. -/
def ctrFlits (port : Nat) : Nat := 3708 + port
/-- Links down of a port; 12 to 27 are the die-to-die links. (DESIGN CHOICE, notes/assumptions/32.md) -/
def ctrLinks (port : Nat) : Nat := 3736 + port
/-- Spare clusters in use of a die. -/
def ctrSpare (die : Nat) : Nat := 3773 + die
/-- Phase cancellations of a die. -/
def ctrCancel (die : Nat) : Nat := 3781 + die
/-- Phases of a die ended at the rerun limit. -/
def ctrRerun (die : Nat) : Nat := 3789 + die
/-- Group re-placements of a die. -/
def ctrReplaced (die : Nat) : Nat := 3797 + die
/-- Dropped reductions of a die. -/
def ctrDropped (die : Nat) : Nat := 3805 + die
/-- Discarded writes beyond fitted memory of a tier. -/
def ctrDiscarded (tier : Nat) : Nat := 3813 + tier
/-- Latch spills of a cluster. -/
def ctrSpill (cluster : Nat) : Nat := 3817 + cluster
/-- Latch refills of a cluster. -/
def ctrRefill (cluster : Nat) : Nat := 4073 + cluster
/-- Overrun commits of a core. -/
def ctrCommit (core : Nat) : Nat := 4329 + core
/-- Overrun rollbacks of a core. -/
def ctrRollback (core : Nat) : Nat := 5353 + core
/-- Fault records lost of a die. -/
def ctrLost (die : Nat) : Nat := 6377 + die
/-- Copy cancel values dropped of a die. -/
def ctrCancelValue (die : Nat) : Nat := 6385 + die
/-- The number of counters. -/
def ctrCount : Nat := 6393

/-- A fresh open word: the counter of State picks it (DESIGN CHOICE, notes/assumptions/2.md). -/
def State.openWord (s : State) (tag : Nat) : W64 := Config.freeWord (s.free * 2 ^ 160 + tag)
/-- A fresh open choice. (DEDUCED, notes/assumptions/14.md) -/
def State.openBool (s : State) (tag : Nat) : Bool := Config.freeBool (s.free * 2 ^ 160 + tag)
/-- A fresh open number. (DEDUCED, notes/assumptions/12.md) -/
def State.openNat (s : State) (tag : Nat) : Nat := Config.freeNat (s.free * 2 ^ 160 + tag)

end Sys2Proof.Machine
end

