-- ==== Sys2Proof/Machine/Tiers.lean ====
section
/-! DEFINITION. Physical accesses: what a key reads as, lines that hold uncorrectable data (R273, R280, R389), lost links
(R429, R431, R434), modified pool lines (R388), timestamps (R292, R293), commutative partials (R309), and the walk of a
page table with its checks (R274 to R278). -/

namespace Sys2Proof.Machine

/-! ## Bytes by key -/

/-- The haze of a bank switched from FIFO to SCRATCH, if its bytes are not known (R268). (DEDUCED, notes/assumptions/11.md) -/
def State.hazeOf (s : State) (key : Nat) : Option Haze :=
  if planeOf key = 40 then
    (s.cluster (planeAddr key / 2 ^ 23)).haze.find? fun h => h.bank = planeAddr key / 2 ^ 19 % 16
  else none

/-- A byte of a hazed bank that nothing has written since: 0, or an open one of the values that the group wrote to the bank
(R268 Table 2; DEDUCED, notes/assumptions/11.md). -/
def Haze.byte (h : Haze) (off : Nat) : Byte :=
  let b : Byte := (Config.freeWord (2 ^ 200 + h.tag * 2 ^ 19 + off)).truncate 8
  if h.values.getLsbD b.toNat then b else 0

/-- The byte at a key. A line of a tier that the device holds modified is read from its copy (R272, R290, R388). -/
def State.byteAt (s : State) (key : Nat) : Byte :=
  match s.hazeOf key with
  | some h =>
    if h.known.contains (planeAddr key % 2 ^ 19) then memGet s.mem key else h.byte (planeAddr key % 2 ^ 19)
  | none => if s.modified.contains (lineOf key) then memGet s.mem (modifiedKey key) else memGet s.mem key

/-- The byte at a key replaced, where it stands: in the modified copy of its line, or in its plane. -/
def State.pokeByte (s : State) (key : Nat) (b : Byte) : State :=
  match s.hazeOf key with
  | some x =>
    let s := s.updCluster (planeAddr key / 2 ^ 23) fun c =>
      { c with haze := c.haze.map fun h =>
          if h.bank = x.bank then { h with known := (planeAddr key % 2 ^ 19) :: h.known } else h }
    { s with mem := memPut s.mem key b }
  | none =>
    if s.modified.contains (lineOf key) then { s with mem := memPut s.mem (modifiedKey key) b }
    else { s with mem := memPut s.mem key b }

/-- The n bytes from a key on. -/
def State.bytesAt (s : State) (key n : Nat) : List Byte := tabulate s.byteAt n key
/-- The value of the n bytes from a key on, little-endian (R3). -/
def State.wordAt (s : State) (key n : Nat) : Nat := ofBytes (s.bytesAt key n)
/-- Bytes written from a key on. -/
def State.pokeBytes : State → Nat → List Byte → State
  | s, _, [] => s
  | s, key, b :: bs => (s.pokeByte key b).pokeBytes (key + 1) bs

/-- The byte values of a list, a bit each. -/
def valueSet (bs : List Byte) : BitVec 256 := bs.foldl (fun m b => m ||| (1 : BitVec 256) <<< b.toNat) 0
/-- Bytes written to a bank noted among the values that its group has written to it (R268 Table 2). -/
def State.noteBank (s : State) (cluster bank : Nat) (bs : List Byte) : State :=
  s.updCluster cluster fun c =>
    { c with wrote := c.wrote.setIfInBounds bank ((c.wrote[bank]?.getD 0) ||| valueSet bs) }
/-- Bytes stored at a key of a bank noted; nothing for other keys. -/
def State.noteStored (s : State) (key : Nat) (bs : List Byte) : State :=
  if planeOf key = 40 then s.noteBank (planeAddr key / 2 ^ 23) (planeAddr key / 2 ^ 19 % 16) bs else s

/-- The tier of a key's plane: 0 to 3. -/
def tierOf (key : Nat) : Nat := if 8 ≤ planeOf key && planeOf key ≤ 15 then 2 else planeOf key

/-! ## Reachability (R273, R429, R431, R434, R439) -/

/-- Whether the HBM4 stack that holds a line is usable. -/
def State.stackReady (s : State) (line : Nat) : Bool :=
  (List.range 16).all fun i => s.readyBit 0 (10 + i) || Config.lineStack line % 16 ≠ i
/-- Whether a root port is usable and its link is up (R431, R439). -/
def State.portLive (s : State) (port : Nat) : Bool := s.rootUp.getLsbD port && s.readyBit 0 (26 + port)
/-- Whether a Ride port is usable and a rail of its link is up (R432, R439). -/
def State.rideLive (s : State) (port : Nat) : Bool := (s.rails[port]?.getD 0) ≠ 0 && s.readyBit 0 (34 + port)
/-- Whether the host port is usable and its link is up (R429, R439). -/
def State.hostLive (s : State) : Bool := s.hostUp && s.readyBit 0 56

/-- The offset in the doorbell aperture of a key of tier 3, if it lies there. -/
def apertureOf (key : Nat) : Option Nat :=
  if planeOf key = 3 && decide (planeAddr key / 2 ^ 21 = Config.bar2Page) then some (planeAddr key % 2 ^ 21) else none
/-- A valid route entry that covers a host address, with its window offset (R434). -/
def State.routeOf (s : State) (addr : Nat) : Option (Nat × (W64 × W64)) :=
  s.routes.find? fun r =>
    let w0 := r.2.1.toNat
    let base := bitsOf w0 51 30 * 2 ^ 30
    bitOf w0 0 && decide (base ≤ addr) && decide (addr < base + (bitsOf r.2.2.toNat 51 34 + 1) * 2 ^ 30)

/-- The lowest-numbered live port of a route entry (R434). -/
def State.routePort (s : State) (w1 : Nat) : Option Nat :=
  (List.range 12).find? fun p => bitOf w1 (22 + p) && s.rideLive p

/-! ## Requests to a peer (R432, R434) -/

/-- The kind of a message, as an index, and the numbers that say what it carries. -/
def rideWords : RideMessage → Nat × List Nat
  | .load o n => (0, [o, n])
  | .store o bs => (1, o :: bs.map BitVec.toNat)
  | .atomic op o n a b => (2, [op.toNat, o, n, a.toNat, b.toNat])
  | .data o bs => (3, o :: bs.map BitVec.toNat)
  | .refused o => (4, [o])
/-- The check code of a flit, over its header and its payload of 240 bytes. -/
def flitCheck (f : RideFlit) : W64 :=
  let (kind, words) := rideWords f.message
  crc64 (toBytes 8 f.header.toNat ++ (Config.ridePayload (kind :: words) ++ List.replicate 240 0).take 240)
/-- A message leaves through a port for a device, with the next sequence number of its virtual channel. -/
def State.sendRide (s : State) (port device : Nat) (m : RideMessage) : State :=
  let (vc, kind) := Config.rideClass (rideWords m).1
  let place := 16 * port + vc % 16
  let seq := mapGet s.rideSent 0 place
  let header := device % 2 ^ 22 + s.devid.toNat * 2 ^ 22 + vc % 16 * 2 ^ 44 + seq.toNat * 2 ^ 48 + kind % 256 * 2 ^ 56
  let flit : RideFlit := { port := port, header := BitVec.ofNat 64 header, message := m, check := 0 }
  { s with rideSent := mapSet s.rideSent place (seq + 1), outputs := s.outputs ++ [.ride { flit with check := flitCheck flit }] }
/-- The peer that serves a key of tier 3: its device, the port that leads there, and the window offset. -/
def State.peerOf (s : State) (key : Nat) : Option (Nat × Nat × Nat) :=
  if planeOf key = 3 && (apertureOf key).isNone then
    match s.routeOf (planeAddr key) with
    | some (_, w0, w1) =>
      (s.routePort w1.toNat).map fun p => (bitsOf w1.toNat 21 0, p, planeAddr key - bitsOf w0.toNat 51 30 * 2 ^ 30)
    | none => none
  else none
/-- An access to a key that a peer serves sends its request. What the peer's memory holds there stands in tier 3, as the peer's answers
show it (DESIGN CHOICE, notes/assumptions/109.md). -/
def State.askPeer (s : State) (key : Nat) (m : Nat → RideMessage) : State :=
  match s.peerOf key with
  | some (device, port, o) => s.sendRide port device (m o)
  | none => s

/-- The bytes of tier 1 that are fitted, at most those of R9. -/
def tier1Limit : Nat := min Config.tier1Bytes (12288 * 10 ^ 9)

/-- Whether an access to a key reaches memory: fitted, and behind links that are up, in units that are ready. An HBM4 stack that is not
ready is out of reach as a link that is down is (DESIGN CHOICE, notes/assumptions/108.md). -/
def State.reachable (s : State) (key : Nat) : Bool :=
  match planeOf key with
  | 0 => decide (planeAddr key < 1024 * 10 ^ 9) && s.stackReady (lineOf key)
  | 1 => decide (planeAddr key < tier1Limit)
      && s.portLive (Config.tier1Port (lineOf key) % 8)
  | 3 =>
    (apertureOf key).isSome || (match s.routeOf (planeAddr key) with
      | some (_, _, w1) => (s.routePort w1.toNat).isSome && !s.rideRefused.contains (lineOf key)
      | none => s.hostLive)
  | _ => true

/-! ## Lines held modified (R272, R290, R298, R388) -/

/-- A modified line discarded (R388). -/
def State.dropLine (s : State) (line : Nat) : State :=
  { s with mem := memClear s.mem (modifiedKey (line * 64)) 64, modified := s.modified.filter (· ≠ line) }

/-- A line of a tier taken as modified before the device stores to it: its bytes so far stay in the tier
(DESIGN CHOICE, notes/assumptions/34.md). -/
def State.dirty (s : State) (line : Nat) : State :=
  if decide (planeOf (line * 64) < 16) && !s.modified.contains line then
    { s with
      mem := memPutBytes s.mem (modifiedKey (line * 64)) (memGetBytes s.mem (line * 64) 64)
      modified := line :: s.modified }
  else s

/-- A line that the device holds modified written back to its tier; the copy stays clean (R290, R298). Where the tier is out of reach
the write is discarded and counted (R429, R431). (DESIGN CHOICE, notes/assumptions/34.md) -/
def State.writeBack (s : State) (line : Nat) : State :=
  if s.modified.contains line && !s.reachable (line * 64) then (s.dropLine line).count (ctrDiscarded (tierOf (line * 64))) 1
  else if s.modified.contains line then
    let copy := memGetBytes s.mem (modifiedKey (line * 64)) 64
    { s with
      mem := memPutBytes (memClear s.mem (modifiedKey (line * 64)) 64) (line * 64) copy
      modified := s.modified.filter (· ≠ line) }
  else s

/-- The copies of a line discarded without writing back (R290 inv): each byte then reads its last written value or what its tier
holds, which is open (DEDUCED, notes/assumptions/42.md). -/
def State.discardLine (s : State) (line : Nat) : State :=
  if s.modified.contains line then
    let key := line * 64
    let kept := (memGetBytes s.mem (modifiedKey key) 64).mapIdx fun i b =>
      if s.openBool (2 ^ 157 + key + i) then b else memGet s.mem (key + i)
    let s := s.dropLine line
    { s with mem := memPutBytes s.mem key kept }
  else s

/-- What has been written to a line through an NC page reaches its tier at once (R275). -/
def State.through (s : State) (nc : Bool) (key : Nat) : State := if nc then s.writeBack (lineOf key) else s

/-- Whether an atomic reaches the tier of its line at once: it executes at the host port or at the root port, by its scope and its page
(R302 Table 3). -/
def farAtomic (scope : Nat) (p : Place) : Bool := p.nc || tierOf p.key = 3 || (tierOf p.key = 2 && decide (3 ≤ scope))

/-! ## The doorbell aperture (R425, R426) -/

/-- What an 8-byte read of the aperture gives: WRSEEN of a queue, with the notifies performed, or a TRCBASE. -/
def State.apertureRead (s : State) (off : Nat) : Nat :=
  if off < 0x80000 then
    let seen := s.wordAt (tierKey 0 ((s.bases[4]?.getD 0).toNat + 64 * (off / 8) + 0x20)) 8
    s.doorbells.foldl (fun n d =>
      if d.offset / 8 = off / 8 && !d.value.getLsbD 63 then max n d.value.toNat else n) seen
  else if 0x100000 ≤ off && off % 16 = 0 then ((mapGet? s.traces ((off - 0x100000) / 16)).map fun t => t.base.toNat).getD 0
  else 0
/-- The value of n bytes as an access reads them: of memory, or of the aperture, which answers 8 bytes and else 0. -/
def State.valueAt (s : State) (key n : Nat) : Nat :=
  match apertureOf key with
  | some off => if n = 8 then s.apertureRead off else 0
  | none => s.wordAt key n
/-- The region of its writer given to the writes of the aperture just performed. -/
def State.claimDoorbells (s : State) (region : Nat) : State :=
  if s.doorbells.isEmpty then s
  else
    let claim (d : Doorbell) : Doorbell := { d with region := some (d.region.getD region) }
    { s with doorbells := s.doorbells.map claim }

/-- Whether the n bytes at a key read as uncorrectable data: n is at most 64 and the bytes lie in one line (R280, R389). -/
def State.uncorrectable (s : State) (key : Nat) : Bool := s.poisoned.contains (lineOf key) || !s.reachable key

/-! ## Timestamps (R292, R293) -/

/-- Write timestamp and read lease of a line. -/
def State.stampOf (s : State) (key : Nat) : W64 × W64 := mapGet s.stamps (0, 0) (lineOf key)
/-- The larger of two timestamps. -/
def laterOf (a b : W64) : W64 := if a.ule b then b else a
/-- The timestamp that follows two others; the last one of the 64-bit space follows itself (DEDUCED, notes/assumptions/12.md). -/
def nextStamp (a b : W64) : W64 :=
  let m := laterOf a b
  if m = BitVec.allOnes 64 then m else m + 1
/-- A timestamp raised by an amount that the device chooses, up to the middle of the 64-bit space
(DEDUCED, notes/assumptions/12.md). -/
def raisedStamp (a : W64) (n : Nat) : W64 := laterOf a (BitVec.ofNat 64 (min (a.toNat + n) (2 ^ 63)))
/-- A load, watch read or engine read stamped: the reader's LTS, which is the load's place, and the lease, which the home
chooses (R293; DEDUCED, notes/assumptions/12.md). -/
def State.stampLoad (s : State) (lts : W64) (key : Nat) : W64 × State :=
  let (wts, rts) := s.stampOf key
  let lts := laterOf lts wts
  let lease := raisedStamp lts (s.openNat (2 ^ 140 + key))
  (lts, { s with stamps := mapSet s.stamps (lineOf key) (wts, laterOf rts lease) })
/-- A store, engine write or atomic stamped (R293). -/
def State.stampStore (s : State) (lts : W64) (key : Nat) : W64 × State :=
  let (_, rts) := s.stampOf key
  let ts := nextStamp lts rts
  (ts, { s with stamps := mapSet s.stamps (lineOf key) (ts, ts) })

/-! ## Atomic operations (R303 Table 5, R308) -/

/-- The new value of an atomic operation of n bytes: old, operand, and the new value of cas. -/
def atomicOp (op n old b new : Nat) : Nat :=
  let w := 8 * n
  match op with
  | 0 => (old + b) % 2 ^ w
  | 1 => old &&& b
  | 2 => old ||| b
  | 3 => old ^^^ b
  | 4 => if signedOf w b < signedOf w old then b else old
  | 5 => if signedOf w old < signedOf w b then b else old
  | 6 => min old b
  | 7 => max old b
  | 8 => b
  | 9 => if old = b then new else old
  | _ => (floatAdd .binary32 0 old b).1
/-- The scalar operation code of a vector operation (R303 Table 5). -/
def vopCode (vop : Nat) : Nat := match vop with | 0 => 0 | 1 => 10 | 2 => 7 | _ => 2
/-- The identity from which a partial starts (R309): of the float addition −0, which leaves every number as it is. -/
def atomicIdentity (op n : Nat) : Nat :=
  match op with
  | 1 | 6 => 2 ^ (8 * n) - 1
  | 4 => 2 ^ (8 * n - 1) - 1
  | 5 => 2 ^ (8 * n - 1)
  | 10 => 2 ^ 31
  | _ => 0

/-! ## Conflicts with overrun (R316) -/

/-- Whether a write to a line conflicts with a checkpoint bank's read set: an exact entry or a filter entry; a filter may
also hit a line that was not read (DEDUCED, notes/assumptions/14.md). -/
def bankConflict (s : State) (b : CheckpointBank) (line : Nat) : Bool :=
  b.owner.isSome && (b.exact.contains line || b.filter.contains line
    || (!b.filter.isEmpty && s.openBool (2 ^ 150 + line)))

/-- The overrunners whose read set a write to a line hits. -/
def State.conflicts (s : State) (line : Nat) : List Nat :=
  (s.cores.map fun c => (c.2.banks.filter fun b => bankConflict s b line).filterMap CheckpointBank.owner).flatten

/-- Whether a watch is satisfied by a read made now: by its condition, by a poisoned line (R389), or by a lost place. -/
def State.watchHolds (s : State) (w : Watch) : Bool :=
  let x := s.valueAt w.place.key w.size
  s.uncorrectable w.place.key || (if w.eq then x = w.value.toNat else decide (w.value.toNat ≤ x))

/-- The watches of a context on a line, read after a write to it (R289). A pre-empted context's scratchpad is in its image: what others
write to the bank it had is no write to its words (R33). -/
def State.readWatches (s : State) (k line : Nat) : State :=
  let reads (w : Watch) : Bool := (lineOf w.place.key == line) && !(w.spad && parked k)
  if (s.ctx k).watches.any reads then
    let read (w : Watch) : Watch := if reads w && s.watchHolds w then { w with hit := true } else w
    s.updCtx k fun c => { c with watches := c.watches.map read }
  else s

/-- The comparison of a WAIT (R349 Table 5 COND). -/
def waitCond (cond x v : Nat) : Bool :=
  match cond with
  | 0 => x = v
  | 1 => x ≠ v
  | 2 => decide (signedOf 64 x < signedOf 64 v)
  | _ => decide (signedOf 64 v ≤ signedOf 64 x)
/-- The lines that a BLOCKED queue watches (R352). -/
def QueueHold.watchedLines (h : QueueHold) : List Nat :=
  match h.blocked with
  | some (.words keys _ _ _ _) => keys.map lineOf
  | _ => []
/-- A queue that waits for words evaluates them again after a write to one of their lines (R352). -/
def State.readQueueWatches (s : State) (line : Nat) : State :=
  let read (h : QueueHold) : QueueHold :=
    match h.blocked with
    | some (.words keys cond v timeout passed) =>
      let holds := keys.all fun key => !s.uncorrectable key && waitCond cond (s.valueAt key 8) v.toNat
      { h with blocked := some (.words keys cond v timeout (passed || holds)) }
    | _ => h
  if s.queues.any fun q => q.2.watchedLines.contains line then
    { s with queues := s.queues.map fun q => (q.1, if q.2.watchedLines.contains line then read q.2 else q.2) }
  else s

/-- A write performed to a line: each overrunner it conflicts with rolls back once its work has drained (R316, R317), and
each watch on the line is read again, those of contexts and those of queues (R289, R352). (DEDUCED, notes/assumptions/51.md) -/
def State.noteWrite (s : State) (key : Nat) : State :=
  let s := (s.conflicts (lineOf key)).foldl (fun s k =>
    s.updCtx k fun c => if c.drain = .none then { c with drain := .rollback } else c) s
  ((s.ctxs.filter fun c => !c.2.watches.isEmpty).foldl (fun s c => s.readWatches c.1 (lineOf key)) s).readQueueWatches (lineOf key)

/-! ## Performing accesses -/

/-- Bytes stored at a key, all in one line: discarded and counted where no memory is reached (R273, R429, R431, R434); a
line of a tier is taken as modified (R272, R298, R388). -/
def State.storeRaw (s : State) (key : Nat) (bytes : List Byte) : State :=
  if (apertureOf key).isSome then
    if bytes.length = 8 then
      { s with doorbells := s.doorbells ++
          [{ offset := (apertureOf key).getD 0, value := BitVec.ofNat 64 (ofBytes bytes), region := none }] }
    else s
  else if !s.reachable key then s.count (ctrDiscarded (tierOf key)) 1
  else
    let s := ((s.dirty (lineOf key)).pokeBytes key bytes).noteStored key bytes
    let s := if bytes.length = 64 then { s with poisoned := s.poisoned.filter (· ≠ lineOf key) } else s
    s.noteWrite key

/-- A line comes to hold uncorrectable data (R389). -/
def State.poisonLine (s : State) (line : Nat) : State :=
  if s.poisoned.contains line then s else { s with poisoned := s.poisoned ++ [line] }

/-- The partials of a line merged into its home value, in ascending die number (R309). (DEDUCED, notes/assumptions/15.md) -/
def State.mergeLine (s : State) (line : Nat) : State :=
  match mapGet? s.partials line with
  | none => s
  | some ops =>
    let s := { s with partials := mapErase s.partials line }
    let s := (s.stampStore 0 (line * 64)).2
    let cells := (ops.map fun p => (p.key, p.size, p.op)).eraseDups
    cells.foldl (fun s (key, size, op) =>
      let dies := (List.range 8).filter fun d => ops.any fun p => p.die = d && p.key = key
      let value := dies.foldl (fun v d =>
        let part := (ops.filter fun p => p.die = d && p.key = key).foldl
          (fun a p => atomicOp p.op size a p.value.toNat 0) (atomicIdentity op size)
        atomicOp op size v part 0) (s.wordAt key size)
      s.storeRaw key (toBytes size value)) s

/-- The outcome of a performed read: the value, or none for uncorrectable data, and the reader's LTS. -/
structure ReadResult where
  value : Option Nat
  lts : W64
  state : State

/-- A load of n bytes of one line, stamped (R293). -/
def State.loadAt (s : State) (lts : W64) (key n : Nat) : ReadResult :=
  let s := (s.mergeLine (lineOf key)).askPeer key (.load · n)
  let v := if s.uncorrectable key then none else some (s.valueAt key n)
  let s := if v.isNone then s.count (ctrUncorrectable 0 (tierOf key % 4)) 1 else s
  let (lts, s) := s.stampLoad lts key
  { value := v, lts := lts, state := s }

/-- A store of bytes of one line, stamped (R293). (DEDUCED, notes/assumptions/39.md) -/
def State.storeAt (s : State) (lts : W64) (key : Nat) (bytes : List Byte) : W64 × State :=
  let s := (s.mergeLine (lineOf key)).askPeer key (.store · bytes)
  let (lts, s) := s.stampStore lts key
  (lts, s.storeRaw key bytes)

/-- An atomic of n bytes, read and written at one timestamp (R293, R304): the old value, or none where the line holds
uncorrectable data, which is then left as it is (R304, R305). -/
def State.atomicAt (s : State) (lts : W64) (key n op : Nat) (b new : W64) : ReadResult :=
  let s := (s.mergeLine (lineOf key)).askPeer key fun o => .atomic (BitVec.ofNat 4 op) o n b new
  if s.uncorrectable key then { value := none, lts := lts, state := s.count (ctrUncorrectable 0 (tierOf key % 4)) 1 }
  else if (apertureOf key).isSome then { value := some 0, lts := lts, state := s }
  else
    let old := s.wordAt key n
    let (lts, s) := s.stampStore lts key
    { value := some old, lts := lts,
      state := s.storeRaw key (toBytes n (atomicOp op n old (b.toNat % 2 ^ (8 * n)) (new.toNat % 2 ^ (8 * n)))) }

/-- A reduction: at DEV scope on a line of tier 0 or 1 the home slice may let the die keep it in a partial
(R309; DEDUCED, notes/assumptions/15.md), unless a watch reads the line after it (R289); elsewhere it acts as an atomic. The flag says that it was dropped (R305, R392).
(DESIGN CHOICE, notes/assumptions/56.md) -/
def State.reduceAt (s : State) (lts : W64) (die scope key n op : Nat) (b : W64) : Bool × W64 × State :=
  let line := lineOf key
  let sameOp := ((mapGet? s.partials line).getD []).all fun p => p.op = op && p.size = n
  let watched := (s.ctxs.any fun c => c.2.watches.any fun w => lineOf w.place.key = line)
    || s.queues.any fun q => q.2.watchedLines.contains line
  if scope = 2 && tierOf key ≤ 1 && die < 8 && sameOp && !watched && !s.uncorrectable key && s.openBool (2 ^ 151 + key) then
    let old := (mapGet? s.partials line).getD []
    let p : PartialOp := { die := die, op := op, size := n, key := key, value := BitVec.ofNat 64 (b.toNat % 2 ^ (8 * n)) }
    let lts := nextStamp lts (s.stampOf key).2
    let s := { s with partials := mapSet s.partials line (old ++ [p]),
                      stamps := mapSet s.stamps line (laterOf (s.stampOf key).1 lts, laterOf (s.stampOf key).2 lts) }
    (false, lts, s.noteWrite key)
  else
    let r := s.atomicAt lts key n op b 0
    (r.value.isNone, r.lts, if r.value.isNone then r.state.count (ctrDropped (die % 8)) 1 else r.state)

/-! ## Translation (R274 to R278) -/

/-- The pool map entry of a pool tier address (R405). -/
def State.poolEntry (s : State) (addr : Nat) : Option (Nat × PoolEntry) :=
  s.pool.find? fun e => e.2.pridx = bitsOf addr 47 30 && e.2.state ≠ .unmapped

/-- A PTE with V = 1 that is malformed at a level (R276), but for the pages of a 64 KiB group.
(DEDUCED, notes/assumptions/26.md) -/
def pteMalformed (level pte : Nat) : Bool :=
  let leaf := bitsOf pte 3 1 ≠ 0
  bitsOf pte 11 9 ≠ 0 || bitsOf pte 63 52 ≠ 0
    || (!leaf && (bitOf pte 4 || bitOf pte 5 || bitOf pte 8 || bitsOf pte 7 6 ≥ 2 || level = 0))
    || (leaf && 3 ≤ level)
    || (bitOf pte 2 && !bitOf pte 1)
    || (bitOf pte 8 && level ≠ 0)
    || (leaf && level = 2 && bitsOf pte 29 12 ≠ 0)
    || (leaf && level = 1 && bitsOf pte 20 12 ≠ 0)
    || (leaf && bitsOf pte 7 6 = 2 && bitsOf pte 51 48 ≠ 0)

/-- The outcome of a walk: a leaf with its page size in log₂ bytes, or a cause; whether a PTE could not be read. -/
inductive WalkResult where
  | leaf (pte size : Nat)
  | fault (cause : Cause) (unreadable : Bool)
deriving DecidableEq, Repr

/-- A PTE as the walker's load reads it: the partials of its line merge (R278, R309). -/
def State.pteAt (s : State) (tier addr : Nat) : Option Nat :=
  if s.uncorrectable (tierKey tier addr) then none
  else some ((s.mergeLine (lineOf (tierKey tier addr))).wordAt (tierKey tier addr) 8)

/-- The leaf of an aligned 64 KiB range whose sixteen PTEs start at a table address (R276): the sixteen all carry CG = 1 with
consecutive PPNs and equal other fields, or all carry CG = 0, as far as they can be read; otherwise one of them is used, which
one is open: its PPN has to be the one that its place in the range asks for (DEDUCED, notes/assumptions/16.md). -/
def State.groupLeaf (s : State) (tier addr va : Nat) : WalkResult :=
  let base := addr / 128 * 128
  let own := s.pteAt tier addr
  let all := tabulate (fun i => s.pteAt tier (base + 8 * i)) 16 0
  let read := (all.mapIdx fun i p => p.map fun p => (i, p)).filterMap id
  match own with
  | none => .fault .accessFault true
  | some p =>
    let first := p - addr % 128 / 8 * 4096
    if read.all fun x => !bitOf x.2 8 then .leaf p 12
    else if read.all fun x => decide (x.2 = first + x.1 * 4096) then
      if bitsOf first 15 12 ≠ 0 then .fault .accessFault false else .leaf first 16
    else
      let j := s.openNat (2 ^ 152 + va / 65536) % 16
      match all.getD j none with
      | none => .fault .accessFault true
      | some q =>
        if !bitOf q 0 then .fault .pageFault false
        else if pteMalformed 0 q || (bitOf q 8 && bitsOf q 15 12 ≠ j) then .fault .accessFault false
        else if bitOf q 8 then .leaf (q - j * 4096) 16 else .leaf q 12

/-- The walk from a table at a tier address, at a level (R274). (DEDUCED, notes/assumptions/26.md) -/
def State.walkFrom (s : State) (va : Nat) : Nat → Nat → Nat → WalkResult
  | level, tier, table =>
    if 2 ≤ tier then .fault .accessFault false
    else
      let addr := table + 8 * bitsOf va (20 + 9 * level) (12 + 9 * level)
      match s.pteAt tier addr with
      | none => .fault .accessFault true
      | some pte =>
        if !bitOf pte 0 then .fault .pageFault false
        else if pteMalformed level pte then .fault .accessFault false
        else if bitsOf pte 3 1 = 0 then
          match level with
          | 0 => .fault .accessFault false
          | l + 1 => s.walkFrom va l (bitsOf pte 7 6) (bitsOf pte 51 12 * 4096)
        else if level = 0 then s.groupLeaf tier addr va
        else .leaf pte (12 + 9 * level)

/-- The walk of a virtual address from a table root (R274, R396 PTBASE). -/
def State.walk (s : State) (ptbase : W64) (va : Nat) : WalkResult :=
  s.walkFrom (va % 2 ^ 57) 4 (ptbase.toNat % 4) (bitsOf ptbase.toNat 51 12 * 4096)

/-- The keys of the PTEs that a walk reads (R274, R278). -/
def State.walkKeys (s : State) (va : Nat) : Nat → Nat → Nat → List Nat
  | level, tier, table =>
    if 2 ≤ tier then []
    else
      let addr := table + 8 * bitsOf va (20 + 9 * level) (12 + 9 * level)
      tierKey tier addr :: match s.pteAt tier addr, level with
        | some pte, l + 1 =>
          if bitOf pte 0 && !pteMalformed (l + 1) pte && bitsOf pte 3 1 = 0 then
            s.walkKeys va l (bitsOf pte 7 6) (bitsOf pte 51 12 * 4096)
          else []
        | _, _ => []

/-- The loads of a walk stamped, and the partials of their lines merged: each comes before the access that the walk serves
(R278, R293, R309). -/
def State.stampWalk (s : State) (lts : W64) (ptbase : W64) (va : Nat) : W64 × State :=
  (s.walkKeys (va % 2 ^ 57) 4 (ptbase.toNat % 4) (bitsOf ptbase.toNat 51 12 * 4096)).foldl
    (fun x key => (x.2.mergeLine (lineOf key)).stampLoad x.1 key) (lts, s)

/-- The tier address of a virtual address under a leaf PTE. -/
def leafAddr (pte size va : Nat) : Nat := bitsOf pte 51 12 * 4096 / 2 ^ size * 2 ^ size + va % 2 ^ size

/-- What an access asks of a page. -/
inductive PageUse where
  | load | store | update | fetch
deriving DecidableEq, Repr

/-- Steps 5 and 6 of R277 for an access under a leaf PTE: the place, or the cause. fetch needs X (R72). -/
def State.checkLeaf (s : State) (use : PageUse) (user : Bool) (pte size va : Nat) : Except Cause Place :=
  let r := bitOf pte 1
  let w := bitOf pte 2
  let x := bitOf pte 3
  let ok := match use with | .load => r | .store => w | .update => r && w | .fetch => x
  let addr := leafAddr pte size va
  let nc := bitOf pte 5
  if !ok || (user && !bitOf pte 4) then .error .accessFault
  else
    match bitsOf pte 7 6 with
    | 2 =>
      match s.poolEntry addr with
      | none => .error .accessFault
      | some (_, e) =>
        if e.state = .active then .ok { key := poolKey e.port (e.target + addr % 2 ^ 30), nc := nc }
        else .error .poolRegionLost
    | 3 =>
      if !nc && ((s.routeOf addr).isSome || !s.cxlCache) then .error .accessFault
      else .ok { key := tierKey 3 addr, nc := nc }
    | t => .ok { key := tierKey t addr, nc := nc }

/-- The outcome of a translation: the place, a cause, or a walk is needed first. -/
inductive Translation where
  | place (p : Place)
  | fault (cause : Cause)
  | walk
deriving DecidableEq, Repr

/-- The entry of a TLB that covers an address in an ASID slot. -/
def tlbFind (tlb : List TlbEntry) (asid va : Nat) : Option TlbEntry :=
  tlb.find? fun e => e.asid = asid && e.vpn = va / 2 ^ e.size

/-- The entry of a cluster's or its die's TLB that covers an address (R278). -/
def State.tlbLookup (s : State) (cluster asid va : Nat) : Option TlbEntry :=
  match tlbFind (s.cluster cluster).tlb asid va with
  | some e => some e
  | none => tlbFind (s.die (dieOf cluster)).tlb asid va

/-- An entry installed in the TLBs of a cluster and its die; the oldest entry is displaced (R278; DESIGN CHOICE, notes/assumptions/7.md). -/
def State.tlbInstall (s : State) (cluster : Nat) (e : TlbEntry) : State :=
  let s := s.updCluster cluster fun c => { c with tlb := (e :: c.tlb).take 256 }
  s.updDie (dieOf cluster) fun d => { d with tlb := (e :: d.tlb).take 16384 }

/-- The translation of a 57-bit address (steps 3 to 6 of R277): from the TLBs, or by a walk where the caller has one made
already or makes none wait (walked). (DEDUCED, notes/assumptions/82.md) -/
def State.translate (s : State) (cluster asid : Nat) (ptbase : W64) (use : PageUse) (user walked : Bool) (va : Nat) :
    Translation :=
  let fromLeaf (pte size : Nat) : Translation :=
    match s.checkLeaf use user pte size va with
    | .ok p => .place p
    | .error c => .fault c
  match s.tlbLookup cluster asid va with
  | some e => fromLeaf e.pte.toNat e.size
  | none =>
    if walked then
      match s.walk ptbase va with
      | .leaf pte size => fromLeaf pte size
      | .fault c _ => .fault c
    else .walk

/-- The walk of a failed access, where a PTE could not be read: it counts as uncorrectable data found (R277, R413). -/
def State.countWalk (s : State) (die : Nat) (ptbase : W64) (va : Nat) : State :=
  match s.walk ptbase va with
  | .fault _ true => s.count (ctrUncorrectable (die % 8) 0) 1
  | _ => s
/-- The same for an access through the TLBs of a cluster, which walks only where they miss. -/
def State.countMiss (s : State) (cluster asid : Nat) (ptbase : W64) (va : Nat) : State :=
  if (s.tlbLookup cluster asid va).isNone && decide (va < 2 ^ 57) then s.countWalk (dieOf cluster) ptbase va else s

end Sys2Proof.Machine
end

