-- ==== Sys2Proof/Machine/Hash.lean ====
section
/-! DEFINITION. The state hash of a command (R422). -/

namespace Sys2Proof.Machine

/-- Whether a region's debug service records or replays (R414 Table 6 MODE). -/
def TraceService.logs (t : TraceService) : Bool := t.mode.getLsbD 1 || t.mode.getLsbD 2

/-- The contribution of one written word: its virtual address and its value after the write (R422). -/
def wordHash (a w : W64) : W64 :=
  let x := a ^^^ w.rotateLeft 29
  let x := (x ^^^ (x >>> 30)) * 0xBF58476D1CE4E5B9
  let x := (x ^^^ (x >>> 27)) * 0x94D049BB133111EB
  x ^^^ (x >>> 31)

/-- Whether the writes of a region's commands are hashed. -/
def State.hashing (s : State) (region : Nat) : Bool :=
  match mapGet? s.traces region with | some t => t.logs | none => false

/-- A write of n bytes just made by a command counts in its state hash, word by word (R422). -/
def State.hashWrite (s : State) (region command : Nat) (va : W64) (key n : Nat) : State :=
  if s.hashing region then
    let first := va.toNat / 8
    let words := (va.toNat + n - 1) / 8 + 1 - first
    let h := (List.range words).foldl (fun (h : W64) i =>
      h + wordHash (BitVec.ofNat 64 (8 * (first + i))) (BitVec.ofNat 64 (s.wordAt (key / 8 * 8 + 8 * i) 8))) 0
    s.updCommand command fun c => { c with hash := c.hash + h }
  else s

/-- A global write of n bytes just made by a context (R422). (DESIGN CHOICE, notes/assumptions/56.md) -/
def State.hashFor (s : State) (k : Nat) (va : W64) (key n : Nat) : State :=
  match s.groupOf k with
  | some g => s.hashWrite g.region g.command va key n
  | none => s

end Sys2Proof.Machine
end

