-- ==== Sys2Proof/Machine/Ops.lean ====
section
/-! DEFINITION. The shared operations over contexts: reads and writes of the register files (R97, R98, R121, R124), results
in flight and their landing (R55 to R58), CSR reads and writes (R250, R263), counting (R410, R411), flag events (R58, R98),
taking a trap and returning from one (R64, R243, R259, R260), blocks and switches (R26 to R29). -/

namespace Sys2Proof.Machine

/-! ## Register files -/

/-- A scalar register as last written (R97). -/
def Ctx.sreg (c : Ctx) (r : Nat) : W64 := c.s[r]?.getD 0
/-- A scalar register written. -/
def Ctx.setS (c : Ctx) (r : Nat) (x : W64) : Ctx := { c with s := c.s.setIfInBounds r x }
/-- A row of a vector register (R121). -/
def Ctx.vrow (c : Ctx) (v row : Nat) : Row := ((c.v[v]?.getD VReg.zero)[row]?).getD Row.zero
/-- A vector register with one row replaced. -/
def rowSet (r : VReg) (row : Nat) (x : Row) : VReg := r.setIfInBounds row x
/-- The lanes of a mask taken from new, the others from old (R45). -/
def mergeLanes (m : W64) (old new : Row) : Row := Vector.ofFn fun c => if m.getLsbD c.val then laneOf new c.val else laneOf old c.val
/-- The lanes of one row of a vector register written. -/
def Ctx.setVrow (c : Ctx) (v row : Nat) (m : W64) (x : Row) : Ctx :=
  { c with v := c.v.setIfInBounds v (rowSet (c.v[v]?.getD VReg.zero) row (mergeLanes m (c.vrow v row) x)) }
/-- A mask register: k0 reads all ones (R124). -/
def Ctx.kreg (c : Ctx) (k : Nat) : W64 := if k = 0 then BitVec.allOnes 64 else c.k[k]?.getD 0
/-- Lanes of a mask register written; a write to k0 is discarded (R52, R124). -/
def Ctx.setK (c : Ctx) (k : Nat) (m x : W64) : Ctx :=
  if k = 0 then c else { c with k := c.k.setIfInBounds k (mergeMask m (c.kreg k) x) }
/-- FL as read: FL0 reads 1 (R98). -/
def Ctx.flags (c : Ctx) : BitVec 16 := c.fl ||| 1
/-- Flag bits written; FL0 keeps 1 (R98). -/
def Ctx.setFlags (c : Ctx) (m x : BitVec 16) : Ctx := { c with fl := (c.fl &&& ~~~m) ||| (x &&& m) ||| 1 }
/-- The bit of one flag. -/
def flagMask (f : Nat) : BitVec 16 := (1 : BitVec 16) <<< f

/-- A scalar part of the slot latches: 0 SA, 1 SB, 2 FN, 3 MA, 4 MB. -/
def Latches.scalar (l : Latches) (i : Nat) : W64 := l.sc[i]?.getD 0
/-- A row of a vector part of the slot latches: 0 VA, 1 VB, 2 VC, 3 FN, 4 MA, 5 MB. -/
def Latches.row (l : Latches) (i row : Nat) : Row := ((l.vec[i]?.getD VReg.zero)[row]?).getD Row.zero
/-- A scalar part written. -/
def Latches.setScalar (l : Latches) (i : Nat) (x : W64) : Latches := { l with sc := l.sc.setIfInBounds i x }
/-- A row of a vector part written. -/
def Latches.setRow (l : Latches) (i row : Nat) (x : Row) : Latches :=
  { l with vec := l.vec.setIfInBounds i (rowSet (l.vec[i]?.getD VReg.zero) row x) }
/-- The scalar latch part of a slot, by slot index. -/
def scalarLatch (slot : Nat) : Nat := match slot with | 0 => 0 | 1 => 1 | 5 => 2 | 6 => 3 | _ => 4
/-- The vector latch part of a slot, by slot index. -/
def vectorLatch (slot : Nat) : Nat := match slot with | 2 => 0 | 3 => 1 | 4 => 2 | 5 => 3 | 6 => 4 | _ => 5

/-! ## Performance counters (R410, R411) -/

/-- One counter raised by n: COUNT modulo 2^48, OVF on a wrap. -/
def pmcBump (w : W64) (n : Nat) : W64 :=
  let c := bitsOf w.toNat 47 0 + n
  let w := BitVec.ofNat 64 (w.toNat / 2 ^ 48 * 2 ^ 48 + c % 2 ^ 48)
  if 2 ^ 48 ≤ c then w ||| BitVec.ofNat 64 (2 ^ 56) else w
/-- Events of one code counted by a context's counters that are enabled for it. -/
def Ctx.countEvent (c : Ctx) (evt n : Nat) : Ctx :=
  if n = 0 then c
  else { c with pmc := c.pmc.map fun w => if w.getLsbD 63 && bitsOf w.toNat 55 48 = evt then pmcBump w n else w }
/-- A context event counted (R411); nothing counts for a FREE context. -/
def State.event (s : State) (k evt n : Nat) : State :=
  if (s.ctx k).phase = .free then s else s.updCtx k fun c => c.countEvent evt n

/-- A core or cluster event counted by one context, in supervisor state only (R411). -/
def State.coreEvent (s : State) (k evt n : Nat) : State := if s.supervisor k then s.event k evt n else s
/-- A cluster event counted by every context resident on the cluster (R411). -/
def State.clusterEvent (s : State) (cluster evt n : Nat) : State :=
  if cluster < 256 then (tabulate id 16 (16 * cluster)).foldl (fun s k => s.coreEvent k evt n) s else s

/-! ## CSRs (R250, R263) -/

/-- TSTATUS of a context (R264). -/
def Ctx.tstatus (c : Ctx) : W64 :=
  let phs := match c.phaseRec with | none => 0 | some p => if p.exposed then 2 else 1
  BitVec.ofNat 64 ((if c.user then 1 else 0) + (if c.prevUser then 2 else 0) + 4 * c.nesting.toNat + 16 * phs
    + (if c.overrun.isSome then 64 else 0))

/-- The value a csrr of a CSR returns at t (R250, R263), but for 0x200 to 0x203 and 0x205 to 0x207 (R356, R452).
(DESIGN CHOICE, notes/assumptions/38.md) -/
def State.csrRead (s : State) (k n : Nat) : W64 :=
  let c := s.ctx k
  if 0x010 ≤ n && n ≤ 0x01F then c.ba[n - 0x010]?.getD 0
  else if 0x020 ≤ n && n ≤ 0x02F then c.fmt[n - 0x020]?.getD 0
  else if 0x040 ≤ n && n ≤ 0x05F then c.ts[n - 0x040]?.getD 0
  else if 0x080 ≤ n && n ≤ 0x08F then c.pmcBefore[n - 0x080]?.getD 0
  else if 0x090 ≤ n && n ≤ 0x0CF then c.pat[n - 0x090]?.getD 0
  else
    match n with
    | 0x000 => BitVec.ofNat 64 (k + c.pos * 4096)
    | 0x001 => c.lmask
    | 0x002 => c.vstat.zeroExtend 64
    | 0x003 => c.frm.zeroExtend 64
    | 0x004 => c.gang
    | 0x005 => BitVec.ofNat 64 (c.dictHandle % 8 + c.dictObj % 2 ^ 57 / 128 * 128)
    | 0x060 => c.adt
    | 0x070 => BitVec.ofNat 64 s.clk
    | 0x071 => c.lts
    | 0x0D0 => c.rvto
    | 0x100 => c.tvec.zeroExtend 64
    | 0x101 => c.tcause.zeroExtend 64
    | 0x102 => c.tepc.zeroExtend 64
    | 0x103 => c.tval
    | 0x104 => c.tstatus
    | 0x105 => c.tnpc.zeroExtend 64
    | 0x106 => BitVec.ofNat 64 ((s.slotHolding (s.ptbase (s.regionOf k))).getD 0)
    | 0x107 => s.ptbase (s.regionOf k)
    | 0x108 => BitVec.ofNat 64 (s.regionOf k)
    | 0x109 => c.tscratch
    | 0x204 => c.uqsel.zeroExtend 64
    | 0x208 => c.userve.zeroExtend 64
    | _ => 0

/-- RVTO as stored (R218 Table 4). -/
def legalRvto (x : W64) : W64 := if x.ult 1000 then 1000 else if (1000000000 : W64).ult x then 1000000000 else x

/-- A CSR write stored with its own legalisation (R99, R102, R218, R250, R264, R410). -/
def Ctx.csrWrite (c : Ctx) (n : Nat) (x : W64) : Ctx :=
  if 0x020 ≤ n && n ≤ 0x02F then { c with fmt := c.fmt.setIfInBounds (n - 0x020) x }
  else if 0x040 ≤ n && n ≤ 0x05F then { c with ts := c.ts.setIfInBounds (n - 0x040) x }
  else if 0x080 ≤ n && n ≤ 0x08F then
    { c with pmc := c.pmc.setIfInBounds (n - 0x080) (x &&& BitVec.ofNat 64 (2 ^ 64 - 1 - 63 * 2 ^ 57)) }
  else if 0x090 ≤ n && n ≤ 0x0CF then { c with pat := c.pat.setIfInBounds (n - 0x090) x }
  else
    match n with
    | 0x001 => { c with lmask := x }
    | 0x002 => { c with vstat := x.truncate 13 }
    | 0x003 => { c with frm := if x.toNat % 8 ≤ 4 then x.truncate 3 else 0 }
    | 0x004 => { c with gang := x }
    | 0x060 => { c with adt := x &&& BitVec.ofNat 64 (2 ^ 64 - 64) }
    | 0x0D0 => { c with rvto := legalRvto x }
    | 0x100 => { c with tvec := x.truncate 57 }
    | 0x101 => { c with tcause := x.truncate 12 }
    | 0x102 => { c with tepc := x.truncate 57 }
    | 0x103 => { c with tval := x }
    | 0x104 => { c with user := x.getLsbD 0, prevUser := x.getLsbD 1, nesting := (x >>> 2).truncate 2 }
    | 0x105 => { c with tnpc := x.truncate 57 }
    | 0x109 => { c with tscratch := x }
    | 0x204 => { c with uqsel := x.truncate 17 }
    | 0x208 => { c with userve := x.truncate 8 }
    | _ => c

/-! ## Results in flight (R55 to R58, R100) -/

/-- The lanes, bits or flags that two landings both write (R56, R57): every bit stands for a common scalar register, CSR
excepted, or a common latch row. -/
def Landing.common : Landing → Landing → W64
  | .scalar r _, .scalar r' _ => if r = r' then BitVec.allOnes 64 else 0
  | .vrow v row m _, .vrow v' row' m' _ => if v = v' && row = row' then m &&& m' else 0
  | .kmask k m _, .kmask k' m' _ => if k = k' then m &&& m' else 0
  | .flags m _, .flags m' _ => (m &&& m').zeroExtend 64
  | .latchS l _, .latchS l' _ => if l = l' then BitVec.allOnes 64 else 0
  | .latchV l row _, .latchV l' row' _ => if l = l' && row = row' then BitVec.allOnes 64 else 0
  | _, _ => 0

/-- What a write issued later takes from one issued earlier that is due no earlier (R56, R57). A flag event takes nothing and
loses nothing (R58). -/
def Pending.overtakes (late early : Pending) : W64 :=
  if decide (early.issued < late.issued) && decide (late.due ≤ early.due) && decide (late.slot < 15) && decide (early.slot < 15)
  then late.what.common early.what else 0

/-- A result added to those in flight. What of two inverted writes both write is contested in the one issued earlier
(R56, R57). -/
def addPending (ps : List Pending) (p : Pending) : List Pending :=
  (ps.map fun q => { q with contested := q.contested ||| p.overtakes q })
    ++ [{ p with contested := ps.foldl (fun m q => m ||| q.overtakes p) p.contested }]

/-- The cycle at which a result row of a task, or its mask result, can be read (R55, R143). -/
def RowTask.dueOf (r : RowTask) (row : Nat) : Nat :=
  match r.result with
  | .mask => r.issued + r.lat + r.rn + 1
  | _ => r.issued + r.lat + r.step * (row - r.rb) + 1

/-- The lanes of a result that a task has yet to compute which a write issued after it, due no later, takes (R56): the result row
(0 for a mask register) and the lanes. -/
def RowTask.overtakenBy (r : RowTask) (p : Pending) : List (Nat × W64) :=
  let lanes (row : Nat) (m : W64) : List (Nat × W64) :=
    if decide (r.issued < p.issued) && decide (p.due ≤ r.dueOf row) && decide (p.slot < 15) then [(row, m &&& r.inp.mask)] else []
  match p.what, r.ws, r.result with
  | .vrow v row m _, false, .rows => if r.dst = v && decide (r.rb + r.k ≤ row) && decide (row ≤ r.rb + r.rn) then lanes row m else []
  | .vrow v row m _, false, .column => if r.dst = v && decide (r.rb ≤ row) && decide (row ≤ r.rb + r.rn) then lanes row m else []
  | .kmask k m _, false, .mask => if r.dst % 8 = k then lanes 0 m else []
  | _, _, _ => []

/-- The lanes of a result row that writes issued later have overtaken. -/
def RowTask.contestedAt (r : RowTask) (row : Nat) : W64 :=
  r.contested.foldl (fun m x => if x.1 = row then m ||| x.2 else m) 0

/-- A result of a context put in flight. -/
def State.addPending (s : State) (k : Nat) (p : Pending) : State :=
  s.updCtx k fun c => { c with
    pending := Machine.addPending c.pending p
    rows := c.rows.map fun r => { r with contested := r.contested ++ r.overtakenBy p } }

/-- The enabled flags of some status bits joined to those that wait for FP_TRAP, with the lowest raising slot (R101): enables is
VSTAT[12:8]. -/
def raiseFp (enables slot : Nat) (bits : BitVec 8) (fp : Option (BitVec 5 × Nat)) : Option (BitVec 5 × Nat) :=
  let raised := BitVec.ofNat 5 (bits.toNat % 32 &&& enables)
  if raised = 0 then fp
  else
    match fp with
    | none => some (raised, slot)
    | some (f, l) => some (f ||| raised, min l slot)

/-- A landing applied to the context it belongs to. -/
def Ctx.land (c : Ctx) : Landing → Ctx
  | .scalar r x => c.setS r x
  | .vrow v row m x => c.setVrow v row m x
  | .kmask k m x => c.setK k m x
  | .flags m x => c.setFlags m x
  | .csr n x => c.csrWrite n x
  | .status slot b =>
    { c with vstat := c.vstat ||| b.zeroExtend 13, fpPending := raiseFp (c.vstat.toNat / 256) slot b c.fpPending }
  | _ => c

/-- A landing applied to a checkpoint (R256 Table 9). (DEDUCED, notes/assumptions/44.md) -/
def Snapshot.land (x : Snapshot) : Landing → Snapshot
  | .scalar r v => { x with s := x.s.setIfInBounds r v }
  | .vrow v row m r =>
    let old := x.v[v]?.getD VReg.zero
    { x with v := x.v.setIfInBounds v (rowSet old row (mergeLanes m ((old[row]?).getD Row.zero) r)) }
  | .kmask k m v => if k = 0 then x else { x with k := x.k.setIfInBounds k (mergeMask m (x.k[k]?.getD 0) v) }
  | .flags m v => { x with fl := (x.fl &&& ~~~m) ||| (v &&& m) ||| 1 }
  | .csr n v => { x with csrs := x.csrs.map fun p => if p.1 = n then (n, v) else p }
  | .status slot b =>
    { x with
      csrs := x.csrs.map fun p => if p.1 = 0x002 then (p.1, p.2 ||| b.zeroExtend 64) else p
      fpPending := x.csrs.foldl (fun fp p => if p.1 = 0x002 then raiseFp (p.2.toNat / 256) slot b fp else fp) x.fpPending }
  | _ => x

/-- The checkpoint bank in which a context overruns. -/
def State.overrunBank (s : State) (k : Nat) : Option CheckpointBank :=
  (s.ctx k).overrun.bind fun b => (s.core (coreOf k)).banks[b]?
/-- A checkpoint bank of a core changed. -/
def State.updBank (s : State) (core b : Nat) (f : CheckpointBank → CheckpointBank) : State :=
  s.updCore core fun c => { c with banks := setPlace c.banks b (f (c.banks.getD b CheckpointBank.empty)) }

/-- A place in the program order of a context (R319): the cycle of issue, then the number in the order of issue; of one number loads come
before stores. -/
def placeInOrder (cycle number : Nat) (store : Bool) : Nat := cycle * 2 ^ 64 + 2 * number + store.toNat
/-- The place of row k of a scratchpad vector store: as if issued at t + k, after what the bundle of that cycle does
(R287; DEDUCED, notes/assumptions/22.md). -/
def rowPlace (cycle number k : Nat) : Nat := if k = 0 then placeInOrder cycle number true else placeInOrder (cycle + k) number true + 2 ^ 63
/-- The place of an access. -/
def Access.order (a : Access) (store : Bool) : Nat := placeInOrder a.issued a.id store

/-- Bytes stored by a context at a key of one line: performed, or buffered in overrun (R293, R315); through an NC page they reach
the tier at once (R275). order is the place of the store in the context's program order, va its address. -/
def State.writeFor (s : State) (k : Nat) (spad nc : Bool) (order : Nat) (va : W64) (key : Nat) (bytes : List Byte) : State :=
  match (s.ctx k).overrun with
  | some b =>
    let x : BufferedStore :=
      { spad := spad, size := bytes.length, key := key, va := va, data := BitVec.ofNat 64 (ofBytes bytes), order := order
        nc := nc }
    s.updBank (coreOf k) b fun c => { c with stores := c.stores ++ [x] }
  | none =>
    let (lts, s) := s.storeAt (s.ctx k).lts key bytes
    let s := ((s.updCtx k fun c => { c with lts := lts }).claimDoorbells (s.regionOf k)).through nc key
    if spad then s else s.hashFor k va key bytes.length

/-- The byte that an overrunner's buffer holds for a key (R315). -/
def bufferedByte (stores : List BufferedStore) (key : Nat) : Option Byte :=
  (stores.reverse.find? fun x => decide (x.key ≤ key) && decide (key < x.key + x.size)).map fun x =>
    BitVec.ofNat 8 (x.data.toNat / 256 ^ (key - x.key))

/-- A line entered in a read set: the exact entries first, then the filter (R315). -/
def enterReadSet (line : Nat) (b : CheckpointBank) : CheckpointBank :=
  if b.exact.contains line || b.filter.contains line then b
  else if b.exact.length < 512 then { b with exact := line :: b.exact } else { b with filter := line :: b.filter }

/-- n bytes of one line read by a context: from memory at its LTS, or in overrun from its buffer first, byte by byte, and then
from memory (R293, R315); order is the place of the load in the context's program order, which it takes in S when the overrun commits
(R319). None is uncorrectable data. -/
def State.readFor (s : State) (k order key n : Nat) : Option Nat × State :=
  match (s.ctx k).overrun, s.overrunBank k with
  | some i, some b =>
    let own := tabulate (bufferedByte b.stores) n key
    let s := s.updBank (coreOf k) i fun b => { b with loads := b.loads ++ [(order, key)] }
    if own.all Option.isSome then (some (ofBytes (own.map fun x => x.getD 0)), s)
    else
      let s := (s.mergeLine (lineOf key)).updBank (coreOf k) i (enterReadSet (lineOf key))
      if s.uncorrectable key then (none, s.count (ctrUncorrectable 0 (tierOf key % 4)) 1)
      else (some (ofBytes (own.mapIdx fun j x => x.getD (s.byteAt (key + j)))), s)
  | _, _ =>
    let r := s.loadAt (s.ctx k).lts key n
    (r.value, r.state.updCtx k fun c => { c with lts := r.lts })

/-- A landing applied to a context, and to the checkpoint of its overrun where it stems from before the checkpoint or from
outside the context, so that a rollback loses nothing (R317). (DEDUCED, notes/assumptions/44.md)
(DEDUCED, notes/assumptions/45.md) -/
def State.landCtx (s : State) (k : Nat) (outside : Bool) (issued : Nat) (w : Landing) : State :=
  let s := s.updCtx k fun c => c.land w
  match (s.ctx k).overrun with
  | some b => s.updBank (coreOf k) b fun x =>
      if outside || decide (issued < x.snapshot.taken) then { x with snapshot := x.snapshot.land w } else x
  | none => s

/-- A landing without the lanes, bits or flags that a later-issued write keeps; nothing where that is all of it. -/
def Landing.without (lost : W64) : Landing → Option Landing
  | .vrow v row m x => some (.vrow v row (m &&& ~~~lost) x)
  | .kmask k m x => some (.kmask k (m &&& ~~~lost) x)
  | .flags m x => some (.flags (m &&& ~~~(lost.truncate 16)) x)
  | w => if lost.getLsbD 0 then none else some w

/-- What lands of a result in flight: of what is contested, an open part is lost to the write issued later (R56, R57). -/
def State.landing (s : State) (k : Nat) (p : Pending) : Option Landing :=
  if p.contested = 0 then some p.what
  else p.what.without (p.contested &&& s.openWord (2 ^ 153 + k * 2 ^ 64 + p.issued * 16 + p.slot))

/-- The asynchronous writes of a vector register by a context's accesses (R56): the register, if the access writes one. -/
def Access.writesReg (a : Access) : Option Nat :=
  match a.kind with
  | .vload v _ => some v
  | .vamo v true _ _ => some v
  | _ => none
/-- Whether a context has an asynchronous write of a vector register in flight that was issued before a cycle (R56): a queued global
access, or a t2v. -/
def State.asyncBefore (s : State) (k cycle v : Nat) : Bool :=
  ((s.ctx k).accesses.any fun a => a.writesReg = some v && decide (a.issued < cycle))
    || s.engine.any fun e => e.2.group.isSome && e.2.group = (s.ctx k).group && e.2.pos = (s.ctx k).pos && !e.2.copy
      && e.2.uf = 0x0C && e.2.td = v && decide (e.2.forked < cycle)
/-- A row that has landed noted, where an asynchronous write of an earlier bundle may yet meet it (R56). -/
def State.noteLanded (s : State) (k issued : Nat) (w : Landing) : State :=
  match w with
  | .vrow v row m _ =>
    if s.asyncBefore k issued v then s.updCtx k fun c => { c with landed := (issued, v, row, m) :: c.landed } else s
  | _ => s
/-- Lanes of a row of a vector register written by an asynchronous write of a bundle of a cycle (R56): of what a write issued later has
written already, an open part is lost; and what an earlier one has yet to write of the same lanes is contested. -/
def State.putAsync (s : State) (k cycle v row : Nat) (m : W64) (x : Row) : State :=
  let later := (s.ctx k).landed.foldl (fun (a : W64) e =>
    if decide (cycle < e.1) && e.2.1 = v && e.2.2.1 = row then a ||| e.2.2.2 else a) 0
  let m := m &&& ~~~(later &&& s.openWord (2 ^ 152 + v * 16 + row))
  s.updCtx k fun c =>
    { c.setVrow v row m x with
      pending := c.pending.map fun p => match p.what with
        | .vrow v' row' m' _ =>
          if v = v' && row = row' && decide (p.issued < cycle) && decide (p.slot < 15) then { p with contested := p.contested ||| (m &&& m') }
          else p
        | _ => p
      rows := c.rows.map fun r =>
        if r.dst = v && !r.ws && r.result ≠ .mask && decide (r.issued < cycle) && decide (r.rb ≤ row) && decide (row ≤ r.rb + r.rn) then
          { r with contested := r.contested ++ [(row, m &&& r.inp.mask)] }
        else r }

/-- A landing of context k applied to the machine: latches stand in the core (R53), scratchpad rows in memory (R287). A flag that slot 15
or 17 sets comes from outside the context, or from before its checkpoint. -/
def State.land (s : State) (k : Nat) (p : Pending) : State :=
  match s.landing k p with
  | none => s
  | some (.latchS l x) => s.updCore (coreOf k) fun c => { c with lat := c.lat.setScalar l x }
  | some (.latchV l row x) => s.updCore (coreOf k) fun c => { c with lat := c.lat.setRow l row x }
  | some (.spadRow order es) => es.foldl (fun s (key, bytes) => s.writeFor k true false order 0 key bytes) s
  | some w => (s.landCtx k (p.slot = 15 || p.slot = 17) p.issued w).noteLanded k p.issued w

/-- Whether a landing is a queue event, which takes effect in another context (R326). -/
def Pending.isNotify (p : Pending) : Bool := match p.what with | .notify _ _ => true | _ => false

/-- The results of a context that are due by a cycle land: CSR and flag writes of instructions first, then status bits and
events, and overtaken writes last (R58, R100). Queue events stay for their own turn. An instruction's write that is read from cycle
t + 1 on lands before an event of that same cycle (DEDUCED, notes/assumptions/98.md). -/
def State.landDue (s : State) (k now : Nat) : State :=
  let ps := (s.ctx k).pending
  if ps.isEmpty then s
  else
    let isDue (p : Pending) : Bool := decide (p.due ≤ now) && !p.isNotify
    let due := ps.filter isDue
    if due.isEmpty then s
    else
      let s := s.updCtx k fun c => { c with pending := c.pending.filter fun p => !isDue p }
      let late (p : Pending) : Bool := match p.what with
        | .status _ _ => true
        | _ => decide (15 ≤ p.slot)
      let s := (due.filter fun p => !late p && p.contested = 0).foldl (fun s p => s.land k p) s
      let s := (due.filter fun p => !late p && p.contested ≠ 0).foldl (fun s p => s.land k p) s
      (due.filter late).foldl (fun s p => s.land k p) s

/-- A cycle of a frozen core as the flag events of a context see it (R30, R58): no instruction's write lands beside them; those due in
this cycle land, and the others come a cycle nearer, since the core's own count of cycles stands still. -/
def State.landEvents (s : State) (k now : Nat) : State :=
  let isEvent (p : Pending) : Bool := decide (15 ≤ p.slot) && !p.isNotify
  if ((s.ctx k).pending.any isEvent) then
    let due := (s.ctx k).pending.filter fun p => isEvent p && decide (p.due ≤ now + 1)
    due.foldl (fun s p => s.land k p) (s.updCtx k fun c => { c with
      pending := (c.pending.filter fun p => !(isEvent p && decide (p.due ≤ now + 1))).map fun p =>
        if isEvent p then { p with due := p.due - 1 } else p })
  else s

/-! ## Reads with results in flight (R56, R57) -/

/-- One of the values that a destination in flight may read as: the old value or any of the new ones.
(DEDUCED, notes/assumptions/3.md) -/
def State.pickOf {α : Type} (s : State) (tag : Nat) (old : α) (news : List α) : α :=
  (news.foldl (fun (v, i) x => (if s.openBool (2 ^ 154 + tag * 64 + i) then x else v, i + 1)) (old, 0)).1

/-- A scalar register as a bundle of cycle t reads it (R56). (DEDUCED, notes/assumptions/3.md) -/
def State.readS (s : State) (k t tag r : Nat) : W64 :=
  let c := s.ctx k
  s.pickOf (tag * 2 ^ 10 + r) (c.sreg r) (c.pending.filterMap fun p =>
    if p.issued = t then none else match p.what with | .scalar r' x => if r = r' then some x else none | _ => none)

/-- A scalar latch part as a bundle of cycle t reads it (R57): a result of an earlier bundle that has not landed may be
seen or not. -/
def State.readLatchS (s : State) (k t tag l : Nat) : W64 :=
  let c := s.ctx k
  s.pickOf (tag * 2 ^ 10 + 64 + l) ((s.core (coreOf k)).lat.scalar l) (c.pending.filterMap fun p =>
    if p.issued = t then none else match p.what with | .latchS l' x => if l = l' then some x else none | _ => none)

/-- A mask register as a bundle of cycle t reads it (R56). -/
def State.readK (s : State) (k t tag r : Nat) : W64 :=
  let c := s.ctx k
  if r = 0 then BitVec.allOnes 64
  else s.pickOf (tag * 2 ^ 10 + 128 + r) (c.kreg r) (c.pending.filterMap fun p =>
    if p.issued = t then none
    else match p.what with | .kmask r' m x => if r = r' then some (mergeMask m (c.kreg r) x) else none | _ => none)

/-- FL as a bundle of cycle t reads it: a bit that an earlier instruction has yet to write may read as its new value
(R56, R58). -/
def State.readFlags (s : State) (k t tag : Nat) : BitVec 16 :=
  let c := s.ctx k
  s.pickOf (tag * 2 ^ 10 + 192) c.flags (c.pending.filterMap fun p =>
    if p.issued = t || decide (15 ≤ p.slot) then none
    else match p.what with | .flags m x => some ((c.setFlags m x).flags) | _ => none)

/-- The status bits that earlier operations have yet to raise and a read of VSTAT sees already: each bit is open (R100), but for those of
rows whose sources are still to be read and of operations of the reading bundle, which it does not see
(DEDUCED, notes/assumptions/107.md). -/
def State.statusSoon (s : State) (k t tag : Nat) : W64 :=
  ((s.ctx k).pending.foldl (fun (m, i) p =>
    if p.issued = t then (m, i)
    else match p.what with
      | .status _ b => (m ||| (b.zeroExtend 64 &&& s.openWord (2 ^ 151 + tag * 64 + i)), i + 1)
      | _ => (m, i)) ((0 : W64), 0)).1

/-- A CSR that a bundle of cycle t reads, in its own right or as implicit state: a write of one of the two bundles before may
be seen or not, and so may a status bit that an earlier operation is to raise (R55, R56, R100, R174). -/
def State.readCsr (s : State) (k t tag n : Nat) : W64 :=
  let x := s.pickOf (2 ^ 30 + tag * 2 ^ 13 + n) (s.csrRead k n) ((s.ctx k).pending.filterMap fun p =>
    if p.issued = t then none
    else match p.what with
      | .csr n' x => if n = n' then some ((s.updCtx k fun c => c.csrWrite n x).csrRead k n) else none
      | _ => none)
  if n = 0x002 then x ||| s.statusSoon k t tag else x

/-- LMASK as a bundle of cycle t reads it: a CSR write of one of the two bundles before may be seen or not (R125). -/
def State.readLmask (s : State) (k t tag : Nat) : W64 :=
  s.readCsr k t tag 0x001

/-- A row chosen element by element between two rows. -/
def State.mixRows (s : State) (tag : Nat) (m : W64) (old new : Row) : Row :=
  Vector.ofFn fun c =>
    if m.getLsbD c.val && s.openBool (2 ^ 155 + tag * 64 + c.val) then laneOf new c.val else laneOf old c.val

/-- The asynchronous writes of vector registers in flight: registers that a queued global access or an engine command has
yet to write (R56). -/
def State.asyncRegs (s : State) (k : Nat) : List Nat :=
  (s.ctx k).accesses.filterMap Access.writesReg
  ++ ((s.engine.filter fun e => e.2.group.isSome && e.2.group = (s.ctx k).group && e.2.pos = (s.ctx k).pos
      && !e.2.copy && e.2.uf = 0x0C).map fun e => e.2.td)

/-- The lanes of a row that a queued access is to write, and what their elements hold in memory now. -/
def State.accessRow (s : State) (a : Access) (row : Nat) : W64 × Row :=
  let xs := a.elements.filter fun x => x.row = row
  (xs.foldl (fun m x => m ||| (1 : W64) <<< x.lane) 0,
   Vector.ofFn fun c => match xs.find? fun x => x.lane = c.val with
     | some x => BitVec.ofNat 32 (s.wordAt x.place.key a.size)
     | none => 0)

/-- A row as t2v would read it from its tile now (R231). -/
def State.tileRow (s : State) (c : EngineCmd) (row : Nat) : Row :=
  let tile := ((c.group.bind s.group?).map fun g => g.tile c.ta).getD 0
  Vector.ofFn fun l => BitVec.ofNat 32 (s.wordAt (tileKey c.cluster tile (c.operand.toNat + 256 * row + 4 * l.val)) 4)

/-- The new values that a row of a vector register may read as already while an asynchronous write of an earlier bundle is in
flight: the lanes and the values as their sources stand (R56; DEDUCED, notes/assumptions/3.md). -/
def State.asyncRows (s : State) (k t v row : Nat) : List (W64 × Row) :=
  ((s.ctx k).accesses.filterMap fun a =>
    if a.issued ≠ t && a.writesReg = some v then some (s.accessRow a row) else none)
  ++ (s.engine.filterMap fun e =>
    if e.2.group.isSome && e.2.group = (s.ctx k).group && e.2.pos = (s.ctx k).pos && !e.2.copy && e.2.uf = 0x0C && e.2.td = v then
      some (BitVec.allOnes 64, s.tileRow e.2 row)
    else none)

/-- A row read while new values of some lanes are in flight, one after another: each element is open between old and new. -/
def State.mixAll (s : State) (tag : Nat) (base : Row) (news : List (W64 × Row)) : Row :=
  (news.foldl (fun (r, i) x => (s.mixRows (tag + i) x.1 r x.2, i + 1)) (base, 0)).1

/-- Row row of vector register v as a bundle of cycle t reads it, now (R56): each element that an operation of another
bundle has in flight reads as its old or its new value. A row that depends on source rows not yet read has no new value to
be read (DEDUCED, notes/assumptions/3.md). -/
def State.readVrow (s : State) (k t tag v row : Nat) : Row :=
  let c := s.ctx k
  s.mixAll ((tag * 2 ^ 10 + v * 16 + row) * 2 ^ 10) (c.vrow v row) ((c.pending.filterMap fun p =>
    if p.issued = t then none
    else match p.what with | .vrow v' row' m x => if v = v' && row = row' then some (m, x) else none | _ => none)
    ++ s.asyncRows k t v row)

/-- Row row of a vector latch part as a bundle of cycle t reads it, now (R57): as it stands, or as a result of an earlier bundle
that has not landed. A row that depends on source rows not yet read has no new value to be read
(DEDUCED, notes/assumptions/3.md). -/
def State.readLatchV (s : State) (k t tag l row : Nat) : Row :=
  s.mixAll ((2 ^ 20 + tag * 2 ^ 10 + l * 16 + row) * 2 ^ 10) ((s.core (coreOf k)).lat.row l row)
    ((s.ctx k).pending.filterMap fun p =>
      if t ≤ p.issued then none
      else match p.what with
        | .latchV l' row' x => if l = l' && row = row' then some (BitVec.allOnes 64, x) else none
        | _ => none)

/-! ## Flag events (R58, R98) -/

/-- FL[f] of a context set by an event that takes effect some cycles from now: bundles issued after that cycle see it. f = 0 sets
nothing. own says that an access of the context itself has completed (slot 16); another event stands as slot 15. In a saved image the flag is set
at once (R33). -/
def State.setFlagAfter (s : State) (wait : Nat) (own : Bool) (k f : Nat) : State :=
  if f = 0 then s
  else if parked k then s.updCtx k fun c => { c with fl := c.fl ||| flagMask f }
  else
    let t := (s.core (coreOf k)).lt
    s.addPending k { due := t + wait + 1, issued := t, slot := if own then 16 else 15, contested := 0
                     what := .flags (flagMask f) (flagMask f) }

/-- FL[f] of a context set by a queue event that takes effect now (R326). -/
def State.setFlagEvent (s : State) (k f : Nat) : State := s.setFlagAfter 0 false k f

/-- FL[f] of a context set by the completion of what runs beside its bundles, two cycles from now: no completion is reported before
what a bundle of the cycle of its issue writes at t + 2 (R58, R213, R239; DESIGN CHOICE, notes/assumptions/10.md). -/
def State.setFlagFrom (s : State) (own : Bool) (k f : Nat) : State := s.setFlagAfter 2 own k f

/-- The queue events that a context's pops have made due take effect: each sets a flag of another context (R326), beside what that
context's own instructions write in the cycle (R58). -/
def State.deliverEvents (s : State) (k : Nat) : State :=
  let now := (s.core (coreOf k)).lt
  let isDue (p : Pending) : Bool := p.isNotify && decide (p.due ≤ now)
  let due := (s.ctx k).pending.filter isDue
  if due.isEmpty then s
  else
    due.foldl (fun s p => match p.what with | .notify j f => s.setFlagEvent j f | _ => s)
      (s.updCtx k fun c => { c with pending := c.pending.filter fun p => !isDue p })

/-- FL as a waiting bundle sees it when it is considered now: with the events that take effect in this cycle (R28, R239). -/
def Ctx.flagsSoon (c : Ctx) (now : Nat) : BitVec 16 :=
  (c.pending.foldl (fun f p => if 15 ≤ p.slot ∧ p.due ≤ now + 1 then
    match p.what with | .flags m x => (f &&& ~~~m) ||| (x &&& m) | _ => f else f) c.fl) ||| 1

/-! ## Switches (R27 to R29) -/

/-- Latch results in flight discarded, as a switch discards them (R27 step 1); register results stay.
(DEDUCED, notes/assumptions/17.md) -/
def dropLatchResults (ps : List Pending) : List Pending :=
  ps.filter fun p => match p.what with | .latchS _ _ => false | .latchV _ _ _ => false | _ => true

/-- The running context of a core gives it up at cycle t: its latch results are lost, the latches read zero, and the next
context issues no earlier than t + 2 (R27). Vector operations it has under way keep writing their registers. Every switch away from
a context counts (R411). -/
def State.switchOut (s : State) (core t : Nat) : State :=
  match (s.core core).running with
  | none => s
  | some k =>
    let s := s.updCtx k fun c => { c with
      pending := dropLatchResults c.pending
      rows := c.rows.map fun r => { r with slot := r.slot + 16 }
      firstIssue := none }
    (s.event k 0x06 1).updCore core fun c => { c with
      running := none, lat := Latches.zero, bundle := none, walked := [], walking := [], conflictPaid := []
      freeze := none, fetchFaults := [], refillFault := none, nextIssue := t + 2 }

/-- A context becomes READY; its wait begins (R28). -/
def State.makeReady (s : State) (k : Nat) : State :=
  s.updCtx k fun c => { c with phase := .ready, block := none, readySince := (s.core (coreOf k)).lt, readyAt := s.clk }

/-- The running context blocks at cycle t (R26, R27). -/
def State.blockCtx (s : State) (k t : Nat) (b : BlockCause) : State :=
  let s := s.switchOut (coreOf k) t
  s.updCtx k fun c => { c with phase := .blocked, block := some b }

/-! ## Traps (R64, R243, R257, R259, R260) -/

/-- The code of a cause (R261 Table 10). -/
def causeCode : Cause → Nat
  | .illegalStream => 0x01 | .illegalCw => 0x02 | .scheduleFault => 0x03 | .privilege => 0x04 | .formatDiverge => 0x05
  | .partialMask => 0x06 | .misaligned => 0x07 | .pageFault => 0x08 | .accessFault => 0x09 | .poison => 0x0A
  | .checkMismatch => 0x0B | .software => 0x0C | .svc => 0x0D | .fpTrap => 0x0E | .poolRegionLost => 0x10
  | .queueProtocol => 0x11 | .breakpoint => 0x12 | .rendezvousTimeout => 0x13

/-- Whether the context is in an open phase that is not exposed (R246, R377). -/
def Ctx.inOpenPhase (c : Ctx) : Bool := match c.phaseRec with | some p => !p.exposed && p.bank.isSome | none => false

/-- Whether a trap is that of a popq whose entry is poisoned or lost (R323). -/
def Ctx.failedPop (c : Ctx) (t : Trap) : Bool :=
  (t.cause = .poison || t.cause = .poolRegionLost) && t.decoded && (t.slot = 6 || t.slot = 7)
    && c.dlq.any fun d => d.value = t.tval && (d.fate = .poisoned || d.fate = .lost)
/-- Whether the context is in a phase that is exposed (R377). -/
def Ctx.inExposedPhase (c : Ctx) : Bool := match c.phaseRec with | some p => p.exposed | none => false

/-- The bundle of a context traps at cycle t: none of its slots issues and the context drains (R64 steps 1 and 2). Inside an
open phase that is not exposed, CHECK_MISMATCH, and POISON of a popq, cancel the phase instead (R241, R379). pc is the
bundle's address and next that of the following bundle. -/
def State.takeTrap (s : State) (k t : Nat) (pc next : BitVec 57) (trap : Trap) : State :=
  let c := s.ctx k
  let cancels := c.inOpenPhase && (trap.cause = .checkMismatch || c.failedPop trap)
  let s := s.updCtx k fun c => { c with
    pc := pc
    drain := if cancels then .cancel trap.cause trap.tval else .trap trap pc (if trap.decoded then next else pc) }
  (s.updCore (coreOf k) fun c => { c with bundle := none, walked := [], walking := [], conflictPaid := []
                                          fetchFaults := [], refillFault := none, nextIssue := t + 3 }).event k 0x11 (if cancels then 0 else 1)

/-- Whether a context runs on a core that is frozen: no switch takes place then (R30). -/
def State.frozen (s : State) (k : Nat) : Bool :=
  (s.core (coreOf k)).running = some k && (s.core (coreOf k)).freeze.isSome

/-- Whether the pipelines have drained of a context: every result has landed, no vector operation has rows to read, no slot is
occupied by it (R63). -/
def State.drained (s : State) (k : Nat) : Bool :=
  let c := s.ctx k
  let core := s.core (coreOf k)
  c.rows.isEmpty && (c.pending.all fun p => decide (15 ≤ p.slot))
    && core.occupied.all fun o => o.ctx ≠ k || decide (o.free ≤ core.lt)

/-- Whether what an exiting context has issued has landed (R244): its pipelines have drained, its accesses are performed and their
flags set, and its DLQ entries have arrived. -/
def State.allLanded (s : State) (k : Nat) : Bool :=
  s.drained k && (s.ctx k).accesses.isEmpty && ((s.ctx k).pending.all fun p => decide (p.slot = 15))
    && (s.ctx k).dlq.all fun d => d.fate ≠ .waiting

/-- Whether every operation of a context has written back and every occupancy of its core has ended, while the context holds the core
(R63 Table 10, R64 step 2). Global vector accesses and engine operations go on meanwhile (R64, R285). -/
def State.writtenBack (s : State) (k : Nat) : Bool :=
  let core := s.core (coreOf k)
  s.drained k && (core.running ≠ some k || core.occupied.all fun o => decide (o.free ≤ core.lt))

/-- A trap as its drain leaves it: TVAL of FP_TRAP holds every enabled flag raised until then (R101, R260). -/
def Ctx.settled (c : Ctx) (t : Trap) : Trap :=
  match t.cause, c.fpPending with
  | .fpTrap, some (f, slot) => { t with tval := BitVec.ofNat 64 (f.toNat + slot * 256) }
  | _, _ => t

/-- Whether a trap is delivered to a handler (R259); a popq's failure in an exposed phase ends the group (R379).
(DEDUCED, notes/assumptions/59.md) -/
def State.delivers (s : State) (k : Nat) (t : Trap) : Bool :=
  let c := s.ctx k
  decide (c.tvec ≠ 0) && s.privOf k && decide (c.nesting ≠ 3) && !(c.inExposedPhase && c.failedPop t)

/-- Entry to the handler once the drain has ended (R64 step 3, R260): the latches are shadowed, the trap CSRs are set, the
latches read zero and the PC is TVEC. The handler's first bundle issues no earlier than three cycles after the trap. -/
def State.enterHandler (s : State) (k : Nat) (trap : Trap) (pc next : BitVec 57) : State :=
  let core := coreOf k
  let lat := (s.core core).lat
  let s := s.updCtx k fun c => { c with
    shadow := lat
    tcause := BitVec.ofNat 12 (causeCode trap.cause + trap.slot * 256)
    tval := trap.tval
    tepc := pc
    tnpc := next
    prevUser := c.user
    user := false
    nesting := c.nesting + 1
    pc := c.tvec
    fpPending := if trap.cause = .fpTrap then none else c.fpPending
    drain := .none }
  s.updCore core fun c => { c with lat := Latches.zero, nextIssue := max c.nextIssue c.lt }

/-- Return from a trap (R64 step 4, R243): the PC takes TEPC or TNPC, the latches take the shadow, U takes PU, ND falls. Latch
results of the handler still in flight are lost (DEDUCED, notes/assumptions/17.md). The returning bundle issues at t + 3. -/
def State.returnFromTrap (s : State) (k t : Nat) (next : Bool) : State :=
  let core := coreOf k
  let shadow := (s.ctx k).shadow
  let s := s.updCtx k fun c => { c with
    pc := if next then c.tnpc else c.tepc
    user := c.prevUser
    nesting := if c.nesting = 0 then 0 else c.nesting - 1
    fpPending := none
    pending := dropLatchResults c.pending
    rows := c.rows.map fun r => { r with slot := r.slot + 16 } }
  s.updCore core fun c => { c with lat := shadow, nextIssue := t + 3, gapUntil := t + 3 }

end Sys2Proof.Machine
end

