-- ==== Sys2Proof/Machine/Device.lean ====
section
/-! DEFINITION. The device's own accesses through a region's address space (R371, R407), pool region states by place (R385),
fault records (R367 to R373, R392), and the fault of a group (R280, R376). -/

namespace Sys2Proof.Machine

/-! ## Accesses of the device itself -/

/-- The place of a virtual address in a region's address space, walked without the TLBs, in supervisor state. -/
def State.deviceWalk (s : State) (region : Nat) (use : PageUse) (va : W64) : Except Cause Place :=
  if va.toNat / 2 ^ 57 ≠ 0 then .error .accessFault
  else
    match s.walk (s.ptbase region) va.toNat with
    | .leaf pte size => s.checkLeaf use false pte size va.toNat
    | .fault c _ => .error c

/-- The walk of a failed device access counted, where a PTE of it could not be read (R413). -/
def State.walkFailed (s : State) (region : Nat) (va : W64) : State :=
  if va.toNat / 2 ^ 57 ≠ 0 then s else s.countWalk 0 (s.ptbase region) va.toNat

/-- The state of the pool region that a place lies in; none for a place outside the pool. A place of no mapped target counts
as lost. -/
def State.poolStateOf (s : State) (key : Nat) : Option PoolState :=
  if tierOf key = 2 then
    some (((s.pool.find? fun e => 8 + e.2.port = planeOf key && e.2.state ≠ .unmapped
      && decide (e.2.target ≤ planeAddr key) && decide (planeAddr key < e.2.target + 2 ^ 30)).map fun e => e.2.state).getD .lost)
  else none

/-- n bytes of one line read by the device at a region's virtual address: the value, or the cause. -/
def State.deviceRead (s : State) (region : Nat) (lts : W64) (va : W64) (n : Nat) : Except Cause (Nat × W64) × State :=
  match s.deviceWalk region .load va with
  | .error c => (.error c, s.walkFailed region va)
  | .ok p =>
    let (lts, s) := s.stampWalk lts (s.ptbase region) va.toNat
    let r := s.loadAt lts p.key n
    match r.value with
    | some v => (.ok (v, r.lts), r.state)
    | none => (.error .poison, r.state)

/-- Bytes of one line written by the device at a region's virtual address; a cause where it fails. -/
def State.deviceWrite (s : State) (region : Nat) (lts : W64) (va : W64) (bytes : List Byte) : Except Cause W64 × State :=
  match s.deviceWalk region .store va with
  | .error c => (.error c, s.walkFailed region va)
  | .ok p =>
    let (lts, s) := s.stampWalk lts (s.ptbase region) va.toNat
    let (lts, s) := s.storeAt lts p.key bytes
    (.ok lts, s.through p.nc p.key)

/-- Bytes of tier 0 read by the device at a tier address: little-endian value. -/
def State.tableWord (s : State) (addr n : Nat) : Nat := s.wordAt (tierKey 0 addr) n
/-- A word of tier 0 written by the device (R396: DEV-scope stores). -/
def State.setTableWord (s : State) (addr n v : Nat) : State := (s.storeAt 0 (tierKey 0 addr) (toBytes n v)).2

/-! ## Queue control blocks (R345) -/

/-- The tier-0 address of a queue's control block. -/
def State.qcbAddr (s : State) (q : Nat) : Nat := (s.bases[4]?.getD 0).toNat + 64 * q
/-- n bytes of a queue's control block. -/
def State.qcb (s : State) (q off n : Nat) : Nat := s.tableWord (s.qcbAddr q + off) n
/-- A field of a queue's control block written by the device. -/
def State.setQcb (s : State) (q off n v : Nat) : State := s.setTableWord (s.qcbAddr q + off) n v
/-- Whether a number names a continuation queue. -/
def isCont (q : Nat) : Bool := decide (65536 ≤ q)
/-- The number of continuation queue j of a die among all queues. -/
def contNumber (die j : Nat) : Nat := 65536 + 256 * die + j
/-- The die of a continuation queue. -/
def contDie (q : Nat) : Nat := (q - 65536) / 256
/-- The region of a queue. -/
def State.queueRegion (s : State) (q : Nat) : Nat := s.qcb q 0x0A 2
/-- The index at which a queue's packets end, as far as the device has been told (R346). -/
def State.writeIndex (s : State) (q : Nat) : Nat := s.qcb q 0x20 8
/-- The virtual address of the slot of a packet index. -/
def State.slotAddr (s : State) (q idx : Nat) : Nat := s.qcb q 0 8 + 64 * (idx % 2 ^ s.qcb q 8 1)
/-- STATE of a queue (R353 Table 6). -/
def State.queueState (s : State) (q : Nat) : Nat := s.qcb q 9 1
/-- STATE of a queue written. -/
def State.setQueueState (s : State) (q st : Nat) : State := s.setQcb q 9 1 st
/-- A hold of a queue that no lane owns, with what it waits for. -/
def QueueHold.released (h : QueueHold) (b : Option QueueBlock) : QueueHold :=
  { h with owner := none, rank := none, served := 0, empty := 0, blocked := b }

/-! ## Fault records (R367, R368) -/

/-- A fault record's fields (R367 Table 1). -/
structure FaultRecord where
  cause : Nat
  src : Nat
  res : Bool
  loss : Bool
  exp : Bool
  queue : Nat
  seq : Nat
  addr : Nat
  detail : Nat
  pos : Nat
  engine : Nat
  ref : Nat
deriving DecidableEq, Repr

/-- A record that names nothing yet. -/
def FaultRecord.blank (src : Nat) : FaultRecord :=
  { cause := 0, src := src, res := false, loss := false, exp := false, queue := 0, seq := 0, addr := 0, detail := 0, pos := 0
    engine := 0, ref := 0 }

/-- The 32 bytes of a record (R367). Queues from 65,536 on are continuation queues (CQ). -/
def FaultRecord.bytes (r : FaultRecord) : List Byte :=
  let flag (b : Bool) (n : Nat) : Nat := if b then 2 ^ n else 0
  toBytes 1 r.cause
    ++ toBytes 1 (r.src % 16 + flag (decide (65536 ≤ r.queue)) 4 + flag r.res 5 + flag r.loss 6 + flag r.exp 7)
    ++ toBytes 2 r.queue ++ toBytes 4 r.seq
    ++ toBytes 8 (r.addr % 2 ^ 57 + r.detail % 128 * 2 ^ 57)
    ++ toBytes 8 (r.pos % 2 ^ 51 + r.engine % 4096 * 2 ^ 51) ++ toBytes 8 r.ref

/-- ENGINE of a context (R367, R368): compute contexts by die, logical cluster, core and context. -/
def engineOf (k : Nat) : Nat :=
  if k < 4096 then dieOf (clusterOf k) + 8 * (clusterOf k % 32) + 256 * (coreOf k % 4) + 1024 * (k % 4)
  else (coreOf k - 1024) % 8 + 8 * (k % 2)

/-- ENGINE of a context: one that has been pre-empted is named as it stood on its cluster (R368). -/
def State.engineAt (s : State) (k : Nat) : Nat :=
  match (s.groupOf k).bind fun g => g.saved.map fun v => 16 * v.cluster + g.contexts.getD (s.ctx k).pos 0 with
  | some h => engineOf h
  | none => engineOf k

/-- A record with the queue, sequence number and engine of a context's command, and whether the context is in an exposed phase
(R367, R368). -/
def State.recordOf (s : State) (src k : Nat) : FaultRecord :=
  let cmd := (s.groupOf k).bind fun g => mapGet? s.commands g.command
  { FaultRecord.blank src with
    exp := (s.ctx k).inExposedPhase
    queue := (cmd.map Command.queue).getD 0
    seq := (cmd.map Command.seq).getD 0
    engine := s.engineAt k }

/-- The region whose fault queue receives a region's records (R370): the nearest on its path that has one, within its fault
domain. -/
def State.faultQueueOf (s : State) (region : Nat) : Option Nat :=
  let root := s.domainRoot region
  let path := s.path region
  let within := path.take (((findPlace (fun r => r = root) path 0).map Prod.fst).getD 0 + 1)
  within.find? fun r => (s.region r).flogn ≠ 0

/-- An 8-byte word in a region's address space raised by 1 by the device, where it can be written: an atomic at DEV scope, or at SYS
scope in tier 3 (R372, R419). -/
def State.addOne (s : State) (region : Nat) (lts : W64) (va : W64) : State :=
  match s.deviceWalk region .update va with
  | .ok p => (s.atomicAt lts p.key 8 0 1 0).state.through (farAtomic (if tierOf p.key = 3 then 4 else 2) p) p.key
  | .error _ => s.walkFailed region va
/-- FQOVF raised by 1, where it can be written (R372). -/
def State.raiseOverflow (s : State) (q : Nat) (lts : W64) : State := s.addOne q lts (s.region q).fqovfa

/-- A record published in the fault queue found for a region (R370 to R372): the queue's region and the record's index, or
none where it overflowed or was lost, which is counted for the die. -/
def State.publish (s : State) (region : Nat) (lts : W64) (r : FaultRecord) : Option (Nat × Nat) × State :=
  match s.faultQueueOf region with
  | none => (none, s.count (ctrLost (r.engine % 8)) 1)
  | some q =>
    let b := s.region q
    let lost (s : State) : Option (Nat × Nat) × State := (none, (s.raiseOverflow q lts).count (ctrLost (r.engine % 8)) 1)
    match s.deviceRead q lts b.fqwra 8 with
    | (.error _, s) => lost s
    | (.ok (wr, lts), s) =>
      match s.deviceRead q lts b.fqrda 8 with
      | (.error _, s) => lost s
      | (.ok (rd, lts), s) =>
        if wr = rd + 2 ^ b.flogn then (none, s.raiseOverflow q lts)
        else
          match s.deviceWrite q lts (b.fqbase + BitVec.ofNat 64 (32 * (wr % 2 ^ b.flogn))) r.bytes with
          | (.error _, s) => lost s
          | (.ok lts, s) =>
            match s.deviceWrite q lts b.fqwra (toBytes 8 (wr + 1)) with
            | (.error _, s) => lost s
            | (.ok _, s) => (some (q, wr), s)

/-- A dropped reduction of a context: its record (R367 Table 2, SRC 5) names the target and the operation. The counting is that
of the access (R392). -/
def State.recordDropped (s : State) (k : Nat) (cause : Cause) (va : W64) (op : Nat) : State :=
  (s.publish (s.regionOf k) (s.ctx k).lts
    { s.recordOf 5 k with cause := causeCode cause, addr := va.toNat, detail := op }).2

/-! ## The fault of a group (R376) -/

/-- A context ends its group by a contained fault; the second fault of a group records nothing (R376 step 5). A context that no
group holds halts (DESIGN CHOICE, notes/assumptions/20.md). (DEDUCED, notes/assumptions/21.md) -/
def State.faultGroup (s : State) (k : Nat) (cause : Cause) (slot : Nat) (tval tepc : W64) : State :=
  match (s.ctx k).group with
  | none => s.updCtx k fun c => { c with drain := .halt 2 }
  | some g => s.updGroup g fun x =>
      match x.fault with
      | some _ => x
      | none =>
        { x with fault := some { cause := cause, slot := slot, tval := tval, tepc := tepc, pos := (s.ctx k).pos
                                 exposed := (s.ctx k).inExposedPhase } }

/-- An access of a context has failed after issue, in an element of a vector or scratchpad load (R280): it cancels an open
phase that is not exposed, and otherwise ends the group. (DEDUCED, notes/assumptions/21.md) (DEDUCED, notes/assumptions/59.md)
(DEDUCED, notes/assumptions/63.md) -/
def State.failedElement (s : State) (k : Nat) (cause : Cause) (va : W64) : State :=
  if (s.ctx k).inOpenPhase then s.updCtx k fun c => { c with drain := .cancel cause va }
  else s.faultGroup k cause 15 va ((s.ctx k).pc.zeroExtend 64)

end Sys2Proof.Machine
end

