-- ==== Sys2Proof/Machine/Operands.lean ====
section
/-! DEFINITION. Every operand form: scalar and vector selectors (R50, R51), the lane mask (R45), and the rows of a source
at the cycle they are read (R55). -/

namespace Sys2Proof.Machine

/-- What a bundle knows of its issue: context, core, issue cycle t, its address and that of the next sequential bundle
(R68), its immediates (R51), and what its context held before it. -/
structure Env where
  k : Nat
  core : Nat
  t : Nat
  pc : BitVec 57
  next : BitVec 57
  imms : List Nat
  immw : Bool
  /-- The DLQ before the bundle. -/
  dlq : List DlqEntry
  /-- The number of the first access of the bundle. -/
  firstAccess : Nat
  /-- Whether work of earlier bundles has yet to write back or to leave its slot (R246). -/
  busy : Bool
  /-- Whether a phase is open before the bundle (R457). -/
  inPhase : Bool
  /-- RP, where it is this bundle's (R218). -/
  passed : Bool
  /-- The trap that the bundle's rendezvous has left it (R219, R220). -/
  divergence : Option Trap
deriving DecidableEq, Repr

/-- An immediate in scalar meaning (R51). -/
def Env.immScalar (e : Env) (j : Nat) : W64 :=
  let x := e.imms.getD j 0
  if e.immw then BitVec.ofNat 64 x else sext32 (BitVec.ofNat 32 x)

/-- An immediate in vector meaning (R51). -/
def Env.immVector (e : Env) (j : Nat) : W32 := BitVec.ofNat 32 (e.imms.getD j 0)

/-- A selector in scalar meaning, read at t (R50 Table 7, R53). slot and place tell apart the reads of a bundle. -/
def scalarOperand (s : State) (e : Env) (slot place : Nat) (sel : BitVec 6) : W64 :=
  let n := sel.toNat
  let tag := slot * 4 + place
  if n < 32 then s.readS e.k e.t tag n
  else
    match n with
    | 32 => s.readLatchS e.k e.t tag 0
    | 33 => s.readLatchS e.k e.t tag 1
    | 37 => s.readLatchS e.k e.t tag 2
    | 38 => s.readLatchS e.k e.t tag 3
    | 39 => s.readLatchS e.k e.t tag 4
    | 40 => e.immScalar 0
    | 41 => e.immScalar 1
    | 42 => e.immScalar 2
    | 43 => e.immScalar 3
    | 45 => 1
    | 46 => BitVec.allOnes 64
    | 47 => BitVec.ofNat 64 (s.ctx e.k).pos
    | _ => 0

/-- A selector in vector meaning, in an operand type (R50 Tables 7 and 7a): the source of its rows. -/
def vectorOperand (s : State) (e : Env) (slot place type : Nat) (sel : BitVec 6) : VSource :=
  let n := sel.toNat
  if n < 16 then .reg n
  else if n < 32 then .same (Row.splat (low32 (s.readS e.k e.t (slot * 4 + place) (n - 16))))
  else if n < 40 then .latch (n - 34)
  else if n < 44 then .same (Row.splat (e.immVector (n - 40)))
  else
    match n with
    | 45 => .same (Row.splat (typedOne type))
    | 46 => .same (Row.splat 0xFFFFFFFF)
    | 47 => .same (Vector.ofFn fun c => typedIndex type c.val)
    | _ => .same Row.zero

/-- Row row of a source, read now by an operation of a bundle of cycle t (R55 to R57). -/
def sourceRow (s : State) (k t tag : Nat) (src : VSource) (row : Nat) : Row :=
  match src with
  | .reg v => s.readVrow k t tag v row
  | .latch l => s.readLatchV k t tag l row
  | .same r => r

/-- The lane mask m := LMASK AND k[KS] (R45). -/
def laneMask (s : State) (e : Env) (slot : Nat) (ks : BitVec 3) : W64 :=
  s.readLmask e.k e.t (slot * 4 + 3) &&& s.readK e.k e.t (slot * 4 + 3) ks.toNat

/-- A predicate, FL[PF] XOR PN, sampled at t (R44). -/
def predicate (s : State) (e : Env) (slot : Nat) (pf : BitVec 4) (pn : Bool) : Bool :=
  (pf = 0 || (s.readFlags e.k e.t (slot * 4 + 3)).getLsbD pf.toNat) != pn

end Sys2Proof.Machine
end

