-- ==== Sys2Proof/Machine/Issue.lean ====
section
/-! DEFINITION. The issue of a bundle (R26, R31, R40, R44, R59, R64, R65, R262): what an operation is to the issue stage, the
scan of a bundle's slots in slot order, and the one decision over all of them: trap, block, hold, rendezvous, or issue. -/

namespace Sys2Proof.Machine

/-- A hold of the bundle (R31 step 3, R62): a fetch gap that is judged again in the next cycle, a walk of a scalar access, or
a freeze (R30). -/
inductive Hold where
  | gap
  | walk (pages : List Nat)
  | freeze (c : FreezeCause)
deriving DecidableEq, Repr

/-- A destination written at a cycle (R65): kind 0 scalar register, 1 vector row, 2 mask register, 3 flag bit; number; row;
cycle. -/
structure WriteAt where
  kind : Nat
  number : Nat
  row : Nat
  cycle : Nat
deriving DecidableEq, Repr

/-- What the rendezvous condition says of a bundle that passed everything else (R31 step 5, R217). -/
inductive Meeting where
  | pass
  | trap (record : State → State) (t : Trap)
  | wait (record : State → State) (latch : Nat)

/-- An operation as the issue stage sees it. Every function is evaluated in the state as the lower-numbered slots of the
bundle leave it (R40), and only when the predicate is true (R44): the checks of step 2 of R31, the block conditions
with the record of its own cause (R26), the holds of step 3, the traps of step 4, whether it ends overrun (R318), the
rendezvous condition, how overrun begins at it (R314), the effect, and what follows once every slot of the bundle has had its
effect (R55, R240, R243, R244). -/
structure SlotOp where
  slot : Nat
  uf : Nat
  pf : BitVec 4
  pn : Bool
  occ : Nat := 1
  privileged : Bool := false
  engine : Bool := false
  writes : Env → State → List WriteAt := fun _ _ => []
  check : Env → State → Option Trap := fun _ _ => none
  block : Env → State → Option (BlockCause × (State → State)) := fun _ _ => none
  hold : Env → State → Option Hold := fun _ _ => none
  trap : Env → State → Option Trap := fun _ _ => none
  endsOverrun : Env → State → Bool := fun _ _ => false
  meet : Env → State → Meeting := fun _ _ => .pass
  overrun : Env → State → Option (State → State) := fun _ _ => none
  effect : Env → State → State := fun _ s => s
  after : Env → State → State := fun _ s => s

/-- Whether an operation of a bundle executes (R44). -/
def SlotOp.active (o : SlotOp) (e : Env) (s : State) : Bool := predicate s e o.slot o.pf o.pn

/-- The findings of the scan so far. -/
structure Scan where
  state : State
  check : Option Trap
  block : Option (BlockCause × (State → State))
  hold : Option Hold
  trap : Option Trap
  ends : Bool
  writes : List (Nat × WriteAt)
  collision : Option Nat

/-- A trap of a slot of a decoded bundle. -/
def slotTrap (slot : Nat) (cause : Cause) (tval : W64) : Trap := { cause := cause, slot := slot, tval := tval, decoded := true }

/-- The lower of two slot numbers, where there are any. -/
def lowerOf : Option Nat → Option Nat → Option Nat
  | some a, some b => some (min a b)
  | some a, none => some a
  | none, b => b

/-- One slot scanned, in slot order (R40). s0 is the state before the bundle. (DEDUCED, notes/assumptions/9.md)
(DEDUCED, notes/assumptions/18.md) -/
def scanSlot (e : Env) (s0 : State) (a : Scan) (o : SlotOp) : Scan :=
  if !o.active e s0 then a
  else
    let w := o.writes e a.state
    { state := o.effect e a.state
      check := a.check <|> o.check e a.state
      block := a.block <|> o.block e a.state
      hold := a.hold <|> o.hold e a.state
      trap := a.trap <|> o.trap e a.state
      ends := a.ends || o.endsOverrun e a.state
      writes := a.writes ++ w.map fun x => (o.slot, x)
      collision := lowerOf a.collision ((a.writes.find? fun p => w.contains p.2).map Prod.fst) }

/-- The first present slot that an operation of the same context still occupies (R65). -/
def occupiedSlot (e : Env) (s : State) (ops : List SlotOp) : Option Nat :=
  (ops.find? fun o => (s.core e.core).occupied.any fun x =>
    x.slot = o.slot && decide (e.t < x.free) && x.ctx = e.k).map SlotOp.slot

/-- Whether an operation of another context still occupies a present slot: the bundle is held (R27 step 3). -/
def heldByOther (e : Env) (s : State) (ops : List SlotOp) : Bool :=
  ops.any fun o => (s.core e.core).occupied.any fun x => x.slot = o.slot && decide (e.t < x.free) && x.ctx ≠ e.k

/-- The first operation with a privileged form in user state (R87). -/
def privilegeTrap (e : Env) (s : State) (ops : List SlotOp) : Option Trap :=
  if s.supervisor e.k then none
  else (ops.find? fun o => o.privileged && o.active e s).map fun o =>
    slotTrap o.slot .privilege (BitVec.ofNat 64 (o.slot + o.uf * 256))

/-- SCHEDULE_FAULT of a bundle: an occupied slot, then a write collision (R65; DEDUCED, notes/assumptions/18.md). -/
def scheduleTrap (e : Env) (s : State) (ops : List SlotOp) (collision : Option Nat) : Option Trap :=
  match occupiedSlot e s ops with
  | some n => some (slotTrap n .scheduleFault (BitVec.ofNat 64 n))
  | none => collision.map fun n => slotTrap n .scheduleFault (BitVec.ofNat 64 (n + 16))

/-- The state in which a bundle's effects start: it has left the issue stage, its slots are occupied (R59), the next
sequential bundle may issue at t + 1 (R60), and what a rendezvous left the bundle is spent (R218). -/
def startIssue (e : Env) (s : State) (ops : List SlotOp) : State :=
  let s := s.updCtx e.k fun c => { c with
    pc := e.next
    firstIssue := some (c.firstIssue.getD e.t)
    bpExempt := none
    rp := c.rp && decide (c.meetPc ≠ e.pc)
    rendezvousTrap := if c.meetPc = e.pc then none else c.rendezvousTrap }
  let s := s.updCore e.core fun c => { c with
    bundle := none, walking := [], nextIssue := e.t + 1
    occupied := (c.occupied.filter fun x => decide (e.t < x.free))
      ++ (ops.map fun o => { slot := o.slot, free := e.t + o.occ, ctx := e.k }) }
  let live := ops.filter fun o => o.active e s
  (((s.event e.k 0x01 1).event e.k 0x02 live.length).event e.k 0x03 (ops.length - live.length)).event e.k 0x13
    (live.filter fun o => o.engine).length

/-- The running context waits for its barrier: overrun has ended, or cannot begin (R318). -/
def barrierBlock (s : State) (k : Nat) : BlockCause :=
  match (s.ctx k).barrierWait with
  | some w => .barrier w.barrier w.generation
  | none => .refetch

/-- A hold acts on the core (R30, R62, R279). -/
def State.holdBundle (s : State) (e : Env) (h : Hold) : State :=
  match h with
  | .gap => (s.updCore e.core fun c => { c with nextIssue := e.t + 1 }).event e.k 0x05 1
  | .walk pages => s.updCore e.core fun c => { c with walking := pages }
  | .freeze f => s.updCore e.core fun c => { c with freeze := some f }

/-- What follows a bundle's effects: what the executing operations do last, in slot order. -/
def afterEffects (e : Env) (s0 : State) (ops : List SlotOp) (s : State) : State :=
  ops.foldl (fun s o => if o.active e s0 then o.after e s else s) s

/-- A bundle scanned from a state: what its slots find, and the traps of step 4 of R31 in the order of R262.
(DEDUCED, notes/assumptions/9.md) -/
def scanBundle (e : Env) (s start : State) (ops : List SlotOp) : Scan × Option Trap :=
  let a := ops.foldl (scanSlot e s)
    { state := start, check := none, block := none, hold := none, trap := none, ends := false, writes := [], collision := none }
  (a, scheduleTrap e s ops a.collision <|> privilegeTrap e s ops <|> a.trap)

/-- The bundle of a bar arrival that would begin overrun (R314), in the overrun that it begins: held, or issued with all its
slots; nothing where a condition of Table 7 or a block of another slot holds. (DEDUCED, notes/assumptions/83.md) -/
def issueOverrun (e : Env) (ops : List SlotOp) (s : State) : Option State :=
  match (ops.find? fun o => o.slot = 8 && o.active e s).bind fun o => o.overrun e s with
  | none => none
  | some begin =>
    let (a, late) := scanBundle e s (begin (startIssue e s ops)) (ops.filter fun o => o.slot ≠ 8)
    if a.check.isSome || a.block.isSome || a.ends || (a.hold.isNone && late.isSome) then none
    else
      match a.hold with
      | some h => some (s.holdBundle e h)
      | none => some (afterEffects e s (ops.filter fun o => o.slot ≠ 8) a.state)

/-- The bundle's decision (R26, R31, R64, R262, R318): a check of step 2 traps; then, in overrun, what ends overrun blocks;
then a block; then a hold; then SCHEDULE_FAULT, PRIVILEGE and the slots' own causes; then the rendezvous; then it issues. -/
def issueIn (e : Env) (ops : List SlotOp) (s : State) : State :=
  if heldByOther e s ops then s.holdBundle e .gap
  else
    let (a, late) := scanBundle e s (startIssue e s ops) ops
    if (s.ctx e.k).overrun.isSome && (a.check.isSome || a.ends || (a.block.isNone && a.hold.isNone && late.isSome)) then
      s.blockCtx e.k e.t (barrierBlock s e.k)
    else
      match a.check, a.block, a.hold, late with
      | some t, _, _, _ => s.takeTrap e.k e.t e.pc e.next t
      | none, some (b, record), _, _ => (issueOverrun e ops s).getD ((record s).blockCtx e.k e.t b)
      | none, none, some h, _ => s.holdBundle e h
      | none, none, none, some t => s.takeTrap e.k e.t e.pc e.next t
      | none, none, none, none =>
        match (ops.find? fun o => o.slot = 9 && o.active e s).map fun o => o.meet e s with
        | some (Meeting.trap record t) => (record s).takeTrap e.k e.t e.pc e.next t
        | some (Meeting.wait record l) => (record s).blockCtx e.k e.t (.rendezvous l)
        | _ => afterEffects e s ops a.state

/-- The environment of the bundle that a core holds ready to issue; none where it holds none. -/
def issueEnvOf (s : State) (n : Nat) : Option Env :=
  let core := s.core n
  match core.running, core.bundle with
  | some k, some b =>
    if (s.ctx k).drain = .none && core.freeze.isNone then
      some { k := k, core := n, t := core.lt, pc := b.pc, next := b.pc + BitVec.ofNat 57 b.length
             imms := b.imms, immw := b.immw, dlq := (s.ctx k).dlq, firstAccess := (s.ctx k).nextAccess
             busy := !s.writtenBack k || !(s.asyncRegs k).isEmpty, inPhase := (s.ctx k).phaseRec.isSome
             passed := (s.ctx k).rp && decide ((s.ctx k).meetPc = b.pc)
             divergence := if (s.ctx k).meetPc = b.pc then (s.ctx k).rendezvousTrap else none }
    else none
  | _, _ => none

/-- The environment of the bundle that the core named by turn holds. -/
def issueEnv (s : State) : Option Env := issueEnvOf s s.turn

/-- The operations of a bundle issue on the core named by turn; nothing happens where no bundle stands ready there. -/
def issueOps (ops : List SlotOp) (s : State) : State :=
  match issueEnv s with
  | some e => issueIn e ops s
  | none => s

end Sys2Proof.Machine
end

