-- ==== Sys2Proof/Machine/Fetch.lean ====
section
/-! DEFINITION. From bytes to a bundle in the issue stage: dictionary objects, handles and decode-table pages (R75 to R84), the
instruction cache and the stream (R67 to R74, R232), and the decode of the next bundle of the running context (R73). -/

namespace Sys2Proof.Machine

/-! ## Dictionary objects (R75 to R77) -/

/-- The pages of the decode table of a class (R78 Table 4), classes in the order S, V, F, M, C, E. -/
def classPages (cls : Nat) : Nat := match cls with | 2 => 16 | 4 => 32 | 5 => 16 | _ => 64
/-- A slot of a class. -/
def classSlot (cls : Nat) : Nat := match cls with | 0 => 0 | 1 => 2 | 2 => 5 | 3 => 6 | 4 => 8 | _ => 9
/-- The pages that a number of entries spans (R76). -/
def pagesOf (count : Nat) : Nat := (count + 15) / 16
/-- n little-endian bytes of a block at an offset. -/
def fieldAt (bs : List Byte) (off n : Nat) : Nat := ofBytes ((bs.drop off).take n)

/-- A dictionary header (R75 Table 3): the handle it makes, or nothing where it is rejected (R77). Of arrays the page-wise
spans count. mayPriv says that the binding may be of a PRIV dictionary. -/
def parseHeader (bs : List Byte) (mayPriv : Bool) : Option DictHandle :=
  let counts := tabulate (fun i => fieldAt bs (8 + 2 * i) 2) 6 0
  let pins := tabulate (fun i => fieldAt bs (0x14 + i) 1) 6 0
  let arrays := tabulate (fun i => fieldAt bs (0x20 + 4 * i) 4) 6 0
  let length := fieldAt bs 0x38 4
  let flags := fieldAt bs 6 2
  let spans := (tabulate (fun i => (arrays.getD i 0, 128 * pagesOf (counts.getD i 0))) 6 0).filter fun a => a.2 ≠ 0
  let good (i : Nat) : Bool :=
    let n := counts.getD i 0
    let a := arrays.getD i 0
    decide (n ≤ 16384) && decide (pins.getD i 0 ≤ pagesOf n) && decide (pins.getD i 0 ≤ classPages i / 2)
      && decide (a % 128 = 0)
      && (if n = 0 then a = 0 else decide (64 ≤ a) && decide (a + 128 * pagesOf n ≤ length))
  let apart (x y : Nat × Nat) : Bool := decide (x.1 + x.2 ≤ y.1) || decide (y.1 + y.2 ≤ x.1)
  let disjoint := (spans.mapIdx fun i x => (spans.drop (i + 1)).all (apart x)).all id
  if fieldAt bs 0 4 = 0x4E445844 && fieldAt bs 4 2 = 1 && flags < 2 && fieldAt bs 0x1A 6 = 0 && fieldAt bs 0x3C 4 = 0
      && (List.range 6).all good && disjoint && (flags = 0 || mayPriv) then
    some { object := 0, asid := 0, counts := counts, pinPages := pins, arrays := arrays, priv := flags = 1, bound := 0
           loaded := false }
  else none

/-- The 64 bytes of an aligned line as a unit of a core reads them in a region's address space (R72, R77, R81). -/
def State.lineRead (s : State) (region : Nat) (use : PageUse) (va : Nat) : Except Cause (List Byte) × State :=
  match s.deviceWalk region use (BitVec.ofNat 64 va) with
  | .error c => (.error c, s.walkFailed region (BitVec.ofNat 64 va))
  | .ok p =>
    let s := s.mergeLine (lineOf p.key)
    if s.uncorrectable p.key then (.error .poison, s.count (ctrUncorrectable 0 (tierOf p.key % 4)) 1)
    else (.ok (s.bytesAt p.key 64), s)

/-! ## Handles (R78, R79) -/

/-- The object address that an object word names: bits [56:7] (R80). -/
def objectOf (w : W64) : Nat := bitsOf w.toNat 56 7 * 128
/-- Whether a residency slot pins an object in an ASID slot (R83, R399). -/
def State.pinnedObject (s : State) (object asid : Nat) : Bool :=
  s.residency.any fun r => r.2.valid && r.2.pinned && objectOf r.2.dictObj = object && s.asidOf r.2.owner = asid
/-- Whether a resident context of a core, other than one that is being bound anew, is bound to a handle. -/
def State.handleUsed (s : State) (core : Nat) (binder : Option Nat) (i : Nat) : Bool :=
  (ctxsOfCore core).any fun k => some k ≠ binder && (s.ctx k).phase ≠ .free && (s.ctx k).dictHandle = i
/-- The handle of a core that names an object in an ASID slot. -/
def State.handleNaming (s : State) (core object asid : Nat) : Option Nat :=
  (findPlace (fun h : Option DictHandle => match h with | some d => d.object = object && d.asid = asid | none => false)
    (s.core core).handles 0).map Prod.fst
/-- Of two handles, the one released first (R79): one that only a dload.obj took, then the least recently bound. -/
def releasedFirst (a b : Nat × DictHandle) : Nat × DictHandle :=
  if a.2.loaded = b.2.loaded then (if b.2.bound < a.2.bound then b else a) else if b.2.loaded then b else a
/-- The handle that a new object may take (R79): an invalid one, or else one that no resident context uses, but for the one that is
being bound, and no residency slot pins. -/
def State.handleFree (s : State) (core : Nat) (binder : Option Nat) : Option Nat :=
  let hs := (s.core core).handles
  match findPlace (fun h : Option DictHandle => h.isNone) hs 0 with
  | some (i, _) => some i
  | none =>
    let free := (hs.mapIdx fun i h => (i, h)).filterMap fun (i, h) => match h with
      | some d => if s.handleUsed core binder i || s.pinnedObject d.object d.asid then none else some (i, d)
      | none => none
    match free with
    | [] => none
    | x :: xs => some (xs.foldl releasedFirst x).1

/-- The pages of the first PINPG of each class of a handle, queued for installation where its object is pinned (R83). -/
def State.queuePins (s : State) (core region i : Nat) (d : DictHandle) : State :=
  if s.pinnedObject d.object d.asid then
    let pages := ((List.range 6).map fun cls => (List.range (d.pinPages.getD cls 0)).map fun p => (region, i, cls, p)).flatten
    s.updCore core fun c => { c with refillQueue := c.refillQueue ++ pages }
  else s

/-- An object bound for a context (binder), or for a dload.obj only named, by a handle of a core, through a region's address
space (R77, R79): the handle, or the cause of failure: ILLEGAL_STREAM for a rejected header. None is every handle in use.
(DEDUCED, notes/assumptions/47.md) -/
def State.bindObject (s : State) (core region object : Nat) (binder : Option Nat) (mayPriv : Bool) :
    Option (Except Cause Nat) × State :=
  let load := binder.isNone
  let asid := s.asidOf region
  let s := s.updCore core fun c => { c with uses := c.uses + 1 }
  let now := (s.core core).uses
  match s.handleNaming core object asid with
  | some i =>
    match ((s.core core).handles[i]?).bind id with
    | some d =>
      if d.priv && !mayPriv then (some (.error .illegalStream), s)
      else
        let d := if load then d else { d with bound := now, loaded := false }
        (some (.ok i), s.updCore core fun c => { c with handles := setPlace c.handles i (some d) })
    | none => (none, s)
  | none =>
    match s.handleFree core binder with
    | none => (none, s)
    | some i =>
      match s.lineRead region .load object with
      | (.error c, s) => (some (.error c), s)
      | (.ok bs, s) =>
        match parseHeader bs mayPriv with
        | none => (some (.error .illegalStream), s)
        | some d =>
          let d := { d with object := object, asid := asid, bound := now, loaded := load }
          let s := s.updCore core fun c => { c with
            handles := setPlace c.handles i (some d)
            pages := c.pages.filter fun p => p.handle ≠ i
            refillQueue := c.refillQueue.filter fun p => p.2.1 ≠ i }
          (some (.ok i), s.queuePins core region i d)

/-! ## Decode-table pages (R78, R81, R84) -/

/-- Whether a page is exempt from eviction (R83). -/
def State.pagePinned (s : State) (core : Nat) (p : DecodePage) : Bool :=
  match ((s.core core).handles[p.handle]?).bind id with
  | some d => decide (p.page < d.pinPages.getD p.cls 0) && s.pinnedObject d.object d.asid
  | none => false
/-- Of two pages, the one evicted first: a dropped one, then the least recently used (R81, R84). -/
def evictedFirst (a b : DecodePage) : DecodePage :=
  if a.dropped = b.dropped then (if b.used < a.used then b else a) else if b.dropped then b else a
/-- Room made for a page of a class: the least recently used unpinned page is evicted where the table is full. -/
def State.makeRoom (s : State) (core cls : Nat) : State :=
  let mine := (s.core core).pages.filter fun p => p.cls = cls
  if mine.length < classPages cls then s
  else
    let out := match mine.filter fun p => !s.pagePinned core p with
      | [] => mine
      | free => free
    match out with
    | [] => s
    | x :: xs =>
      let v := xs.foldl evictedFirst x
      s.updCore core fun c => { c with
        pages := c.pages.filter fun p => !(p.cls = v.cls && p.handle = v.handle && p.page = v.page) }

/-- Whether a page is resident. -/
def State.pageResident (s : State) (core handle cls page : Nat) : Bool :=
  (s.core core).pages.any fun p => p.cls = cls && p.handle = handle && p.page = page

/-- A page read, filtered and installed (R81, R82); or the cause and the failing address. -/
def State.installPage (s : State) (core region handle cls page : Nat) : Option (Cause × Nat) × State :=
  match ((s.core core).handles[handle]?).bind id with
  | none => (none, s)
  | some d =>
    let at' := d.object + d.arrays.getD cls 0 + 128 * page
    match s.lineRead region .load at' with
    | (.error c, s) => (some (c, at'), s)
    | (.ok lo, s) =>
      match s.lineRead region .load (at' + 64) with
      | (.error c, s) => (some (c, at' + 64), s)
      | (.ok hi, s) =>
        let bs := lo ++ hi
        let entry (i : Nat) : Nat × Bool :=
          let x := fieldAt bs (8 * i) 8
          (x, (filterContainer (kindOf core) d.priv (classSlot cls) x).isNone)
        let s := s.makeRoom core cls
        let s := s.updCore core fun c => { c with
          uses := c.uses + 1
          pages := c.pages ++ [{ cls := cls, handle := handle, page := page, entries := tabulate entry 16 0, dropped := false
                                 used := c.uses }] }
        (none, s)

/-- The entry of a decode table: container and bad flag. -/
def State.tableEntry (s : State) (core handle cls index : Nat) : Option (Nat × Bool) :=
  ((s.core core).pages.find? fun p => p.cls = cls && p.handle = handle && p.page = index / 16).bind fun p =>
    p.entries[index % 16]?

/-- The running context of a core that is not draining. -/
def State.issuing (s : State) (core : Nat) : Option Nat :=
  match (s.core core).running with
  | some k => if (s.ctx k).drain = .none then some k else none
  | none => none

/-- DICTIONARY_REFILL (R81, R251): the refill engine installs the next page that the frozen bundle misses, or reads the header
that a dload.obj names; with nothing missing, the next page queued. The freeze ends in the cycle after the last page.
(DEDUCED, notes/assumptions/46.md) -/
def dictionaryRefill (core : Nat) (s : State) : State :=
  let thaw (s : State) : State := s.updCore core fun c => { c with freeze := some (.refill []) }
  match (s.core core).freeze, (s.core core).running with
  | some (.refill ((cls, page) :: rest)), some k =>
    match s.installPage core (s.regionOf k) (s.ctx k).dictHandle cls page with
    | (none, s) => (s.updCore core fun c => { c with freeze := some (.refill rest) }).event k 0x12 1
    | (some x, s) => thaw (s.updCore core fun c => { c with refillFault := some x })
  | some (.header object), some k =>
    let region := s.regionOf k
    let may := s.supervisor k || core ≥ 1024
    match s.bindObject core region object none may with
    | (some (.error c), s) =>
      thaw (s.updCore core fun x => { x with refillFault := some (c, if c = .illegalStream then 5 + 15 * 16 else object) })
    | (_, s) => thaw s
  | none, _ =>
    match (s.core core).refillQueue with
    | (region, handle, cls, page) :: rest =>
      let s := s.updCore core fun c => { c with refillQueue := rest }
      if s.pageResident core handle cls page then s else (s.installPage core region handle cls page).2
    | [] => s
  | _, _ => s


/-! ## The instruction cache and the stream (R67 to R72, R232) -/

/-- What fetch finds of a line: its bytes, or those before an address from which on it cannot be fetched, or that it is not
resident, or that the byte wanted cannot be fetched. -/
inductive LineView where
  | bytes (l : List Byte)
  | part (l : List Byte) (c : Cause) (va : Nat)
  | missing
  | fault (c : Cause) (va : Nat)

/-- A line of which the 64 bytes at bad cannot be fetched, from the byte wanted on: its other half is there
(DEDUCED, notes/assumptions/89.md). -/
def State.halfLine (s : State) (region line first : Nat) (c : Cause) (bad : Nat) : LineView :=
  let half (va : Nat) := (s.lineRead region .fetch va).1
  if bad = line * 128 then
    if first < bad + 64 then .fault c first
    else match half (bad + 64) with
      | .ok hi => .bytes (List.replicate 64 0 ++ hi)
      | .error c => .fault c first
  else if first < bad then
    match half (line * 128) with
    | .ok lo => .part lo c bad
    | .error c => .fault c first
  else .fault c first

/-- The line of a context's code, checked for execution (R72). first is the first byte wanted. -/
def State.viewLine (s : State) (k line first : Nat) : LineView :=
  let core := s.core (coreOf k)
  let region := s.regionOf k
  match s.translate (clusterOf k) (s.asidOf region) (s.ptbase region) .fetch (!s.supervisor k) true (line * 128) with
  | .fault c => .fault c first
  | _ =>
    match core.fetchFaults.find? fun x => x.1 = line with
    | some (_, c, bad) => s.halfLine region line first c bad
    | none =>
      match core.icache.find? fun x => x.valid && x.line = line && x.asid = s.asidOf region with
      | some x => .bytes x.bytes
      | none => .missing

/-- The pins of a context (R232 Table 1). -/
def State.pinsOf (s : State) (core k : Nat) : Nat := ((s.core core).icache.filter fun l => l.pins.contains k).length
/-- The pinned lines of a core. -/
def State.pinnedLines (s : State) (core : Nat) : Nat := ((s.core core).icache.filter fun l => !l.pins.isEmpty).length

/-- A line put in the instruction cache, in place of an invalidated one whose pins it takes; where the cache is full, its oldest
unpinned line leaves (R232, R233; DESIGN CHOICE, notes/assumptions/7.md). -/
def State.installLine (s : State) (core : Nat) (l : CodeLine) : State :=
  s.updCore core fun c =>
    let full := decide (512 ≤ c.icache.length)
    let rec dropLast : List CodeLine → List CodeLine
      | [] => []
      | x :: xs => if x.pins.isEmpty && !(xs.any fun y => y.pins.isEmpty) then xs else x :: dropLast xs
    let same (x : CodeLine) : Bool := x.line = l.line && x.asid = l.asid
    let pins := (c.icache.filter same).map CodeLine.pins
    let rest := c.icache.filter fun x => !same x
    { c with icache := { l with pins := pins.flatten } :: (if full then dropLast rest else rest) }

/-- A line of code read from memory: the line, or the cause and the address of its first half that cannot be read; data that is
uncorrectable is fetched again once (R72; DEDUCED, notes/assumptions/89.md). -/
def State.readCode (s : State) (core region line : Nat) : Except (Cause × Nat) CodeLine × State :=
  let va := line * 128
  match s.lineRead region .fetch va with
  | (.error c, s) => (.error (c, va), if c = .poison then s.count (ctrRefetch core) 1 else s)
  | (.ok lo, s) =>
    match s.lineRead region .fetch (va + 64) with
    | (.error c, s) => (.error (c, va + 64), if c = .poison then s.count (ctrRefetch core) 1 else s)
    | (.ok hi, s) => (.ok { asid := s.asidOf region, line := line, valid := true, bytes := lo ++ hi, pins := [] }, s)

/-- What fetch and the first five steps of decode find at the PC of a context: a line to wait for, a trap, or a stream. -/
inductive Fetched where
  | miss (line : Nat)
  | trap (t : Trap)
  | stream (d : StreamDecode)

/-- A trap of fetch and decode: TNPC will name the bundle itself (R260). (DEDUCED, notes/assumptions/24.md) -/
def streamTrap (slot : Nat) (cause : Cause) (tval : Nat) : Trap :=
  { cause := cause, slot := slot, tval := BitVec.ofNat 64 tval, decoded := false }

/-- The bundle at an address of a context's code, through the lines it spans, each as view finds it (R72, R73 steps 1 to 5). -/
def State.streamThrough (s : State) (view : Nat → Nat → LineView) (k pc : Nat) : Fetched :=
  let line := pc / 128
  let count (cls : Nat) : Nat := ((s.handleOf k).map fun d => d.counts.getD cls 0).getD 0
  let partly (bs : List Byte) (c : Cause) (a : Nat) : Fetched :=
    match decodeStream count bs with
    | .short => .trap (streamTrap 15 c a)
    | d => .stream d
  match view line pc with
  | .missing => .miss line
  | .fault c a => .trap (streamTrap 15 c a)
  | .part bs c a => partly (bs.drop (pc % 128)) c a
  | .bytes bs =>
    let bs := bs.drop (pc % 128)
    match decodeStream count bs with
    | .short =>
      let next := (line + 1) % 2 ^ 50
      match view next (next * 128) with
      | .missing => .miss next
      | .fault c a => .trap (streamTrap 15 c a)
      | .part more c a => partly (bs ++ more) c a
      | .bytes more => .stream (decodeStream count (bs ++ more))
    | d => .stream d
/-- The bundle at an address of a context's code, as far as its lines have arrived. -/
def State.fetchedAt (s : State) (k pc : Nat) : Fetched := s.streamThrough (s.viewLine k) k pc
/-- The bundle at the PC of a context. -/
def State.fetched (s : State) (k : Nat) : Fetched := s.fetchedAt k (s.ctx k).pc.toNat

/-- A line of a context's code, from the instruction cache or as a fill would bring it. -/
def State.filledLine (s : State) (k line first : Nat) : LineView :=
  match s.viewLine k line first with
  | .missing =>
    match (s.readCode (coreOf k) (s.regionOf k) line).1 with
    | .ok l => .bytes l.bytes
    | .error (c, bad) => s.halfLine (s.regionOf k) line first c bad
  | v => v
/-- The stream at an address of a context's code, whether its lines are resident or not. -/
def State.streamAt (s : State) (k pc : Nat) : Option StreamDecode :=
  match s.streamThrough (s.filledLine k) k pc with
  | .stream d => some d
  | _ => none

/-- INSTRUCTION_CACHE_FILL (R72): the line that the running context of a core waits for arrives.
(DESIGN CHOICE, notes/assumptions/7.md) -/
def instructionCacheFill (core : Nat) (s : State) : State :=
  match s.issuing core with
  | none => s
  | some k =>
    match s.fetched k with
    | .miss line =>
      match s.readCode core (s.regionOf k) line with
      | (.ok l, s) => s.installLine core l
      | (.error (c, a), s) => s.updCore core fun x => { x with fetchFaults := (line, c, a) :: x.fetchFaults }
    | _ => s

/-- An uncorrectable error that the decode of the next bundle finds in a resident entry (R81): the page of its class goes, the
access is then a miss, and the eviction is counted (R413). Pages that the bundle names no entry of are not read. -/
def decodeError (core cls page : Nat) (s : State) : State :=
  match s.issuing core with
  | none => s
  | some k =>
    let h := (s.ctx k).dictHandle
    let named := match s.fetched k with
      | .stream (.bundle tokens _ _ _ _) => tokens.any fun x => slotClass x.1 = cls && x.2 / 16 = page
      | _ => false
    if named && (s.core core).bundle.isNone && s.pageResident core h cls page then
      (s.updCore core fun c => { c with
        pages := c.pages.filter fun p => !(p.cls = cls && p.handle = h && p.page = page) }).count (ctrEvicted core) 1
    else s
/-- DICTIONARY_REFILL, or the error in a resident entry that makes one necessary (R81). -/
def execEvDictionaryRefill (what : RefillEvent) (s : State) : Host.Outcome State Fault Refusal :=
  match what with
  | .serve core => .next (dictionaryRefill core s)
  | .badEntry core cls page => .next (decodeError core cls page s)

/-- INSTRUCTION_CACHE_FILL. -/
def execEvInstructionCacheFill (core : Nat) (s : State) : Host.Outcome State Fault Refusal :=
  .next (instructionCacheFill core s)

/-! ## Decode (R73) -/

/-- The selectors of a container, by class (R41), with the second selector of chkt (R241). -/
def containerSelectors (cls x : Nat) : List Nat :=
  match cls with
  | 0 | 2 => [bitsOf x 25 20, bitsOf x 19 14]
  | 1 => [bitsOf x 42 37, bitsOf x 36 31, bitsOf x 30 25]
  | 3 => [bitsOf x 33 28, bitsOf x 27 22]
  | 4 => if bitsOf x 39 32 = 0x14 then [bitsOf x 25 20, bitsOf x 5 0] else [bitsOf x 25 20]
  | _ => [bitsOf x 26 21]

/-- What decode makes of the bundle at the PC of a context. -/
inductive Prepared where
  | miss (line : Nat)
  | trap (t : Trap)
  | refill (pages : List (Nat × Nat))
  | bundle (b : IssueBundle) (used : List (Nat × Nat))

/-- Step 7 of R73 for the present slots in slot order: a bad entry, or an immediate that the bundle does not carry. -/
def entryTrap (nimm : Nat) : List (Nat × Nat × Bool) → Option Trap
  | [] => none
  | (slot, x, bad) :: rest =>
    if bad then some (streamTrap slot .illegalCw (slot + containerUf slot x * 256))
    else if (containerSelectors (slotClass slot) x).any fun n => decide (40 ≤ n) && decide (n < 44) && decide (nimm + 40 ≤ n) then
      some (streamTrap slot .illegalStream (4 + slot * 16))
    else entryTrap nimm rest

/-- The decode of the next bundle of a context (R73). (DEDUCED, notes/assumptions/24.md) -/
def State.prepared (s : State) (k : Nat) : Prepared :=
  let core := s.core (coreOf k)
  let pc := (s.ctx k).pc
  let h := (s.ctx k).dictHandle
  match s.fetched k with
  | .miss l => .miss l
  | .trap t => .trap t
  | .stream d =>
    match d with
    | .short => .miss 0
    | .bad sub slot index => .trap (streamTrap slot .illegalStream (sub + slot * 16 + index * 256))
    | .idle count pad safe length =>
      .bundle { pc := pc, length := length, safe := safe, immw := false, imms := [], ops := [.idle count pad] } []
    | .bundle tokens imms immw safe length =>
      let pages := (tokens.map fun (slot, i) => (slotClass slot, i / 16)).eraseDups
      let absent := pages.filter fun (cls, p) => !s.pageResident (coreOf k) h cls p
      match core.refillFault, absent with
      | some (c, a), _ :: _ => .trap (streamTrap 15 c a)
      | none, _ :: _ => .refill absent
      | _, [] =>
        let entries := tokens.map fun (slot, i) =>
          let e := (s.tableEntry (coreOf k) h (slotClass slot) i).getD (0, true)
          (slot, e.1, e.2)
        match entryTrap imms.length entries with
        | some t => .trap t
        | none =>
          .bundle { pc := pc, length := length, safe := safe, immw := immw, imms := imms
                    ops := entries.filterMap fun (slot, x, _) => decodeContainer slot x } pages

/-- A trap condition met before a bundle issues: in overrun it ends overrun, and the context waits for its barrier (R318). -/
def State.trapOrWait (s : State) (k t : Nat) (trap : Trap) : State :=
  let pc := (s.ctx k).pc
  if (s.ctx k).overrun.isSome then s.blockCtx k t (barrierBlock s k) else s.takeTrap k t pc pc trap

/-- Decode of the next bundle of the running context of a core: it stands in the issue stage, or a line arrives, or the core
freezes for pages, or the context traps (R73, R81). -/
def prepareBundle (core : Nat) (s : State) : State :=
  match s.issuing core with
  | none => s
  | some k =>
    match s.prepared k with
    | .miss _ => instructionCacheFill core s
    | .trap t =>
      let region := s.regionOf k
      let s := if t.cause = .accessFault then
        s.countMiss (clusterOf k) (s.asidOf region) (s.ptbase region) t.tval.toNat else s
      s.trapOrWait k (s.core core).lt t
    | .refill pages => s.updCore core fun c => { c with freeze := some (.refill pages) }
    | .bundle b used =>
      let h := (s.ctx k).dictHandle
      s.updCore core fun c => { c with
        bundle := some b, walked := [], walking := [], conflictPaid := [], fetchFaults := [], refillFault := none
        uses := c.uses + 1
        pages := c.pages.map fun p => if p.handle = h && used.contains (p.cls, p.page) then { p with used := c.uses } else p }

/-- An idle bundle of count cycles (R70): it issues no slot, and the next bundle issues at t + count (R60). -/
def idleBundle (count : Nat) (s : State) : State :=
  match issueEnv s with
  | none => s
  | some e =>
    let s := s.updCtx e.k fun c => { c with
      pc := e.next
      firstIssue := some (c.firstIssue.getD e.t)
      bpExempt := none
      rp := c.rp && decide (c.meetPc ≠ e.pc)
      rendezvousTrap := if c.meetPc = e.pc then none else c.rendezvousTrap }
    (s.updCore e.core fun c => { c with bundle := none, nextIssue := e.t + count }).event e.k 0x01 1

/-- An idle bundle (R70). -/
def execIdle (count _pad : Nat) (s : State) : Host.Outcome State Fault Refusal := .next (idleBundle count s)

end Sys2Proof.Machine
end

