-- ==== Sys2Proof/Machine/Flags.lean ====
section
/-! DEFINITION. Every computation of a flag, and the status bits of scalar division: compares (R114), flset (R115), the wait
condition (R239), the division corners (R108); and what a landing counts as in the collision rule (R65). -/

namespace Sys2Proof.Machine

/-- A compare condition on 64-bit values (R114 Table 9). -/
def scalarCond (cond : Nat) (x y : W64) : Bool :=
  match cond with
  | 0 => x = y
  | 1 => x ≠ y
  | 2 => x.slt y
  | 3 => !x.slt y
  | 4 => x.ult y
  | 5 => !x.ult y
  | 6 => x &&& y ≠ 0
  | _ => x &&& y = 0

/-- cmp on the values of its sources (R114): word says that the low 32 bits are compared. -/
def compare (cond : Nat) (word : Bool) (a b : W64) : Bool :=
  if word then
    if cond = 4 || cond = 5 then scalarCond cond (zext32 (low32 a)) (zext32 (low32 b))
    else scalarCond cond (sext32 (low32 a)) (sext32 (low32 b))
  else scalarCond cond a b

/-- The new flag value of flset (R115). -/
def flsetValue (fl : BitVec 16) (a b : W64) : BitVec 16 :=
  ((fl &&& ~~~(b.truncate 16)) ||| (a.truncate 16 &&& b.truncate 16)) ||| 1

/-- The condition of wait (R239): all is ALL, m is a[15:0]. -/
def waitHolds (all : Bool) (m fl : BitVec 16) : Bool :=
  if all then fl &&& m = m else fl &&& m ≠ 0 || m = 0

/-- VSTAT bits of an integer division (R99 Table 3, R108 Table 8): bit 5 IDZ, bit 6 IOV. -/
def divStatus (signed : Bool) (w : Nat) (a b : Int) : BitVec 8 :=
  if b = 0 then 0x20 else if signed && a = -(2 ^ (w - 1) : Nat) && b = -1 then 0x40 else 0

/-- The destinations that a landing counts as writing at a cycle (R65). A write of k0 or of FL0 writes nothing (R98, R124). -/
def writesOf (cycle : Nat) : Landing → List WriteAt
  | .scalar r _ => [{ kind := 0, number := r, row := 0, cycle := cycle }]
  | .vrow v row _ _ => [{ kind := 1, number := v, row := row, cycle := cycle }]
  | .kmask k _ _ => if k = 0 then [] else [{ kind := 2, number := k, row := 0, cycle := cycle }]
  | .flags m _ =>
    ((List.range 16).filter fun i => i ≠ 0 && m.getLsbD i).map fun i => { kind := 3, number := i, row := 0, cycle := cycle }
  | _ => []

end Sys2Proof.Machine
end

