-- ==== Sys2Proof/Machine/Trace.lean ====
section
/-! DEFINITION. Trace records (R419), the replay log (R420) and replay turns (R421). -/

namespace Sys2Proof.Machine

/-! ## Trace records (R419) -/

/-- What a trace record names beside its type and data: queue, sequence number, engine, group position and index. -/
structure TraceName where
  queue : Nat
  seq : Nat
  engine : Nat
  pos : Nat
  gidx : Nat
deriving DecidableEq, Repr

/-- The 32 bytes of a trace record (R419 Table 8). -/
def traceBytes (type flags ns : Nat) (x : TraceName) (data : W64) : List Byte :=
  toBytes 1 type ++ toBytes 1 flags ++ toBytes 2 x.queue ++ toBytes 4 x.seq ++ toBytes 8 ns
    ++ toBytes 2 (x.engine % 4096 + 4096 * x.pos) ++ toBytes 2 0 ++ toBytes 4 x.gidx ++ toBytes 8 data.toNat

/-- A trace record of a region written, where its service is on and the type enabled; types 10 to 13 are written whatever
TRACE and TYPES hold (R419). A record that cannot be written is lost. -/
def State.trace (s : State) (region type flags : Nat) (x : TraceName) (data : W64) : State :=
  match mapGet? s.traces region with
  | none => s
  | some t =>
    if 10 ≤ type || (t.mode.getLsbD 0 && t.types.getLsbD type) then
      match s.deviceRead t.debugger 0 t.wra 8 with
      | (.error _, s) => s
      | (.ok (wr, lts), s) =>
        match s.deviceRead t.debugger lts t.rda 8 with
        | (.error _, s) => s
        | (.ok (rd, lts), s) =>
          if wr = rd + 2 ^ t.rlogn then
            s.addOne t.debugger lts t.ovfa
          else
            match s.deviceWrite t.debugger lts (t.ring + BitVec.ofNat 64 (32 * (wr % 2 ^ t.rlogn)))
                (traceBytes type flags (nsOf s.clk) x data) with
            | (.error _, s) => s
            | (.ok lts, s) => (s.deviceWrite t.debugger lts t.wra (toBytes 8 (wr + 1))).2
    else s

/-- What names a command in a trace record. -/
def State.commandName (s : State) (command : Nat) : TraceName :=
  let c := mapGet? s.commands command
  { queue := (c.map Command.queue).getD 0, seq := (c.map Command.seq).getD 0, engine := 0, pos := 0, gidx := 0 }
/-- What names a context in a trace record. -/
def State.contextName (s : State) (k : Nat) : TraceName :=
  match s.groupOf k with
  | some g => { s.commandName g.command with engine := engineOf k, pos := (s.ctx k).pos, gidx := g.g }
  | none => { queue := 0, seq := 0, engine := engineOf k, pos := (s.ctx k).pos, gidx := 0 }
/-- A trace record of a context. (DEDUCED, notes/assumptions/57.md) -/
def State.traceCtx (s : State) (k type flags : Nat) (data : W64) : State :=
  s.trace (s.regionOf k) type flags (s.contextName k) data
/-- A trace record of a group: its data is the placement handle (R419 Table 9). -/
def State.traceGroup (s : State) (g type flags : Nat) : State :=
  match s.group? g with
  | some x =>
    s.trace x.region type flags { s.commandName x.command with engine := engineOf (x.keys.headD 0), gidx := x.g } (BitVec.ofNat 64 g)
  | none => s

/-! ## The replay log (R420) -/

/-- A replay log entry (R420 Table 10). -/
structure LogEntry where
  kind : Nat
  pos : Nat
  obj : Nat
  gidx : Nat
  ordn : Nat
  queue : Nat
  elem : Nat
  line : Nat
deriving DecidableEq, Repr

/-- The bytes of a log entry. -/
def LogEntry.bytes (x : LogEntry) : List Byte :=
  toBytes 1 x.kind ++ toBytes 1 x.pos ++ toBytes 1 x.obj ++ toBytes 1 0 ++ toBytes 4 x.gidx ++ toBytes 4 x.ordn
    ++ toBytes 2 x.queue ++ toBytes 2 x.elem ++ toBytes 8 x.line ++ toBytes 8 0
/-- A log entry from its bytes. -/
def LogEntry.ofBytes (bs : List Byte) : LogEntry :=
  { kind := fieldOf 0 1, pos := fieldOf 1 1, obj := fieldOf 2 1, gidx := fieldOf 4 4, ordn := fieldOf 8 4
    queue := fieldOf 12 2, elem := fieldOf 14 2, line := fieldOf 16 8 }
where
  /-- n bytes at an offset. -/
  fieldOf (off n : Nat) : Nat := Machine.ofBytes ((bs.drop off).take n)

/-- The stream of an entry (R420): the kinds of one stream share a class; an atomic's stream is its line. -/
def LogEntry.stream (x : LogEntry) : Nat × Nat × Nat × Nat × Nat × Nat :=
  if x.kind = 6 then (6, 0, 0, 0, 0, x.line)
  else ((if x.kind = 3 then 2 else if x.kind = 5 then 4 else x.kind), x.obj, x.gidx, x.ordn, x.queue, 0)

/-- The entry of an event of a context (R420). -/
def State.eventEntry (s : State) (k kind obj elem : Nat) (va : W64) : LogEntry :=
  match s.groupOf k with
  | some g =>
    let c := mapGet? s.commands g.command
    { kind := kind, pos := (s.ctx k).pos, obj := obj, gidx := g.g % 2 ^ 32, ordn := ((c.map Command.ordinal).getD 0) % 2 ^ 32
      queue := ((c.map Command.queue).getD 0) % 2 ^ 16, elem := elem, line := va.toNat / 64 * 64 }
  | none => { kind := kind, pos := 0, obj := obj, gidx := 0, ordn := 0, queue := 0, elem := elem, line := va.toNat / 64 * 64 }

/-- The value of n bytes in a debugger's address space, as replay reads it; nothing where it cannot be read. -/
def State.peek (s : State) (region : Nat) (va : W64) (n : Nat) : Option (List Byte) :=
  match s.deviceWalk region .load va with
  | .ok p => if s.uncorrectable p.key then none else some (s.bytesAt p.key n)
  | .error _ => none

/-- Entry i of a service's log. -/
def State.logAt (s : State) (t : TraceService) (i : Nat) : Option LogEntry :=
  (s.peek t.debugger (t.logb + BitVec.ofNat 64 (32 * i)) 32).map LogEntry.ofBytes

/-- The next entry of a stream that has not taken place, under REPLAY (R421): its place in the log and itself. -/
def State.nextInStream (s : State) (t : TraceService) (x : LogEntry) : Option (Nat × LogEntry) :=
  let n := min (((s.peek t.debugger t.logwr 8).map ofBytes).getD 0) (2 ^ t.llogn)
  (List.range n).findSome? fun i =>
    if t.done.contains i then none
    else (s.logAt t i).bind fun y => if y.stream = x.stream then some (i, y) else none

/-- Whether an event of a context is held by replay: it is not next in its stream (R421). (DEDUCED, notes/assumptions/55.md) -/
def State.replayHolds (s : State) (k kind obj elem : Nat) (va : W64) : Bool :=
  match mapGet? s.traces (s.regionOf k) with
  | none => false
  | some t =>
    t.mode.getLsbD 2 &&
      let x := s.eventEntry k kind obj elem va
      match s.nextInStream t x with
      | some (_, y) => x ≠ y
      | none => false

/-- A synchronisation event of a context has taken place: it is logged under RECORD, and counted off under REPLAY
(R420, R421). (DEDUCED, notes/assumptions/57.md) -/
def State.logEvent (s : State) (k kind obj elem : Nat) (va : W64) : State :=
  let region := s.regionOf k
  match mapGet? s.traces region with
  | none => s
  | some t =>
    let x := s.eventEntry k kind obj elem va
    if t.mode.getLsbD 2 then
      match s.nextInStream t x with
      | some (i, y) => if x = y then { s with traces := mapSet s.traces region { t with done := i :: t.done } } else s
      | none => s
    else if t.mode.getLsbD 1 && !t.logFull then
      let s := (s.deviceWrite t.debugger 0 (t.logb + BitVec.ofNat 64 (32 * t.logCount)) x.bytes).2
      let s := (s.deviceWrite t.debugger 0 t.logwr (toBytes 8 (t.logCount + 1))).2
      let full := decide (2 ^ t.llogn ≤ t.logCount + 1)
      let s := { s with traces := mapSet s.traces region { t with logCount := t.logCount + 1, logFull := full } }
      if full then
        s.trace region 12 0 { queue := 0, seq := 0, engine := 0, pos := 0, gidx := 0 } (BitVec.ofNat 64 (t.logCount + 1))
      else s
    else s

/-- Whether an access is a vector atomic (R306). -/
def AccessKind.vectorAtomic : AccessKind → Bool
  | .vamo _ _ _ _ | .vred _ _ => true
  | _ => false
/-- Whether an access is an atomic or a reduction. -/
def AccessKind.atomic : AccessKind → Bool
  | .amo _ _ _ | .red _ => true
  | x => x.vectorAtomic
/-- Whether the next element of an access of a context is an atomic at a global address that replay holds (R421).
(DEDUCED, notes/assumptions/55.md) -/
def State.accessHeld (s : State) (k : Nat) (a : Access) : Bool :=
  a.kind.atomic && match a.elements with
    | x :: _ =>
      decide (planeOf x.place.key < 40) && s.replayHolds k 6 0 (if a.kind.vectorAtomic then 64 * x.row + x.lane else 0) x.va
    | [] => false

/-- An element of an atomic has been performed: it is hashed and logged (R420, R422). -/
def State.atomicDone (s : State) (k elem : Nat) (x : Element) (n : Nat) : State :=
  if planeOf x.place.key < 40 then (s.hashFor k x.va x.place.key n).logEvent k 6 0 elem x.va else s

end Sys2Proof.Machine
end

