-- ==== Sys2Proof/Machine/Perform.lean ====
section
/-! DEFINITION. Global and scratchpad accesses of contexts: the checks of R266, R277 and R303, the queue of accesses that have
issued and are not yet performed, and how each is performed or fails (R280, R283 to R287, R293, R304 to R306, R389). -/

namespace Sys2Proof.Machine

/-! ## Checks at issue -/

/-- The check of a global access of a context (R277). A page whose walk has ended for this bundle is not walked again. -/
def State.globalCheck (s : State) (k : Nat) (use : PageUse) (size : Nat) (va : W64) : Translation :=
  let region := s.regionOf k
  if 2 ^ 57 ≤ va.toNat then .fault .accessFault
  else if va.toNat % size ≠ 0 then .fault .misaligned
  else
    s.translate (clusterOf k) (s.asidOf region) (s.ptbase region) use (!s.supervisor k)
      ((s.core (coreOf k)).walked.contains (va.toNat / 4096)) va.toNat

/-- Whether a host page accepts an atomic operation, returning (amo) or not (R303). -/
def hostAtomic (returning : Bool) (op : Nat) : Bool := op = 0 || (returning && (op = 8 || op = 9))

/-- The check of a global atomic: host pages accept few operations (R303). -/
def State.atomicCheck (s : State) (k : Nat) (use : PageUse) (size : Nat) (returning : Bool) (op : Nat) (va : W64) :
    Translation :=
  match s.globalCheck k use size va with
  | .place p => if tierOf p.key = 3 && !hostAtomic returning op then .fault .accessFault else .place p
  | r => r

/-- The outcome of steps 1 and 2 of the scratchpad checks (R277): a cause, or the physical bank and the key. -/
inductive SpadCheck where
  | fault (c : Cause)
  | bank (bank key : Nat)
deriving DecidableEq, Repr

/-- Alignment and range of a scratchpad access, and where it lies (R266). -/
def State.spadCheck (s : State) (k size : Nat) (va : W64) : SpadCheck :=
  if va.toNat % size ≠ 0 then .fault .misaligned
  else
    match s.groupOf k with
    | none => .fault .accessFault
    | some g =>
      let b := g.decl.b
      if b * 0x80000 ≤ va.toNat then .fault .accessFault
      else
        let bank := g.banks.getD (va.toNat / 256 % b) 0
        .bank bank (bankKey (clusterOf k) bank (va.toNat / 256 / b * 256 + va.toNat % 256))

/-- Whether a bankmode is switching a bank of a cluster (R253). -/
def State.switching (s : State) (cluster bank : Nat) : Bool := (s.cluster cluster).switches.any fun x => x.bank = bank
/-- The mode of a bank. -/
def State.bankMode (s : State) (cluster bank : Nat) : BankMode := (s.cluster cluster).modes[bank]?.getD .cache
/-- The physical banks of a mask of a group's local banks. -/
def Group.physical (g : Group) (mask : BitVec 16) : List Nat :=
  (List.range 16).filterMap fun j => if mask.getLsbD j then g.banks[j]? else none
/-- Whether an engine command reserves a bank of a cluster (R270). -/
def State.reserved (s : State) (cluster bank : Nat) : Bool :=
  (s.cluster cluster).reservations.any fun r => ((s.group? r.group).map fun g => (g.physical r.mask).contains bank).getD false

/-- The trap of a scratchpad access, judged as if no switch were under way (R277 steps 1, 2 and 4). -/
def State.spadTrap (s : State) (k size : Nat) (va : W64) : Option Cause :=
  match s.spadCheck k size va with
  | .fault c => some c
  | .bank b _ => if s.bankMode (clusterOf k) b = .scratch then none else some .accessFault

/-- The mask of a list of banks. -/
def maskOf (l : List Nat) : BitVec 16 := BitVec.ofNat 16 (l.foldl (fun a b => a ||| 2 ^ b) 0)

/-- The hold of a scratchpad operation over its rows of accesses (R266, R269, R270, R277 steps 3 and 5): switching banks, whatever
other elements find, then, where nothing traps, reserved banks, then its bank conflicts, unless they have been waited out.
(DEDUCED, notes/assumptions/50.md) -/
def State.spadHold (s : State) (k size slot : Nat) (rows : List (List W64)) : Option Hold :=
  let checks := (rows.map fun r => r.map (s.spadCheck k size)).flatten
  let banks := (checks.filterMap fun c => match c with | .bank b _ => some b | _ => none).eraseDups
  let cluster := clusterOf k
  let sw := banks.filter (s.switching cluster)
  if !sw.isEmpty then some (.freeze (.banks (maskOf sw)))
  else if (checks.any fun c => match c with | .fault _ => true | _ => false) then none
  else
    if (banks.any fun b => s.bankMode cluster b ≠ .scratch) then none
    else
      let held := banks.filter (s.reserved cluster)
      if !held.isEmpty then some (.freeze (.banks (maskOf held)))
      else if (s.core (coreOf k)).conflictPaid.contains slot then none
      else
        let words (r : List W64) : List Nat :=
          (r.filterMap fun va => match s.spadCheck k size va with | .bank _ key => some (key / 4) | _ => none).eraseDups
        let column (w : Nat) : Nat := w / 2 ^ 17 * 64 + w % 64
        let cost (r : List W64) : Nat :=
          let ws := words r
          ws.foldl (fun a w => max a ((ws.filter fun v => column v = column w).length - 1)) 0
        let n := (rows.map cost).sum
        if n = 0 then none else some (.freeze (.conflict slot n))

/-! ## The queue of accesses -/

/-- The end of a phase's shelter (R377): its held reductions join the accesses, in program order. -/
def Ctx.expose (c : Ctx) : Ctx :=
  match c.phaseRec with
  | some p =>
    if p.exposed then c
    else { c with phaseRec := some { p with exposed := true, held := [] }, accesses := c.accesses ++ p.held }
  | none => c
/-- Whether a global range lies inside the output range of the open phase (R377). -/
def Ctx.inOutput (c : Ctx) (va : W64) (n : Nat) : Bool :=
  match c.phaseRec with
  | some p => decide (p.base.toNat ≤ va.toNat) && decide (va.toNat + n ≤ p.base.toNat + p.length.toNat)
  | none => true
/-- Whether an operation takes an entry of the store queue (R322): st, red and vred. -/
def AccessKind.stores : AccessKind → Bool
  | .store => true
  | .red _ => true
  | .vred _ _ => true
  | _ => false
/-- The entries of the store queue taken (R322). -/
def Ctx.storeQueue (c : Ctx) : Nat := (c.accesses.filter Access.stored).length

/-- An access put in the queue of a context. -/
def State.enqueue (s : State) (k : Nat) (kind : AccessKind) (size scope ord : Nat) (elements : List Element) : State :=
  s.updCtx k fun c =>
    { c with
      accesses := c.accesses ++
        [{ id := c.nextAccess, issued := (s.core (coreOf k)).lt, stored := kind.stores, kind := kind, size := size
           scope := scope, ord := ord, elements := elements }]
      nextAccess := c.nextAccess + 1 }

/-- A DLQ entry taken for the next access (R322). -/
def State.takeEntry (s : State) (k : Nat) : State :=
  s.updCtx k fun c => { c with dlq := c.dlq ++ [{ id := c.nextAccess, value := 0, fate := .waiting }] }

/-- A reduction issued: held in a phase that is not exposed, while fewer than 32 are, where it gives its store-queue entry back;
else queued (R322, R377, R378). -/
def State.enqueueRed (s : State) (k : Nat) (kind : AccessKind) (size scope ord : Nat) (elements : List Element) : State :=
  let c := s.ctx k
  match c.phaseRec with
  | some p =>
    if p.exposed then s.enqueue k kind size scope ord elements
    else if p.held.length < 32 then
      s.setCtx k { c with
        phaseRec := some { p with held := p.held ++
          [{ id := c.nextAccess, issued := (s.core (coreOf k)).lt, stored := false, kind := kind, size := size
             scope := scope, ord := ord, elements := elements }] }
        nextAccess := c.nextAccess + 1 }
    else (s.updCtx k Ctx.expose).enqueue k kind size scope ord elements
  | none => s.enqueue k kind size scope ord elements

/-! ## Performing -/

/-- The newest timestamp given to a line of the pool or of the host, by a store or by a back-invalidation. -/
def State.newestFar (s : State) : W64 :=
  s.stamps.foldl (fun (t : W64) e => if 2 ≤ tierOf (e.1 * 64) && planeOf (e.1 * 64) < 40 then laterOf t e.2.1 else t) 0
/-- LTS raised as an acquire at POOL or SYS scope raises it: above every back-invalidation received (R299, R300). -/
def State.acquire (s : State) (k : Nat) : State := s.updCtx k fun c => { c with lts := nextStamp c.lts s.newestFar }
/-- Whether an access acquires at a scope that reaches beyond the device. -/
def Access.acquires (a : Access) : Bool := decide (3 ≤ a.scope) && (a.ord = 1 || a.ord = 3)

/-- A DLQ entry answered. -/
def State.answer (s : State) (k id : Nat) (fate : DlqFate) (value : W64) : State :=
  s.updCtx k fun c => { c with dlq := c.dlq.map fun d => if d.id = id then { d with value := value, fate := fate } else d }

/-- A failure of an access of a context (R280): a DLQ entry is marked, a failed element cancels the phase or ends the group;
in overrun the failure is held with the bank (R320). (DEDUCED, notes/assumptions/63.md) -/
def State.failAccess (s : State) (k : Nat) (entry : Option Nat) (lost : Bool) (va : W64) : State :=
  match (s.ctx k).overrun with
  | some b => s.updBank (coreOf k) b fun c => { c with failures := c.failures ++ [(entry, lost, va)] }
  | none =>
    match entry with
    | some id => s.answer k id (if lost then .lost else .poisoned) va
    | none => s.failedElement k (if lost then .poolRegionLost else .poison) va

/-- Whether a place of the pool is out of reach: its region is not ACTIVE (R387). -/
def State.lostPlace (s : State) (key : Nat) : Bool :=
  match s.poolStateOf key with | some .active => false | some _ => true | none => false

/-- A value read in the size of an access, extended (R283, R304). -/
def extended (signed : Bool) (size v : Nat) : W64 :=
  if signed then BitVec.ofNat 64 (wrapInt 64 (signedOf (8 * size) v)) else BitVec.ofNat 64 v

/-- The die whose L2 holds a modified pool line, which the spec leaves open (R388; DESIGN CHOICE, notes/assumptions/43.md). -/
def lineDie (line : Nat) : Nat := Config.freeNat (2 ^ 190 + line) % 8
/-- Whether a die locks no further line of FAULTED regions: it holds 64 MiB of them (R388). -/
def State.lockedFull (s : State) (line : Nat) : Bool :=
  decide (2 ^ 20 ≤ (s.modified.filter fun l => s.poolStateOf (l * 64) = some .faulted && lineDie l = lineDie line).length)
/-- A line of a pool region discarded: it counts in the next record of the region (R388). -/
def State.countDiscarded (s : State) (key : Nat) : State :=
  let mine (e : PoolEntry) : Bool := 8 + e.port = planeOf key && e.state ≠ .unmapped
    && decide (e.target ≤ planeAddr key) && decide (planeAddr key < e.target + 2 ^ 30)
  { s with pool := s.pool.map fun e => (e.1, if mine e.2 then { e.2 with discarded := e.2.discarded + 64 } else e.2) }

/-- Bytes stored by a context at a place, of which a FAULTED region locks the line, up to the limit of a die, and a LOST one
discards it (R280, R387, R388); through an NC page they reach the tier at once (R275), unless the link of the pool is cut while the store is
in flight. In overrun they wait in the buffer. -/
def State.storeElement (s : State) (k order size : Nat) (cut : Bool) (x : Element) : State :=
  let key := x.place.key
  let bytes := toBytes size x.data.toNat
  if (s.ctx k).overrun.isSome then s.writeFor k false x.place.nc order x.va key bytes
  else
    match s.poolStateOf key with
    | some .lost => s.countDiscarded key
    | some .faulted =>
      if !s.modified.contains (lineOf key) && s.lockedFull (lineOf key) then s.countDiscarded key
      else s.writeFor k false false order x.va key bytes
    | _ => s.writeFor k false (x.place.nc && !(cut && tierOf key = 2)) order x.va key bytes

/-- Whether a reduction in flight can be held on a line of its region (R387): the region is ACTIVE and its link up, or the device holds
the line, or the region is FAULTED and its die may lock the line. -/
def State.reducible (s : State) (cut : Bool) (x : Element) : Bool :=
  let held := s.modified.contains (lineOf x.place.key)
  if s.lostPlace x.place.key then s.poolStateOf x.place.key = some .faulted && (held || !s.lockedFull (lineOf x.place.key))
  else held || !(cut && tierOf x.place.key = 2)

/-- An element of a reduction: dropped with a record where its line is poisoned, or its region is lost and cannot hold it (R305,
R387, R392). -/
def State.redElement (s : State) (k scope size op elem : Nat) (cut : Bool) (x : Element) : State :=
  if !s.reducible cut x then
    (s.count (ctrDropped (s.dieOfCtx k % 8)) 1).recordDropped k .poolRegionLost x.va op
  else
    let merge := if s.hashing (s.regionOf k) then 0 else scope
    let (dropped, lts, s) := s.reduceAt (s.ctx k).lts (s.dieOfCtx k) merge x.place.key size op x.data
    let s := (s.updCtx k fun c => { c with lts := lts }).through (farAtomic scope x.place && !s.lostPlace x.place.key && !cut) x.place.key
    if dropped then s.recordDropped k .poison x.va op else s.atomicDone k elem x size

/-- Whether an access finds a place of the pool lost: its region is not ACTIVE, or its link is cut while the access is in flight
(R280, R387). -/
def State.cutOff (s : State) (cut : Bool) (key : Nat) : Bool := s.lostPlace key || (cut && tierOf key = 2)

/-- Whether a failed element lies in a pool region that another region owns: its loss does not fault the group, and the element
completes with an open value (R280; DEDUCED, notes/assumptions/63.md). -/
def State.lostElsewhere (s : State) (k : Nat) (cut : Bool) (key : Nat) : Bool :=
  s.cutOff cut key && s.pool.any fun e => 8 + e.2.port = planeOf key && e.2.state ≠ .unmapped && e.2.owner ≠ s.regionOf k
    && decide (e.2.target ≤ planeAddr key) && decide (planeAddr key < e.2.target + 2 ^ 30)

/-- One element of a register written by an access of a bundle of a cycle (R56). -/
def State.putElement (s : State) (k cycle reg : Nat) (x : Element) (v : W32) : State :=
  s.putAsync k cycle reg x.row ((1 : W64) <<< x.lane) (Row.splat v)

/-- The elements of a load performed in order; the first that faults is reported: whether by a loss, and its address. -/
def State.loadElements (s : State) (k : Nat) (cut : Bool) (a : Access) (reg : Nat) : List Element → Option (Bool × W64) × State
  | [] => (none, s)
  | x :: rest =>
    let (v, s') := if s.cutOff cut x.place.key then (none, s) else s.readFor k (a.order false) x.place.key a.size
    match v with
    | some v => (s'.putElement k a.issued reg x (BitVec.ofNat 32 v)).loadElements k cut a reg rest
    | none =>
      if s.lostElsewhere k cut x.place.key then
        (s.putElement k a.issued reg x ((s.openWord (2 ^ 158 + x.va.toNat)).truncate 32)).loadElements k cut a reg rest
      else
        let (_, s'') := s'.loadElements k cut a reg rest
        (some (s.cutOff cut x.place.key, x.va), s'')

/-- The elements of a vamo performed in order; the first that faults is reported (R306). -/
def State.amoElements (s : State) (k : Nat) (cut : Bool) (a : Access) (reg : Nat) (write : Bool) (op : Nat) : List Element → Option (Bool × W64) × State
  | [] => (none, s)
  | x :: rest =>
    if s.lostElsewhere k cut x.place.key then
      let s := if write then s.putElement k a.issued reg x ((s.openWord (2 ^ 158 + x.va.toNat)).truncate 32) else s
      s.amoElements k cut a reg write op rest
    else if s.cutOff cut x.place.key then
      let (_, s) := s.amoElements k cut a reg write op rest
      (some (true, x.va), s)
    else
      let r := s.atomicAt (s.ctx k).lts x.place.key 4 op x.data 0
      match r.value with
      | some v =>
        let s := (r.state.updCtx k fun c => { c with lts := r.lts }).through (farAtomic a.scope x.place) x.place.key
        let s := if write then s.putElement k a.issued reg x (BitVec.ofNat 32 v) else s
        let s := s.atomicDone k (64 * x.row + x.lane) x 4
        s.amoElements k cut a reg write op rest
      | none =>
        let (_, s) := r.state.amoElements k cut a reg write op rest
        (some (false, x.va), s)

/-- A global access performed (R283 to R286, R304 to R306): a load answers its DLQ entry, a vector access writes its register
or memory in row-major, lane order and sets its flag. cut says that the links of the pool are lost to it while it is in flight
(R280). -/
def State.performAccess (s : State) (k : Nat) (cut : Bool) (a : Access) : State :=
  let finish (flag : Nat) (failed : Option (Bool × W64)) (s : State) : State :=
    let s := if a.acquires then s.acquire k else s
    match a.failed.or failed with
    | some (lost, va) => s.failAccess k none lost va
    | none => s.setFlagFrom true k flag
  match a.kind, a.elements with
  | .load entry signed, x :: _ =>
    if s.cutOff cut x.place.key then s.failAccess k (some entry) true x.va
    else
      match s.readFor k (a.order false) x.place.key a.size with
      | (some v, s) =>
        let s := if a.acquires then s.acquire k else s
        s.answer k entry .ready (extended signed a.size v)
      | (none, s) => s.failAccess k (some entry) false x.va
  | .amo entry op new, x :: _ =>
    if s.cutOff cut x.place.key then s.failAccess k (some entry) true x.va
    else
      let r := s.atomicAt (s.ctx k).lts x.place.key a.size op x.data new
      match r.value with
      | some v =>
        let s := (r.state.updCtx k fun c => { c with lts := r.lts }).through (farAtomic a.scope x.place) x.place.key
        let s := s.atomicDone k 0 x a.size
        let s := if a.acquires then s.acquire k else s
        s.answer k entry .ready (extended (op = 4 || op = 5) a.size v)
      | none => r.state.failAccess k (some entry) false x.va
  | .store, xs => xs.foldl (fun s x => s.storeElement k (a.order true) a.size cut x) s
  | .red op, xs => xs.foldl (fun s x => s.redElement k a.scope a.size op 0 cut x) s
  | .vload reg flag, xs =>
    let (failed, s) := s.loadElements k cut a reg xs
    finish flag failed s
  | .vstore flag, xs => finish flag none (xs.foldl (fun s x => s.storeElement k (a.order true) a.size cut x) s)
  | .vamo reg write op flag, xs =>
    let (failed, s) := s.amoElements k cut a reg write op xs
    finish flag failed s
  | .vred op flag, xs => finish flag none (xs.foldl (fun s x => s.redElement k a.scope 4 op (64 * x.row + x.lane) cut x) s)
  | _, [] => s

/-- The next element of a vector atomic performed: the failure it meets. -/
def State.performElement (s : State) (k : Nat) (a : Access) (x : Element) : Option (Bool × W64) × State :=
  match a.kind with
  | .vamo reg write op _ => s.amoElements k false a reg write op [x]
  | .vred op _ => (none, s.redElement k a.scope 4 op (64 * x.row + x.lane) false x)
  | _ => (none, s)
/-- The elements of a vector atomic performed one by one, up to one that replay holds: the rest then waits as the oldest access of the
context (R421). -/
def State.performTurns (s : State) (k : Nat) (a : Access) : List Element → State
  | [] => s.performAccess k false { a with elements := [] }
  | x :: xs =>
    if s.accessHeld k { a with elements := x :: xs } then
      s.updCtx k fun c => { c with accesses := { a with elements := x :: xs } :: c.accesses }
    else
      let (failed, s) := s.performElement k a x
      s.performTurns k { a with failed := a.failed.or failed } xs

/-- The oldest n accesses of a context performed, in program order, up to an atomic that replay holds (R421;
DESIGN CHOICE, notes/assumptions/10.md). -/
def State.performFirst (s : State) (k : Nat) : Nat → State
  | 0 => s
  | n + 1 =>
    match (s.ctx k).accesses with
    | [] => s
    | a :: rest =>
      if s.accessHeld k a then s
      else
        let s := s.updCtx k fun c => { c with accesses := rest }
        (if a.kind.vectorAtomic then s.performTurns k a a.elements else s.performAccess k false a).performFirst k n

/-- Whether an access of a context that issued before a cycle waits for its turn in a replay (R421): what must follow it waits
too. -/
def State.heldBefore (s : State) (k t : Nat) : Bool := (s.ctx k).accesses.any fun a => decide (a.issued < t) && s.accessHeld k a

/-- Rows of a scratchpad store of a lower slot of the bundle of cycle t that touch a location performed at once, and the rows before
them: the slots of one bundle act on it in slot order, the rows of one store in ascending order (R282, R287;
DEDUCED, notes/assumptions/22.md). -/
def State.settleRows (s : State) (k t : Nat) (keys : List Nat) (size : Nat) : State :=
  let touches (x : Nat × List Byte) : Bool :=
    keys.any fun key => decide (key < x.1 + x.2.length) && decide (x.1 < key + size)
  let last := (s.ctx k).pending.foldl (fun a p => match p.what with
    | .spadRow _ es => if decide (p.issued = t) && es.any touches then max a p.due else a
    | _ => a) 0
  let now (p : Pending) : Bool := decide (p.issued = t) && decide (p.due ≤ last) && match p.what with | .spadRow _ _ => true | _ => false
  let inSlotOrder (p : Pending) : Pending := match p.what with
    | .spadRow order es => { p with what := .spadRow (t * 2 ^ 64 + order % 2 ^ 63) es }
    | _ => p
  let due := (s.ctx k).pending.filter now
  if due.isEmpty then s
  else
    due.foldl (fun s p => s.land k (inSlotOrder p)) (s.updCtx k fun c => { c with pending := c.pending.filter fun p => !now p })

/-- Every access that a context has issued performed, before an access or event that program order places after them
(R291; DESIGN CHOICE, notes/assumptions/10.md). -/
def State.flush (s : State) (k : Nat) : State := s.performFirst k (s.ctx k).accesses.length

end Sys2Proof.Machine
end

