-- ==== Sys2Proof/Machine/Keccak.lean ====
section
/-! DEFINITION. The Keccak-f[1600] permutation of FIPS 202, one round at a time (R180), and the SHAKE256 hash built on it
(used by R435 to R437). The state is a list of 25 lanes of 64 bits, lane (x, y) at index w = 5y + x as R180 step 1 numbers them. The
rotations of ρ and the constants of ι are computed as FIPS 202 generates them, not listed. -/

namespace Sys2Proof.Machine

/-- The lane dx columns to the right of lane w in its row, in cyclic order. -/
def rowMate (a : List W64) (w dx : Nat) : W64 := a.getD (w / 5 * 5 + (w + dx) % 5) 0

/-- θ: each lane takes the parity of the column to its left, and that of the column to its right rotated by one. -/
def keccakTheta (a : List W64) : List W64 :=
  let parity (x : Nat) : W64 := (List.range 5).foldl (fun p y => p ^^^ a.getD (5 * y + x) 0) 0
  let ps := (List.range 5).map parity
  a.mapIdx fun w lane => lane ^^^ ps.getD ((w + 4) % 5) 0 ^^^ (ps.getD ((w + 1) % 5) 0).rotateLeft 1

/-- The walk of ρ over the lanes other than (0, 0), from step t at (x, y) on: lane by lane, its index and its rotation, the triangular
number of the step; from (x, y) it goes to (y, 2x + 3y). -/
def rhoWalk : Nat → Nat → Nat → Nat → List (Nat × Nat)
  | 0, _, _, _ => []
  | n + 1, t, x, y => (5 * y + x, (t + 1) * (t + 2) / 2 % 64) :: rhoWalk n (t + 1) y ((2 * x + 3 * y) % 5)
/-- ρ, then π, which takes lane (x, y) from (x + 3y, x). -/
def keccakRhoPi (a : List W64) : List W64 :=
  let walk := rhoWalk 24 0 1 0
  let turned := a.mapIdx fun w lane => lane.rotateLeft (((walk.find? fun p => p.1 = w).map Prod.snd).getD 0)
  (List.range 25).map fun w => turned.getD (w % 5 * 5 + (w % 5 + 3 * (w / 5)) % 5) 0

/-- χ: the only step that is not linear. -/
def keccakChi (a : List W64) : List W64 := a.mapIdx fun w lane => lane ^^^ (~~~(rowMate a w 1) &&& rowMate a w 2)

/-- The 8-bit shift register of ι after n more shifts, with feedback x⁸ + x⁶ + x⁵ + x⁴ + 1. -/
def iotaShift : Nat → Nat → Nat
  | 0, r => r
  | n + 1, r => iotaShift n (if r < 128 then 2 * r else (2 * r) ^^^ 0x171)
/-- The constant that ι XORs into lane (0, 0) in round ir: bit 2^j − 1 is what the register shows after j + 7 ir shifts. Beyond round 23
it is 0 (R180 step 3). -/
def iotaConstant (ir : Nat) : W64 :=
  if 24 ≤ ir then 0
  else BitVec.ofNat 64 (((List.range 7).map fun j => iotaShift (j + 7 * ir) 1 % 2 * 2 ^ (2 ^ j - 1)).sum)

/-- One round with round index ir. -/
def keccakRound (ir : Nat) (a : List W64) : List W64 :=
  (keccakChi (keccakRhoPi (keccakTheta a))).modifyHead (· ^^^ iotaConstant ir)

/-- The permutation Keccak-f[1600]. -/
def keccakF (a : List W64) : List W64 := (List.range 24).foldl (fun a ir => keccakRound ir a) a

/-- SHAKE256 takes in n blocks of 136 bytes, its rate: their 17 words XORed into the first lanes, and a permutation, for each. -/
def shakeIn (n : Nat) (bs : List Byte) : List W64 :=
  let word (block w : Nat) : W64 := if w < 17 then BitVec.ofNat 64 (ofBytes ((bs.drop (136 * block + 8 * w)).take 8)) else 0
  (List.range n).foldl (fun a block => keccakF (a.mapIdx fun w lane => lane ^^^ word block w)) (List.replicate 25 0)

/-- The first n bytes, at most 136, of SHAKE256 of a message (FIPS 202): the message is filled up to whole blocks with a first byte 0x1F,
zeros, and the top bit of the last byte. -/
def shake256 (n : Nat) (msg : List Byte) : List Byte :=
  let blocks := msg.length / 136 + 1
  let body := msg ++ [0x1F] ++ List.replicate (136 * blocks - msg.length - 1) 0
  let filled := body.mapIdx fun i b => if i + 1 = 136 * blocks then b ||| 0x80 else b
  ((shakeIn blocks filled).flatMap fun lane => toBytes 8 lane.toNat).take n

end Sys2Proof.Machine
end

