-- ==== Sys2Proof/Machine/SpecialFn.lean ====
section
/-! DEFINITION. The pure functions of the F class: the nine elementary functions of R169 to R172, the bit-network pattern
of R173 and R174, and the bit-manipulation and hashing forms of R175 to R180. rcp and sqrt are correctly rounded. The
other seven are computed to some 300 bits, which fixes their status (R172) and the values that the bound of R170 allows,
and the value among those is the free choice Config.elementaryPick (DEDUCED, notes/assumptions/8.md). -/

namespace Sys2Proof.Machine

/-- The scale of the fixed-point numbers below: 2^300. -/
def fixOne : Nat := 2 ^ 300
/-- π at that scale. -/
def fixPi : Nat := 0x3243f6a8885a308d313198a2e03707344a4093822299f31d0082efa98ec4e6c89452821e638d
/-- ln 2 at that scale. -/
def fixLn2 : Nat := 0xb17217f7d1cf79abc9e3b39803f2f6af40f343267298b62d8a0d175b8baafa2be7b876206de

/-- The sum of the exponential series from its n-th term on: fuel terms more. -/
def expSeries (z : Nat) : Nat → Nat → Nat → Nat
  | 0, _, _ => 0
  | fuel + 1, n, term => term + expSeries z fuel (n + 1) (term * z / (fixOne * n))

/-- e^z for z from 0 to 1, in fixed point. -/
def fixExp (z : Nat) : Nat := expSeries z 80 1 fixOne

/-- The sine series: positive and negative terms alternate. -/
def sinSeries (z2 : Nat) : Nat → Nat → Nat → Int
  | 0, _, _ => 0
  | fuel + 1, n, term => (term : Int) - sinSeries z2 fuel (n + 1) (term * z2 / (fixOne * ((2 * n) * (2 * n + 1))))

/-- sin z for z from 0 to π/2, in fixed point. -/
def fixSin (z : Nat) : Nat := (sinSeries (z * z / fixOne) 50 1 z).toNat

/-- The fraction bits of log2 y for y from 1 to 2 in fixed point, one by squaring, the earlier bits in acc. -/
def logBits : Nat → Nat → Nat → Nat
  | 0, _, acc => acc
  | n + 1, y, acc =>
    let y2 := y * y / fixOne
    if 2 * fixOne ≤ y2 then logBits n (y2 / 2) (2 * acc + 1) else logBits n y2 (2 * acc)

/-- An exact number mant * 2^exp (exp at least −300) in fixed point. -/
def fixOf (mant : Nat) (exp : Int) : Nat := mant * 2 ^ (exp + 300).toNat

/-- e^x for a fixed-point x: mantissa at scale 2^300, and a power of two. -/
def fixExpWide (x : Nat) : Nat × Nat :=
  let y := x * fixOne / fixLn2
  (fixExp (y % fixOne * fixLn2 / fixOne), y / fixOne)

/-- A binary32 pattern with its sign bit set where neg. -/
def withSign (neg : Bool) (x : Nat) : Nat := (if neg then 2 ^ 31 else 0) + x

/-- One of the two binary32 numbers that bracket the number above mant * 2^exp and below (mant + 1) * 2^exp (R170:
faithful). -/
def faithful (fn : Nat) (x : W32) (neg : Bool) (mant : Nat) (exp : Int) : Nat :=
  withSign neg (floatRound .binary32 (if Config.elementaryPick fn x % 2 = 0 then 1 else 3) false mant exp true).1

/-- The ulp of the number mant * 2^-300, as a power of two, and the number counted in half ulps (R170). -/
def halfUlps (mant : Nat) : Int × Nat :=
  let ulpExp : Int := max ((Nat.log2 mant : Nat) - 300 - 23) (-149)
  (ulpExp, mant / 2 ^ (ulpExp + 299).toNat)
/-- The j-th of the eight steps, half an ulp apart, that cover the magnitudes within 2 ulp of mant * 2^-300: the binary32 number next to
it on the side of the exact one. They rise with j. -/
def stepWithin (mant j : Nat) : Nat :=
  let (ulpExp, h) := halfUlps mant
  let i := h + j - 3
  (floatRound .binary32 (if i ≤ h then 3 else 1) false i (ulpExp - 1) false).1
/-- One of the binary32 numbers within 2 ulp of the number mant * 2^-300 (R170). -/
def withinTwoUlp (fn : Nat) (x : W32) (neg : Bool) (mant : Nat) : Nat :=
  withSign neg (stepWithin mant (Config.elementaryPick fn x % 8))

/-! Monotone functions (R169): of the results that the bound allows, in rising order, the last one that the operand has reached. Every
non-decreasing choice within the bound is of this form (DEDUCED, notes/assumptions/8.md). -/

/-- The rank of an operand in the order of its value. -/
def operandRank (x : W32) : Nat := if x.getLsbD 31 then 2 ^ 31 - x.toNat % 2 ^ 31 else 2 ^ 31 + x.toNat
/-- The last of some results in rising order that an operand has reached; y where it has reached none. -/
def reached (fn : Nat) (x : W32) (y : Nat) (results : List Nat) : Nat :=
  results.foldl (fun y c => if Config.elementaryStep fn (BitVec.ofNat 32 c) ≤ operandRank x then c else y) y
/-- Results given by rising magnitudes, with their sign, in rising order, and the one that an operand has reached. -/
def reachedOf (fn : Nat) (x : W32) (neg : Bool) (mags : List Nat) : Nat :=
  match (if neg then mags.reverse.map (withSign true) else mags) with
  | y :: results => reached fn x y results
  | [] => 0
/-- One of the two binary32 numbers that bracket a number, as a monotone function gives it (R170). -/
def monotoneFaithful (fn : Nat) (x : W32) (neg : Bool) (mant : Nat) (exp : Int) : Nat :=
  reachedOf fn x neg [(floatRound .binary32 1 false mant exp true).1, (floatRound .binary32 3 false mant exp true).1]
/-- One of the binary32 numbers within 2 ulp of mant * 2^-300, as a monotone function gives it, its magnitude held to a range. Half an
ulp above a power of two the lowest step lies below what the numbers under that power allow, and is left out. -/
def monotoneTwoUlp (fn : Nat) (x : W32) (neg : Bool) (mant : Nat) (held : Nat → Nat) : Nat :=
  let first := if (halfUlps mant).2 = 2 ^ 24 then 1 else 0
  reachedOf fn x neg ((tabulate (stepWithin mant) (8 - first) first).map held)

/-- UF and NX for a result that is not representable: UF below 2^-126 in magnitude (R172). -/
def inexactStatus (mant : Nat) (exp : Int) : Status :=
  Status.nx ||| Status.when (decide ((Nat.log2 mant : Nat) + exp < -126)) Status.uf

/-- rcp (R169 to R172): correctly rounded in mode frm. -/
def fnRcp (frm : Nat) (x : W32) : W32 × Status :=
  match floatDecode .binary32 x.toNat with
  | .nan s => (0x7FC00000, Status.when s Status.nv)
  | .inf n => (BitVec.ofNat 32 (floatZero .binary32 n), 0)
  | .fin n m e =>
    if m = 0 then (BitVec.ofNat 32 (floatInf .binary32 n), Status.dz)
    else
      let (r, s) := floatRound .binary32 frm n (2 ^ 80 / m) (-e - 80) (decide (2 ^ 80 % m ≠ 0))
      (BitVec.ofNat 32 r, s)

/-- sqrt (R169 to R172): correctly rounded in mode frm. -/
def fnSqrt (frm : Nat) (x : W32) : W32 × Status :=
  match floatDecode .binary32 x.toNat with
  | .nan s => (0x7FC00000, Status.when s Status.nv)
  | .inf n => if n then (0x7FC00000, Status.nv) else (0x7F800000, 0)
  | .fin n m e =>
    if m = 0 then (BitVec.ofNat 32 (floatZero .binary32 n), 0)
    else if n then (0x7FC00000, Status.nv)
    else
      let odd := e % 2 ≠ 0
      let m1 := (if odd then 2 * m else m) * 2 ^ 80
      let e1 := (if odd then e - 1 else e) - 80
      let r := natSqrt 54 m1 0
      let (y, s) := floatRound .binary32 frm false r (e1 / 2) (decide (r * r ≠ m1))
      (BitVec.ofNat 32 y, s)

/-- rsq (R169 to R172): faithful. -/
def fnRsq (x : W32) : W32 × Status :=
  match floatDecode .binary32 x.toNat with
  | .nan s => (0x7FC00000, Status.when s Status.nv)
  | .inf n => if n then (0x7FC00000, Status.nv) else (0, 0)
  | .fin n m e =>
    if m = 0 then (BitVec.ofNat 32 (floatInf .binary32 n), Status.dz)
    else if n then (0x7FC00000, Status.nv)
    else
      let odd := e % 2 ≠ 0
      let m1 := if odd then 2 * m else m
      let e1 := if odd then e - 1 else e
      let r := natSqrt 101 (2 ^ 200 / m1) 0
      let e2 := -(e1 / 2) - 100
      if r * r * m1 = 2 ^ 200 then (BitVec.ofNat 32 (floatRound .binary32 0 false r e2 false).1, 0)
      else (BitVec.ofNat 32 (faithful 2 x false r e2), inexactStatus r e2)

/-- exp2 (R169 to R172): faithful. (DEDUCED, notes/assumptions/8.md) -/
def fnExp2 (x : W32) : W32 × Status :=
  match floatDecode .binary32 x.toNat with
  | .nan s => (0x7FC00000, Status.when s Status.nv)
  | .inf n => if n then (0, 0) else (0x7F800000, 0)
  | .fin n m e =>
    -- |x| ≥ 256 without building the number itself
    if 8 ≤ (Nat.log2 m : Nat) + e then
      if n then (0, Status.uf ||| Status.nx) else (0x7F800000, Status.of ||| Status.nx)
    else
      let z : Int := if n then -(fixOf m e : Int) else fixOf m e
      if 128 * (fixOne : Int) ≤ z then (0x7F800000, Status.of ||| Status.nx)
      else if z < -150 * (fixOne : Int) then (0, Status.uf ||| Status.nx)
      else
        let i := z / fixOne
        let f := (z % fixOne).toNat
        if f = 0 && decide (-149 ≤ i) then
          (BitVec.ofNat 32 (floatRound .binary32 0 false 1 i false).1, 0)
        else
          let r := fixExp (f * fixLn2 / fixOne)
          (BitVec.ofNat 32 (monotoneFaithful 4 x false r (i - 300)), inexactStatus r (i - 300))

/-- log2 (R169 to R172): faithful. (DEDUCED, notes/assumptions/8.md) -/
def fnLog2 (x : W32) : W32 × Status :=
  match floatDecode .binary32 x.toNat with
  | .nan s => (0x7FC00000, Status.when s Status.nv)
  | .inf n => if n then (0x7FC00000, Status.nv) else (0x7F800000, 0)
  | .fin n m e =>
    if m = 0 then (0xFF800000, Status.dz)
    else if n then (0x7FC00000, Status.nv)
    else
      let l := Nat.log2 m
      let i : Int := e + l
      if m = 2 ^ l then (BitVec.ofNat 32 (floatOfInt .binary32 0 i).1, 0)
      else
        let z : Int := i * (2 ^ 200 : Nat) + logBits 200 (m * fixOne / 2 ^ l) 0
        let neg := decide (z < 0)
        let mag := if neg then (-z - 1).toNat else z.toNat
        (BitVec.ofNat 32 (monotoneFaithful 5 x neg mag (-200)), Status.nx)

/-- sin(πt) for t = x (or x + 1/2), from |x| in fixed point: the sign, and the magnitude. -/
def fixSinPi (x : Nat) : Bool × Nat :=
  let r := x % (2 * fixOne)
  let flip := decide (fixOne ≤ r)
  let r := if flip then r - fixOne else r
  let t := if fixOne < 2 * r then fixOne - r else r
  (flip, fixSin (t * fixPi / fixOne))

/-- Whether a binary32 number mant * 2^exp is an integer multiple of one half; and twice the number where it is. -/
def twiceOf (m : Nat) (e : Int) : Option Nat :=
  if -1 ≤ e then some (m * 2 ^ (e + 1).toNat)
  else if m % 2 ^ (-1 - e).toNat = 0 then some (m / 2 ^ (-1 - e).toNat) else none

/-- sinp (R169 to R172): within 2 ulp. -/
def fnSinp (x : W32) : W32 × Status :=
  match floatDecode .binary32 x.toNat with
  | .nan s => (0x7FC00000, Status.when s Status.nv)
  | .inf _ => (0x7FC00000, Status.nv)
  | .fin n m e =>
    match twiceOf m e with
    | some h =>
      -- an integer gives a zero of the operand's sign; n + 1/2 gives +1 or −1
      if h % 2 = 0 then (BitVec.ofNat 32 (floatZero .binary32 n), 0)
      else
        let even := if n then decide (h % 4 = 3) else decide (h % 4 = 1)
        (if even then 0x3F800000 else 0xBF800000, 0)
    | none =>
      let (flip, r) := fixSinPi (fixOf m e)
      (BitVec.ofNat 32 (withinTwoUlp 6 x (n != flip) r), inexactStatus r (-300))

/-- cosp (R169 to R172): within 2 ulp. -/
def fnCosp (x : W32) : W32 × Status :=
  match floatDecode .binary32 x.toNat with
  | .nan s => (0x7FC00000, Status.when s Status.nv)
  | .inf _ => (0x7FC00000, Status.nv)
  | .fin _ m e =>
    match twiceOf m e with
    | some h =>
      if h % 2 = 1 then (0, 0) else (if h % 4 = 0 then 0x3F800000 else 0xBF800000, 0)
    | none =>
      let (flip, r) := fixSinPi (fixOf m e + fixOne / 2)
      (BitVec.ofNat 32 (withinTwoUlp 7 x flip r), inexactStatus r (-300))

/-- tanh (R169 to R172): within 2 ulp and in [−1, 1]. (DEDUCED, notes/assumptions/8.md) -/
def fnTanh (x : W32) : W32 × Status :=
  match floatDecode .binary32 x.toNat with
  | .nan s => (0x7FC00000, Status.when s Status.nv)
  | .inf n => (BitVec.ofNat 32 (withSign n 0x3F800000), 0)
  | .fin n m e =>
    if m = 0 then (x, 0)
    else
      let r :=
        if 6 ≤ (Nat.log2 m : Nat) + e then fixOne - 1
        else
          let (y, i) := fixExpWide (2 * fixOf m e)
          let u := y * 2 ^ i - fixOne
          u * fixOne / (u + 2 * fixOne)
      -- below 2^-126: tanh x is below x, and above it for no greater x
      let tiny := decide ((Nat.log2 m : Nat) + e < -126) || decide (m = 2 ^ Nat.log2 m ∧ (Nat.log2 m : Nat) + e = -126)
      (BitVec.ofNat 32 (monotoneTwoUlp 8 x n r (min 0x3F800000)), Status.nx ||| Status.when tiny Status.uf)

/-- sigm (R169 to R172): within 2 ulp and in [0, 1], and on its side of the exact 0.5 at ±0. (DEDUCED, notes/assumptions/8.md) -/
def fnSigm (x : W32) : W32 × Status :=
  match floatDecode .binary32 x.toNat with
  | .nan s => (0x7FC00000, Status.when s Status.nv)
  | .inf n => if n then (0, 0) else (0x3F800000, 0)
  | .fin n m e =>
    if m = 0 then (0x3F000000, 0)
    else
      let wide := decide (7 ≤ (Nat.log2 m : Nat) + e)
      let (y, i) := if wide then (fixOne, 200) else fixExpWide (fixOf m e)
      let big := y * 2 ^ i
      let r := if n then fixOne * fixOne / (big + fixOne)
        else if wide then fixOne - 1 else big * fixOne / (big + fixOne)
      let held (y : Nat) : Nat := if n then min 0x3F000000 y else max 0x3F000000 (min 0x3F800000 y)
      (BitVec.ofNat 32 (monotoneTwoUlp 9 x false r held), inexactStatus r (-300))

/-! The bit-network pattern (R173, R174). -/

/-- Result bit i of bnet: the source bit i XOR X, ZERO and INV applied, w = 64 or 32 (R174). -/
def bnetBit (entry : Nat → Byte) (w : Nat) (a : Nat) (i : Nat) : Bool :=
  let e := (entry i).toNat
  let j := (i ^^^ (if w = 64 then e % 64 else e % 32))
  (if e.testBit 7 then false else a.testBit j) != e.testBit 6

/-- bnet over w bits (R174). -/
def bnet (entry : Nat → Byte) (w : Nat) (a : Nat) : Nat :=
  (List.range w).foldl (fun acc i => if bnetBit entry w a i then acc + 2 ^ i else acc) 0

/-! Forms of Understory and security cores (R176 to R180). -/

/-- The loop of pdep from bit i on, with j the next source bit (R176). -/
def pdepFrom (a b : Nat) : Nat → Nat → Nat → Nat
  | 0, _, _ => 0
  | n + 1, i, j =>
    if b.testBit i then (if a.testBit j then 2 ^ i else 0) + pdepFrom a b n (i + 1) (j + 1)
    else pdepFrom a b n (i + 1) j

/-- The loop of pext from bit i on, with j the next result bit (R176). -/
def pextFrom (a b : Nat) : Nat → Nat → Nat → Nat
  | 0, _, _ => 0
  | n + 1, i, j =>
    if b.testBit i then (if a.testBit i then 2 ^ j else 0) + pextFrom a b n (i + 1) (j + 1)
    else pextFrom a b n (i + 1) j

/-- bperm over w bits (R177). -/
def bpermBytes (w a b : Nat) : Nat :=
  ofBytes <| tabulate (fun i =>
    let n := b / 16 ^ i % 16
    if 8 ≤ n then 0 else BitVec.ofNat 8 (a / 256 ^ (n % (w / 8)) % 256)) (w / 8) 0

/-- The carry-less product of a with the low n bits of b. -/
def clmul (a b : Nat) : Nat → Nat
  | 0 => 0
  | n + 1 => clmul a b n ^^^ (if b.testBit n then a * 2 ^ n else 0)

/-- A polynomial of up to 15 bits reduced by poly: bits 14 down to 8 (R178). -/
def gfReduce (poly : Nat) : Nat → Nat → Nat
  | 0, p => p
  | n + 1, p => gfReduce poly n (if p.testBit (8 + n) then p ^^^ poly * 2 ^ n else p)

/-- gmul of R178. -/
def gfMul (poly x y : Nat) : Nat := gfReduce poly 7 (clmul x y 8) % 256

/-- The products of the n low byte pairs of two words (R178). -/
def gfBytes (poly n a b : Nat) : Nat :=
  ofBytes <| tabulate (fun i => BitVec.ofNat 8 (gfMul poly (a / 256 ^ i % 256) (b / 256 ^ i % 256))) n 0

/-- gfmm in scalar mode (R178). -/
def gfmmScalar (mode : Nat) (a b : W64) : W64 :=
  match mode with
  | 0 => BitVec.ofNat 64 (gfBytes 0x11B 8 a.toNat b.toNat)
  | 1 => BitVec.ofNat 64 (gfBytes 0x11D 8 a.toNat b.toNat)
  | 2 => BitVec.ofNat 64 (clmul a.toNat b.toNat 64)
  | _ => BitVec.ofNat 64 (clmul a.toNat b.toNat 64 / 2 ^ 64)

/-- n steps of the reflected CRC shift (R179). -/
def crcBits (poly : Nat) : Nat → Nat → Nat
  | 0, crc => crc
  | n + 1, crc => crcBits poly n (if crc % 2 = 1 then crc / 2 ^^^ poly else crc / 2)

/-- crcc over n bytes of data, in ascending order (R179). -/
def crcBytes (poly : Nat) : Nat → Nat → Nat → Nat
  | 0, crc, _ => crc
  | n + 1, crc, d => crcBytes poly n (crcBits poly 8 (crc ^^^ d % 256)) (d / 256)

/-- keccak on one row (R180): elements 0 to 49 hold the state, 50 to 63 are copied. -/
def rowKeccak (i : VecIn) (a b _c : Row) : Row × Status :=
  let st := tabulate (fun w => (laneOf a (2 * w + 1) ++ laneOf a (2 * w) : W64)) 25 0
  let new := keccakRound ((laneOf b 0).toNat % 32) st
  rowOf i.mask fun l =>
    if l < 50 then
      let w := new.getD (l / 2) 0
      (if l % 2 = 0 then w.truncate 32 else (w >>> 32).truncate 32, 0)
    else (laneOf a l, 0)

/-- A unary element function as a row function. -/
def rowUnary (f : W32 → W32 × Status) : VecIn → Row → Row → Row → Row × Status := rowLanes fun a _ _ => f a

/-- A binary integer element function as a row function. -/
def rowBinary (f : Nat → Nat → Nat) : VecIn → Row → Row → Row → Row × Status :=
  rowLanes fun a b _ => (BitVec.ofNat 32 (f a.toNat b.toNat), 0)

end Sys2Proof.Machine
end

