-- ==== Sys2Proof/Machine/Pipeline.lean ====
section
/-! DEFINITION. The vector pipelines (R45, R55, R127, R129, R130, R153, R160, R164, R165): what each vector operation reads
and computes row by row, and the step that reads one window row of an operation under way. -/

namespace Sys2Proof.Machine

/-- How a vector operation computes its result. -/
inductive VectorKind where
  /-- Window row k is read at t + k and gives result row k. -/
  | lanes (f : VecIn → Row → Row → Row → Row × Status)
  /-- Window row k is read at t + k and gives a latch row; the mask result is the combination over the rows: AND where all
  is set, else OR (R142, R145). -/
  | mask (all : Bool) (f : VecIn → Row → Row → Row → Row × Status)
  /-- Every window row is read at t; row k gives result row k (R153). -/
  | rowAxis (f : VecIn → Row → Row → Row → Row × Status)
  /-- Every window row is read at t; one mask result (R156). -/
  | vote (mode seg : Nat)
  /-- Every window row is read at t; one row result (R158). -/
  | reduce (op et : Nat)
  /-- Row k is read at t + k; all result rows follow from all source rows (R160). -/
  | column (f : VecIn → List Row → List Row → List (Row × Status))
  /-- vput (R151). -/
  | put

/-- A vector operation: operand types of its three sources (R50 Table 7a), latency of row k (lat + step × k), and how it
computes. -/
structure VectorForm where
  typeA : Nat
  typeC : Nat
  lat : Nat
  step : Nat
  kind : VectorKind

/-- What a form that reads its window row by row writes. -/
def VectorForm.result (f : VectorForm) : TaskResult :=
  match f.kind with
  | .mask _ _ => .mask
  | .column _ => .column
  | _ => .rows

/-- The fields of a vector operation that the pipelines use: slot, WS, destination, sources, window, mask register of its
operand function. -/
structure VectorFields where
  slot : Nat
  ws : Bool
  dst : Nat
  opa : BitVec 6
  opb : BitVec 6
  opc : BitVec 6
  rb : Nat
  rn : Nat
  ks : BitVec 3
  kaux : Nat

/-- A lane-wise operation on the elements of ET. -/
def lanesForm (et lat : Nat) (f : Nat → W32 → W32 → W32 → W32 × Status) : VectorForm :=
  { typeA := et, typeC := et, lat := lat, step := 1, kind := .lanes fun i a b c => rowLanes (f i.frm) i a b c }
/-- The latency of an operation that has both integer and float types (R130). -/
def typedLat (et int : Nat) : Nat := if etFloat et then 4 else int
/-- An elementary function in vector mode (R165, R169). -/
def elementForm (lat : Nat) (f : Nat → W32 → W32 × Status) : VectorForm :=
  { typeA := 2, typeC := 2, lat := lat, step := 1, kind := .lanes fun i a b c => rowUnary (f i.frm) i a b c }
/-- A bit operation in vector mode (R165). -/
def bitForm (lat : Nat) (f : Nat → Nat → Nat) : VectorForm :=
  { typeA := 0, typeC := 0, lat := lat, step := 1, kind := .lanes (rowBinary f) }

/-- The vector operation of an instruction (R130 Table 7, R168 Table 1); none for the other instructions, and for F-class
operations in scalar mode. pat gives the pattern entries of bnet (R173): pattern, entry. (DEDUCED, notes/assumptions/27.md) -/
def vectorForm (pat : Nat → Nat → Byte) : Instr → Option VectorForm
  | .vadd _ f => let et := f.et.toNat; some (lanesForm et (typedLat et 2) fun m a b _ => laneAdd et m a b)
  | .vsub _ f => let et := f.et.toNat; some (lanesForm et (typedLat et 2) fun m a b _ => laneSub et m a b)
  | .vmul _ f => let et := f.et.toNat; some (lanesForm et (typedLat et 3) fun m a b _ => laneMul et m a b)
  | .vmulh _ f => let et := f.et.toNat; some (lanesForm et 3 fun _ a b _ => laneMulh et a b)
  | .vfma _ f => let et := f.et.toNat; some (lanesForm et 4 fun m a b c => laneFma et m false false a b c)
  | .vfms _ f => let et := f.et.toNat; some (lanesForm et 4 fun m a b c => laneFma et m false true a b c)
  | .vfnma _ f => let et := f.et.toNat; some (lanesForm et 4 fun m a b c => laneFma et m true false a b c)
  | .vdiv _ f => let et := f.et.toNat; some { lanesForm et 12 (fun _ a b _ => laneDiv false et a b) with step := 8 }
  | .vrem _ f => let et := f.et.toNat; some { lanesForm et 12 (fun _ a b _ => laneDiv true et a b) with step := 8 }
  | .vmin _ f => let et := f.et.toNat; some (lanesForm et (typedLat et 2) fun _ a b _ => laneMinMax false et a b)
  | .vmax _ f => let et := f.et.toNat; some (lanesForm et (typedLat et 2) fun _ a b _ => laneMinMax true et a b)
  | .vabs _ f => let et := f.et.toNat; some (lanesForm et (typedLat et 2) fun _ a _ _ => laneAbs et a)
  | .vneg _ f => let et := f.et.toNat; some (lanesForm et (typedLat et 2) fun _ a _ _ => laneNeg et a)
  | .vsadd _ f => let et := f.et.toNat; some (lanesForm et 2 fun _ a b _ => laneSat false et a b)
  | .vssub _ f => let et := f.et.toNat; some (lanesForm et 2 fun _ a b _ => laneSat true et a b)
  | .vand _ f => some (lanesForm f.et.toNat 2 fun _ a b _ => (a &&& b, 0))
  | .vor _ f => some (lanesForm f.et.toNat 2 fun _ a b _ => (a ||| b, 0))
  | .vxor _ f => some (lanesForm f.et.toNat 2 fun _ a b _ => (a ^^^ b, 0))
  | .vandn _ f => some (lanesForm f.et.toNat 2 fun _ a b _ => (a &&& ~~~b, 0))
  | .vnot _ f => some (lanesForm f.et.toNat 2 fun _ a _ _ => (~~~a, 0))
  | .vshl _ f => let et := f.et.toNat; some (lanesForm et 2 fun _ a b _ => laneShift 0 et a b)
  | .vshr _ f => let et := f.et.toNat; some (lanesForm et 2 fun _ a b _ => laneShift 1 et a b)
  | .vsar _ f => let et := f.et.toNat; some (lanesForm et 2 fun _ a b _ => laneShift 2 et a b)
  | .vcmp _ f =>
    let et := f.et.toNat
    let all := f.aux.getLsbD 4
    some { typeA := et, typeC := et, lat := 2, step := 1,
           kind := .mask all (rowCmp (f.aux.toNat % 16) et all (f.aux.getLsbD 5)) }
  | .vsel _ f => let et := f.et.toNat; some (lanesForm et 2 fun _ a b c => laneSel et a b c)
  | .vcvt _ f =>
    let src := f.aux.toNat % 8
    some { lanesForm f.et.toNat 4 (fun m a _ _ => laneCvt f.et.toNat src m a) with typeA := src }
  | .vpack _ f =>
    let et := f.et.toNat
    some { lanesForm et 3 (fun m a b _ => lanePack et (f.aux.getLsbD 0) (f.aux.getLsbD 1) m a b) with
           typeA := if etFloat et then 2 else if et = 7 then 3 else 0 }
  | .vunpk _ f =>
    let et := f.et.toNat
    some (lanesForm et 3 fun _ a _ _ => laneUnpk et (f.aux.toNat % 2) (f.aux.getLsbD 1) a)
  | .vdot4 _ f =>
    some { lanesForm f.et.toNat 3 (fun _ a b c => laneDot4 (f.aux.getLsbD 0) (f.aux.getLsbD 1) a b c) with typeC := 0 }
  | .vdot2 _ f => let et := f.et.toNat; some { lanesForm et 3 (fun _ a b c => laneDot2 et a b c) with typeC := 0 }
  | .vclz _ f => let et := f.et.toNat; some (lanesForm et 2 fun _ a _ _ => laneClz et a)
  | .vpopc _ f => let et := f.et.toNat; some (lanesForm et 2 fun _ a _ _ => lanePopc et a)
  | .vrotr _ f => some { typeA := f.et.toNat, typeC := 0, lat := 3, step := 1, kind := .rowAxis rowRotr }
  | .vbcr _ f => some { typeA := f.et.toNat, typeC := 0, lat := 3, step := 1, kind := .rowAxis rowBcr }
  | .vredr _ f => some { typeA := f.et.toNat, typeC := 0, lat := 6, step := 0, kind := .reduce (f.aux.toNat % 8) f.et.toNat }
  | .vscanr _ f =>
    some { typeA := f.et.toNat, typeC := 0, lat := 8, step := 1,
           kind := .rowAxis (rowScan (f.aux.toNat % 8) f.et.toNat (f.aux.getLsbD 3)) }
  | .vshuf _ f => some { typeA := f.et.toNat, typeC := 0, lat := 4, step := 1, kind := .rowAxis rowShuf }
  | .vvote _ f =>
    some { typeA := 0, typeC := 0, lat := 4, step := 0, kind := .vote (f.aux.toNat % 4) (f.aux.toNat / 4 % 8) }
  | .vrotc _ f => some { typeA := f.et.toNat, typeC := 0, lat := 18, step := 1, kind := .column (colMove false) }
  | .vbcc _ f => some { typeA := f.et.toNat, typeC := 0, lat := 18, step := 1, kind := .column (colMove true) }
  | .vredc _ f =>
    some { typeA := f.et.toNat, typeC := 0, lat := 20, step := 0,
           kind := .column fun i as _ => colReduce (f.aux.toNat % 8) f.et.toNat i as }
  | .vscanc _ f =>
    some { typeA := f.et.toNat, typeC := 0, lat := 18, step := 1,
           kind := .column fun i as _ => colScan (f.aux.toNat % 8) f.et.toNat (f.aux.getLsbD 3) i as }
  | .vmov _ f => some (lanesForm f.et.toNat 2 fun _ a _ _ => (a, 0))
  | .vput _ f => some { typeA := f.et.toNat, typeC := 0, lat := 2, step := 0, kind := .put }
  | .viota _ f => some { typeA := f.et.toNat, typeC := 0, lat := 2, step := 1, kind := .lanes rowIota }
  | .vkmov _ f =>
    some { typeA := 0, typeC := 0, lat := 2, step := 1,
           kind := if f.aux.getLsbD 0 then .mask false rowNonZero else .lanes rowFromMask }
  | .rcp f => if vmF f then some (elementForm 6 fnRcp) else none
  | .rsq f => if vmF f then some (elementForm 6 fun _ => fnRsq) else none
  | .sqrt f => if vmF f then some (elementForm 6 fnSqrt) else none
  | .exp2 f => if vmF f then some (elementForm 8 fun _ => fnExp2) else none
  | .log2 f => if vmF f then some (elementForm 8 fun _ => fnLog2) else none
  | .sinp f => if vmF f then some (elementForm 10 fun _ => fnSinp) else none
  | .cosp f => if vmF f then some (elementForm 10 fun _ => fnCosp) else none
  | .tanh f => if vmF f then some (elementForm 10 fun _ => fnTanh) else none
  | .sigm f => if vmF f then some (elementForm 10 fun _ => fnSigm) else none
  | .bnet f => if vmF f then some (bitForm 2 fun a p => bnet (pat (p % 8)) 32 a) else none
  | .pdep f => if vmF f then some (bitForm 3 fun a b => pdepFrom a b 32 0 0) else none
  | .pext f => if vmF f then some (bitForm 3 fun a b => pextFrom a b 32 0 0) else none
  | .bperm f => if vmF f then some (bitForm 3 (bpermBytes 32)) else none
  | .gfmm f => if vmF f then some (bitForm 3 (gfBytes 0x11B 4)) else none
  | .crcc f => if vmF f then some (bitForm 3 (crcBytes 0x82F63B78 4)) else none
  | .keccak f => if vmF f then some { typeA := 0, typeC := 0, lat := 4, step := 0, kind := .lanes rowKeccak } else none
  | _ => none

/-- The pattern tables that a bnet reads at t (R173, R174); other instructions read none. -/
def patWords (s : State) (k t : Nat) : Instr → List W64
  | .bnet _ => tabulate (s.readCsr k t 23) 64 0x090
  | _ => []
/-- Entry i of pattern p (R173). -/
def patEntry (words : List W64) (p i : Nat) : Byte := ((words.getD (8 * p + i / 8) 0) >>> (8 * (i % 8))).truncate 8

/-- A result of a vector operation put in flight: a latch row unless the context has been switched out since the issue, a
register row unless WS = 1, and status bits (R45, R55, R100). -/
def putRow (k slot issued lat row dst : Nat) (ws : Bool) (contested : W64) (latchRow : Row) (m : W64) (value : Row) (st : Status)
    (s : State) : State :=
  let put (due : Nat) (c : W64) (w : Landing) (s : State) : State :=
    s.addPending k { due := due, issued := issued, slot := slot % 16, contested := c, what := w }
  let s := if slot < 16 then put (issued + lat) 0 (.latchV (vectorLatch slot) row latchRow) s else s
  let s := if ws then s else put (issued + lat + 1) contested (.vrow dst row m value) s
  if st = 0 then s else put (issued + lat + 1) 0 (.status (slot % 16) st) s

/-- A mask result put in flight (R142, R145, R156): k0 discards it. -/
def putMask (k slot issued lat dst : Nat) (ws : Bool) (contested m bits : W64) (s : State) : State :=
  if ws then s
  else s.addPending k { due := issued + lat + 1, issued := issued, slot := slot % 16, contested := contested,
                        what := .kmask (dst % 8) m bits }

/-- The result rows of a column-axis operation put in flight (R160). -/
def putColumn (k : Nat) (r : RowTask) (rows : List (Row × Status)) (s : State) : State :=
  (rows.foldl (fun (s, j) (row, st) =>
    (putRow k r.slot r.issued (r.lat + r.step * j) j r.dst r.ws (r.contestedAt j) row r.inp.mask row st s, j + 1)) (s, 0)).1

/-- One window row of an operation under way is read at cycle issued + k, and what it gives is put in flight; the task as it
goes on, or none when it has read its last row. -/
def rowStep (s : State) (k : Nat) (r : RowTask) : State × Option RowTask :=
  let tag := 64 + r.slot % 16 * 4
  let row := r.rb + r.k
  let a := sourceRow s k r.issued tag r.srcA row
  let b := sourceRow s k r.issued (tag + 1) r.srcB row
  let c := sourceRow s k r.issued (tag + 2) r.srcC row
  let next (r : RowTask) : Option RowTask := if r.k = r.rn then none else some { r with k := r.k + 1, due := r.due + 1 }
  match (vectorForm (patEntry r.pat) r.instr).map VectorForm.kind with
  | some (.lanes f) =>
    let (x, st) := f r.inp a b c
    (putRow k r.slot r.issued (r.lat + r.step * r.k) row r.dst r.ws (r.contestedAt row) x r.inp.mask x st s, next r)
  | some (.mask all f) =>
    let (x, st) := f r.inp a b c
    let bits := maskOfRow x
    let acc := if r.k = 0 then bits else if all then r.acc &&& bits else r.acc ||| bits
    let s := putRow k r.slot r.issued (r.lat + r.k) row 0 true 0 x r.inp.mask x st s
    let s := if r.k = r.rn then putMask k r.slot r.issued (r.lat + r.rn) r.dst r.ws (r.contestedAt 0) r.inp.mask acc s else s
    (s, next { r with acc := acc })
  | some (.column f) =>
    let r := { r with kept := r.kept ++ [(a, b)] }
    if r.k = r.rn then (putColumn k r (f r.inp (r.kept.map Prod.fst) (r.kept.map Prod.snd)) s, none) else (s, next r)
  | _ =>
    match r.instr with
    | .v2t _ => (s.updEngine r.dst fun c => { c with rows := c.rows ++ [a] }, next r)
    | _ => (s, none)

/-- The rows of a source read at t (R153). -/
def windowRows (s : State) (k t tag : Nat) (src : VSource) (rb rn : Nat) : List Row :=
  tabulate (sourceRow s k t tag src) (rn + 1) rb

/-- The effect of a vector operation at its issue (R129, R153, R160, R165). A reduction or vput with no lane active follows its own rule:
it writes row RB all the same, and its latch holds that row (DEDUCED, notes/assumptions/100.md). -/
def vectorEffect (i : Instr) (v : VectorFields) (form : VectorForm) (e : Env) (s : State) : State :=
  let tag := v.slot * 4
  let m := if v.slot = 5 then s.readLmask e.k e.t (tag + 3) else laneMask s e v.slot v.ks
  let inp : VecIn := { frm := (s.readCsr e.k e.t tag 0x003).toNat, mask := m, kaux := s.readK e.k e.t (tag + 2) v.kaux }
  let a := vectorOperand s e v.slot 0 form.typeA v.opa
  let b := vectorOperand s e v.slot 1 form.typeA v.opb
  let c := vectorOperand s e v.slot 2 form.typeC v.opc
  let put (lat row : Nat) (x : Row) (m : W64) (st : Status) (s : State) : State :=
    putRow e.k v.slot e.t lat row v.dst v.ws 0 x m x st s
  match form.kind with
  | .rowAxis f =>
    (List.range (v.rn + 1)).foldl (fun s' j =>
      let (x, st) := f inp (sourceRow s e.k e.t tag a (v.rb + j)) (sourceRow s e.k e.t (tag + 1) b (v.rb + j)) Row.zero
      put (form.lat + form.step * j) (v.rb + j) x m st s') s
  | .vote mode seg =>
    let bits := voteMask mode seg m (windowRows s e.k e.t tag a v.rb v.rn)
    let latch := rowOfMask m bits
    let s := (List.range (v.rn + 1)).foldl (fun s j =>
      putRow e.k v.slot e.t form.lat (v.rb + j) 0 true 0 latch m latch 0 s) s
    putMask e.k v.slot e.t form.lat v.dst v.ws 0 m bits s
  | .reduce op et =>
    let (x, st) := rowsReduce op et inp (windowRows s e.k e.t tag a v.rb v.rn)
    let s := put form.lat v.rb x (BitVec.allOnes 64) st s
    (List.range v.rn).foldl (fun s j =>
      putRow e.k v.slot e.t form.lat (v.rb + 1 + j) 0 true 0 Row.zero m Row.zero 0 s) s
  | .put =>
    let w := laneOf (sourceRow s e.k e.t tag a 0) 0
    let i := (laneOf (sourceRow s e.k e.t (tag + 1) b 0) 0).toNat % 1024
    let old := s.readVrow e.k e.t (tag + 2) v.dst (i / 64)
    let new := if m.getLsbD (i % 64) then old.setIfInBounds (i % 64) w else old
    put form.lat (i / 64) new (BitVec.allOnes 64) 0 s
  | _ =>
    let r : RowTask :=
      { due := e.t, issued := e.t, slot := v.slot, k := 0, instr := i, rb := v.rb, rn := v.rn, lat := form.lat
        step := form.step, result := form.result, dst := v.dst, ws := v.ws, inp := inp, srcA := a, srcB := b, srcC := c, kept := [], acc := 0
        pat := patWords s e.k e.t i
        contested := [] }
    match rowStep s e.k r with
    | (s, some r) => s.updCtx e.k fun c => { c with rows := c.rows ++ [r] }
    | (s, none) => s

/-- The destinations that a vector operation writes, with their cycles (R65). -/
def vectorWrites (v : VectorFields) (form : VectorForm) (e : Env) : List WriteAt :=
  if v.ws then []
  else
    let row (r cycle : Nat) : WriteAt := { kind := 1, number := v.dst, row := r, cycle := cycle }
    let mask (lat : Nat) : List WriteAt := writesOf (e.t + lat + 1) (.kmask (v.dst % 8) 0 0)
    match form.kind with
    | .mask _ _ => mask (form.lat + v.rn)
    | .vote _ _ => mask form.lat
    | .reduce _ _ => [row v.rb (e.t + form.lat + 1)]
    | .put => tabulate (fun r => row r (e.t + form.lat + 1)) 16 0
    | _ => tabulate (fun j => row (v.rb + j) (e.t + form.lat + form.step * j + 1)) (v.rn + 1) 0

/-- A vector operation as the issue stage sees it. -/
def vectorOp (i : Instr) (uf : Nat) (pf : BitVec 4) (pn : Bool) (occ : Nat) (v : VectorFields) : SlotOp :=
  { slot := v.slot, uf := uf, pf := pf, pn := pn, occ := occ
    writes := fun e _ => match vectorForm (patEntry []) i with | some form => vectorWrites v form e | none => []
    effect := fun e s => match vectorForm (patEntry []) i with | some form => vectorEffect i v form e s | none => s }

end Sys2Proof.Machine
end

