-- ==== Sys2Proof/Machine/LoadStore.lean ====
section
/-! DEFINITION. The meanings of the M class but for the queues: loads, stores, gathers and scatters (R281 to R287), prefetch,
watches and cache maintenance (R288 to R290), atomics and fences (R303 to R310). -/

namespace Sys2Proof.Machine

/-! ## Operands and elements -/

/-- OPA of an M-class operation. -/
def opaM (u : SlotM) (f : FieldM) (e : Env) (s : State) : W64 := scalarOperand s e u.index 0 f.opa
/-- OPB of a scalar M-class operation. -/
def opbM (u : SlotM) (f : FieldM) (e : Env) (s : State) : W64 := scalarOperand s e u.index 1 f.opb
/-- The scalar register that DST names, as a source. -/
def dataM (u : SlotM) (f : FieldM) (e : Env) (s : State) : W64 := s.readS e.k e.t (u.index * 4 + 2) f.dst.toNat
/-- The access size in bytes (R282). -/
def sizeM (f : FieldM) : Nat := 2 ^ f.sz.toNat

/-- One element of a vector operation: row, lane, address. -/
structure LaneAddr where
  row : Nat
  lane : Nat
  va : W64
deriving DecidableEq, Repr

/-- The active elements of one row, in lane order. -/
def rowAddrs (m : W64) (row : Nat) (addr : Nat → W64) : List LaneAddr :=
  (List.range 64).filterMap fun c => if m.getLsbD c then some { row := row, lane := c, va := addr c } else none

/-- The addresses of a contiguous vector access, row by row (R285, R287): k counts window rows. -/
def denseAddrs (m base : W64) (size rb rn : Nat) : List (List LaneAddr) :=
  tabulate (fun k => rowAddrs m (rb + k) fun c => base + BitVec.ofNat 64 (size * (64 * k + c))) (rn + 1) 0

/-- The addresses of an indexed vector access, row by row (R286, R287, R306). -/
def indexedAddrs (m base : W64) (size : Nat) (unsigned : Bool) (rb rn : Nat) (index : Nat → Row) : List (List LaneAddr) :=
  tabulate (fun k =>
    let x := index (rb + k)
    rowAddrs m (rb + k) fun c =>
      base + BitVec.ofNat 64 size * (if unsigned then zext32 (laneOf x c) else sext32 (laneOf x c))) (rn + 1) 0

/-- The index rows of an M-class operation, read at t (R282). -/
def indexRowsM (u : SlotM) (f : FieldM) (e : Env) (s : State) : Nat → Row :=
  let src := vectorOperand s e u.index 1 0 f.opb
  fun row => sourceRow s e.k e.t (u.index * 4 + 1) src row
/-- A row of the vector register that DST names, as a source. -/
def dataRowM (u : SlotM) (f : FieldM) (e : Env) (s : State) (row : Nat) : Row :=
  s.readVrow e.k e.t (u.index * 4 + 2) (f.dst.toNat % 16) row

/-- The first fault among elements, in row-major, lane order (R279). -/
def firstFault (check : W64 → Translation) : List LaneAddr → Option (Cause × W64)
  | [] => none
  | x :: xs => match check x.va with | .fault c => some (c, x.va) | _ => firstFault check xs
/-- The pages that elements need a walk for (R279). -/
def walkPages (check : W64 → Translation) (xs : List LaneAddr) : List Nat :=
  (xs.filterMap fun x => match check x.va with | .walk => some (x.va.toNat / 4096) | _ => none).eraseDups
/-- The elements with their places and data. -/
def placed (check : W64 → Translation) (data : Nat → Row) (xs : List LaneAddr) : List Element :=
  xs.filterMap fun x => match check x.va with
    | .place p => some { va := x.va, place := p, row := x.row, lane := x.lane, data := zext32 (laneOf (data x.row) x.lane) }
    | _ => none
/-- Whether some element lies on an NC page (R318 Table 7). -/
def onNc (check : W64 → Translation) (xs : List LaneAddr) : Bool :=
  xs.any fun x => match check x.va with | .place p => p.nc | _ => false

/-- The lines that an overrunner's buffer holds or will hold: those of its buffered, queued and landing stores (R315). -/
def bufferLines (s : State) (k : Nat) : List Nat :=
  let c := s.ctx k
  let held := ((s.overrunBank k).map fun b => b.stores.map fun x => lineOf x.key).getD []
  let queued := (c.accesses.map fun a => match a.kind with
    | .store => a.elements.map fun x => lineOf x.place.key
    | .vstore _ => a.elements.map fun x => lineOf x.place.key
    | _ => []).flatten
  let landing := (c.pending.map fun p => match p.what with | .spadRow _ es => es.map fun x => lineOf x.1 | _ => []).flatten
  (held ++ queued ++ landing).eraseDups
/-- Whether stores to some keys need a buffer line when all 256 are taken (R318 Table 7). -/
def bufferFull (s : State) (k : Nat) (keys : List Nat) : Bool :=
  (s.ctx k).overrun.isSome && decide (256 < (bufferLines s k ++ keys.map lineOf).eraseDups.length)

/-- The context leaves the shelter of its phase where a store falls outside the output range (R377). -/
def exposeStores (s : State) (k size : Nat) (xs : List Element) : State :=
  if (xs.all fun x => (s.ctx k).inOutput x.va size) then s else s.updCtx k Ctx.expose

/-- A scope and ordering that reach beyond the device (R318 Table 7). -/
def farOrder (f : FieldM) : Bool := decide (ordM f ≠ 0) && decide (3 ≤ f.sc.toNat)

/-! ## Shapes of operations -/

/-- A scalar global access: addr gives its address; check its checks; queued says that it takes a store-queue entry, entry
that it takes a DLQ entry; act what it does at its place. (DEDUCED, notes/assumptions/19.md) -/
def globalScalar (u : SlotM) (f : FieldM) (uf : Nat) (store entry ends : Bool) (addr : Env → State → W64)
    (check : Env → State → W64 → Translation) (act : Env → State → W64 → Place → State) : SlotOp :=
  { slot := u.index, uf := uf, pf := f.pf, pn := f.pn
    hold := fun e s => match check e s (addr e s) with
      | .walk => some (.walk [(addr e s).toNat / 4096])
      | _ => if store && decide (32 ≤ (s.ctx e.k).storeQueue) then some .gap else none
    trap := fun e s => match check e s (addr e s) with
      | .fault c => some (slotTrap u.index c (addr e s))
      | _ =>
        if entry && decide (16 ≤ (s.ctx e.k).dlq.length) then
          some (slotTrap u.index .queueProtocol (BitVec.ofNat 64 (u.index + 2 ^ 9)))
        else none
    endsOverrun := fun e s => ends || match check e s (addr e s) with
      | .place p => p.nc || (store && bufferFull s e.k [p.key])
      | _ => false
    effect := fun e s => match check e s (addr e s) with
      | .place p => act e s (addr e s) p
      | _ => s }

/-- A scratchpad scalar access (R284, R304). (DEDUCED, notes/assumptions/19.md) -/
def spadScalar (u : SlotM) (f : FieldM) (uf : Nat) (store entry ends : Bool) (addr : Env → State → W64)
    (writes : Env → State → List WriteAt) (act : Env → State → W64 → Nat → State) : SlotOp :=
  { slot := u.index, uf := uf, pf := f.pf, pn := f.pn, writes := writes
    hold := fun e s => s.spadHold e.k (sizeM f) u.index [[addr e s]]
    trap := fun e s => match s.spadTrap e.k (sizeM f) (addr e s) with
      | some c => some (slotTrap u.index c (addr e s))
      | none =>
        if entry && decide (16 ≤ (s.ctx e.k).dlq.length) then
          some (slotTrap u.index .queueProtocol (BitVec.ofNat 64 (u.index + 2 ^ 9)))
        else none
    endsOverrun := fun e s => ends || match s.spadCheck e.k (sizeM f) (addr e s) with
      | .bank _ key => store && bufferFull s e.k [key]
      | _ => false
    effect := fun e s => match s.spadCheck e.k (sizeM f) (addr e s) with
      | .bank _ key => act e s (addr e s) key
      | _ => s }

/-- A global vector access (R279, R285, R286, R306): rows gives its elements, act what it does with them at their places. -/
def globalVector (u : SlotM) (f : FieldM) (uf size : Nat) (store queued ends : Bool) (rows : Env → State → List (List LaneAddr))
    (check : Env → State → W64 → Translation) (data : Env → State → Nat → Row)
    (act : Env → State → List Element → State) : SlotOp :=
  { slot := u.index, uf := uf, pf := f.pf, pn := f.pn, occ := 16
    hold := fun e s =>
      let pages := walkPages (check e s) (rows e s).flatten
      if !pages.isEmpty then some (.freeze (.walk pages))
      else if queued && decide (32 ≤ (s.ctx e.k).storeQueue) then some .gap else none
    trap := fun e s => (firstFault (check e s) (rows e s).flatten).map fun x => slotTrap u.index x.1 x.2
    endsOverrun := fun e s =>
      let xs := (rows e s).flatten
      ends || onNc (check e s) xs
        || (store && bufferFull s e.k ((placed (check e s) (fun _ => Row.zero) xs).map fun x => x.place.key))
    effect := fun e s =>
      let xs := placed (check e s) (data e s) (rows e s).flatten
      let s := if store then exposeStores s e.k size xs else s
      act e s xs }

/-- The first scratchpad fault among elements (R277). -/
def firstSpadFault (s : State) (k size : Nat) : List LaneAddr → Option (Cause × W64)
  | [] => none
  | x :: xs => match s.spadTrap k size x.va with | some c => some (c, x.va) | none => firstSpadFault s k size xs

/-- A scratchpad vector access (R287, R306). (DEDUCED, notes/assumptions/22.md) -/
def spadVector (u : SlotM) (f : FieldM) (uf size occ : Nat) (store ends : Bool) (rows : Env → State → List (List LaneAddr))
    (writes : Env → State → List WriteAt) (act : Env → State → State) : SlotOp :=
  { slot := u.index, uf := uf, pf := f.pf, pn := f.pn, occ := occ, writes := writes
    hold := fun e s => s.spadHold e.k size u.index
      ((rows e s).map fun r => r.map LaneAddr.va)
    trap := fun e s => (firstSpadFault s e.k size (rows e s).flatten).map fun x => slotTrap u.index x.1 x.2
    endsOverrun := fun e s => ends || (store && bufferFull s e.k ((rows e s).flatten.filterMap fun x =>
      match s.spadCheck e.k size x.va with | .bank _ key => some key | _ => none))
    effect := act }

/-! ## ld, st, lds, sts (R283, R284) -/

/-- The address of a scalar access (R283, R284): (a + b) mod 2^64. -/
def sumAddr (u : SlotM) (f : FieldM) (e : Env) (s : State) : W64 := opaM u f e s + opbM u f e s

/-- ld (R283). -/
def ldOp (u : SlotM) (f : FieldM) : SlotOp :=
  globalScalar u f 0x01 false true (farOrder f) (sumAddr u f) (fun e s va => s.globalCheck e.k .load (sizeM f) va)
    fun e s va p =>
      let id := (s.ctx e.k).nextAccess
      (s.takeEntry e.k).enqueue e.k (.load id (f.aux.getLsbD 0)) (sizeM f) f.sc.toNat (ordM f)
        [{ va := va, place := p, row := 0, lane := 0, data := 0 }]
/-- ld (R283). -/
def execLd (u : SlotM) (f : FieldM) (s : State) : Host.Outcome State Fault Refusal := .next (issueOps [ldOp u f] s)

/-- st (R283). -/
def stOp (u : SlotM) (f : FieldM) : SlotOp :=
  globalScalar u f 0x02 true false (farOrder f) (sumAddr u f) (fun e s va => s.globalCheck e.k .store (sizeM f) va)
    fun e s va p =>
      let x : Element := { va := va, place := p, row := 0, lane := 0, data := dataM u f e s }
      (exposeStores s e.k (sizeM f) [x]).enqueue e.k .store (sizeM f) f.sc.toNat (ordM f) [x]
/-- st (R283). -/
def execSt (u : SlotM) (f : FieldM) (s : State) : Host.Outcome State Fault Refusal := .next (issueOps [stOp u f] s)

/-- A scalar result of an M-class operation: its slot latch at t + L, its register at t + L + 1 unless WS = 1. -/
def putScalarM (u : SlotM) (f : FieldM) (lat : Nat) (x : W64) (e : Env) (s : State) : State :=
  let put (due : Nat) (w : Landing) (s : State) : State :=
    s.addPending e.k { due := due, issued := e.t, slot := u.index, contested := 0, what := w }
  let s := put (e.t + lat) (.latchS (scalarLatch u.index) x) s
  if f.ws then s else put (e.t + lat + 1) (.scalar f.dst.toNat x) s
/-- The scalar register that such a result writes (R65). -/
def scalarWritesM (f : FieldM) (lat : Nat) (e : Env) (_ : State) : List WriteAt :=
  if f.ws then [] else writesOf (e.t + lat + 1) (.scalar f.dst.toNat 0)

/-- lds (R284). -/
def ldsOp (u : SlotM) (f : FieldM) : SlotOp :=
  spadScalar u f 0x07 false false false (sumAddr u f) (scalarWritesM f 6) fun e s va key =>
    match ((s.flush e.k).settleRows e.k e.t [key] (sizeM f)).readFor e.k (placeInOrder e.t (s.ctx e.k).nextAccess false) key (sizeM f) with
    | (some v, s) => putScalarM u f 6 (extended (f.aux.getLsbD 0) (sizeM f) v) e s
    | (none, s) => putScalarM u f 6 (s.openWord (2 ^ 158 + key)) e (s.failAccess e.k none false va)
/-- lds (R284). -/
def execLds (u : SlotM) (f : FieldM) (s : State) : Host.Outcome State Fault Refusal := .next (issueOps [ldsOp u f] s)

/-- A place in the program order of a context taken. -/
def State.takeOrder (s : State) (k : Nat) : State := s.updCtx k fun c => { c with nextAccess := c.nextAccess + 1 }

/-- sts (R284). -/
def stsOp (u : SlotM) (f : FieldM) : SlotOp :=
  spadScalar u f 0x08 true false false (sumAddr u f) (fun _ _ => []) fun e s va key =>
    let data := dataM u f e s
    let order := placeInOrder e.t (s.ctx e.k).nextAccess true
    (((s.flush e.k).settleRows e.k e.t [key] (sizeM f)).takeOrder e.k).writeFor e.k true false order va key
      (toBytes (sizeM f) data.toNat)
/-- sts (R284). -/
def execSts (u : SlotM) (f : FieldM) (s : State) : Host.Outcome State Fault Refusal := .next (issueOps [stsOp u f] s)

/-! ## vld, vst, vgat, vsct (R285, R286) -/

/-- The elements of vld and vst. -/
def denseRows (u : SlotM) (f : FieldM) (e : Env) (s : State) : List (List LaneAddr) :=
  denseAddrs (laneMask s e u.index f.ks) (opaM u f e s) (sizeM f) 0 15
/-- The elements of vgat and vsct. -/
def gatherRows (u : SlotM) (f : FieldM) (e : Env) (s : State) : List (List LaneAddr) :=
  indexedAddrs (laneMask s e u.index f.ks) (opaM u f e s) (sizeM f) (f.aux.getLsbD 4) 0 15 (indexRowsM u f e s)
/-- A global vector load into v[DST] (R285). -/
def vectorLoad (u : SlotM) (f : FieldM) (uf : Nat) (rows : Env → State → List (List LaneAddr)) : SlotOp :=
  globalVector u f uf (sizeM f) false false false rows (fun e s va => s.globalCheck e.k .load (sizeM f) va)
    (fun _ _ _ => Row.zero) fun e s xs =>
      s.enqueue e.k (.vload (f.dst.toNat % 16) (f.aux.toNat % 16)) (sizeM f) f.sc.toNat (ordM f) xs
/-- A global vector store of v[DST] (R285). -/
def vectorStore (u : SlotM) (f : FieldM) (uf : Nat) (rows : Env → State → List (List LaneAddr)) : SlotOp :=
  globalVector u f uf (sizeM f) true false false rows (fun e s va => s.globalCheck e.k .store (sizeM f) va)
    (dataRowM u f) fun e s xs => s.enqueue e.k (.vstore (f.aux.toNat % 16)) (sizeM f) f.sc.toNat (ordM f) xs

/-- vld (R285). -/
def vldOp (u : SlotM) (f : FieldM) : SlotOp := vectorLoad u f 0x03 (denseRows u f)
/-- vld (R285). -/
def execVld (u : SlotM) (f : FieldM) (s : State) : Host.Outcome State Fault Refusal := .next (issueOps [vldOp u f] s)
/-- vst (R285). -/
def vstOp (u : SlotM) (f : FieldM) : SlotOp := vectorStore u f 0x04 (denseRows u f)
/-- vst (R285). -/
def execVst (u : SlotM) (f : FieldM) (s : State) : Host.Outcome State Fault Refusal := .next (issueOps [vstOp u f] s)
/-- vgat (R286). -/
def vgatOp (u : SlotM) (f : FieldM) : SlotOp := vectorLoad u f 0x05 (gatherRows u f)
/-- vgat (R286). -/
def execVgat (u : SlotM) (f : FieldM) (s : State) : Host.Outcome State Fault Refusal := .next (issueOps [vgatOp u f] s)
/-- vsct (R286). -/
def vsctOp (u : SlotM) (f : FieldM) : SlotOp := vectorStore u f 0x06 (gatherRows u f)
/-- vsct (R286). -/
def execVsct (u : SlotM) (f : FieldM) (s : State) : Host.Outcome State Fault Refusal := .next (issueOps [vsctOp u f] s)

/-! ## vlds, vsts, vgats, vscts (R287) -/

/-- RB of a scratchpad vector operation. -/
def rbM (f : FieldM) : Nat := f.aux.toNat / 16
/-- RN of a scratchpad vector operation. -/
def rnM (f : FieldM) : Nat := f.aux.toNat % 16
/-- The elements of vlds and vsts. -/
def spadDense (u : SlotM) (f : FieldM) (e : Env) (s : State) : List (List LaneAddr) :=
  denseAddrs (laneMask s e u.index f.ks) (opaM u f e s) (sizeM f) (rbM f) (rnM f)
/-- The elements of vgats and vscts. -/
def spadIndexed (u : SlotM) (f : FieldM) (e : Env) (s : State) : List (List LaneAddr) :=
  indexedAddrs (laneMask s e u.index f.ks) (opaM u f e s) (sizeM f) true (rbM f) (rnM f) (indexRowsM u f e s)

/-- The key of a scratchpad element. -/
def spadKey (s : State) (k size : Nat) (va : W64) : Nat := match s.spadCheck k size va with | .bank _ key => key | .fault _ => 0

/-- The elements of a row read in lane order: the words by lane, and the first that failed. -/
def readLanes (k order size : Nat) : List LaneAddr → State → List (Nat × W32) × Option W64 × State
  | [], s => ([], none, s)
  | x :: xs, s =>
    let (v, s) := s.readFor k order (spadKey s k size x.va) size
    let w : W32 := match v with | some v => BitVec.ofNat 32 v | none => (s.openWord (2 ^ 158 + x.va.toNat)).truncate 32
    let (ws, failed, s) := readLanes k order size xs s
    ((x.lane, w) :: ws, (if v.isNone then some x.va else failed), s)

/-- A row from its words by lane. -/
def rowOfLanes (ws : List (Nat × W32)) : Row := Vector.ofFn fun c => ((ws.find? fun p => p.1 = c.val).map Prod.snd).getD 0

/-- The registers that vlds, vgats and cspop write: row k at t + 9 + k (R65). -/
def rowWritesM (f : FieldM) (e : Env) (_ : State) : List WriteAt :=
  if f.ws then []
  else tabulate (fun k => { kind := 1, number := f.dst.toNat % 16, row := rbM f + k, cycle := e.t + 9 + k }) (rnM f + 1) 0

/-- The rows of a scratchpad load read at t, each put in flight at t + 8 + k (R287). -/
def loadRows (u : SlotM) (f : FieldM) (m : W64) (e : Env) : Nat → List (List LaneAddr) → State → State
  | _, [], s => s
  | k, r :: rs, s =>
    let (ws, failed, s) := readLanes e.k (placeInOrder e.t (s.ctx e.k).nextAccess false) (sizeM f) r s
    let row := rowOfLanes ws
    let s := putRow e.k u.index e.t (8 + k) (rbM f + k) (f.dst.toNat % 16) f.ws 0 row m row 0 s
    let s := match failed with | some va => s.failAccess e.k none false va | none => s
    loadRows u f m e (k + 1) rs s

/-- A scratchpad vector load (R287). -/
def spadLoad (u : SlotM) (f : FieldM) (uf : Nat) (rows : Env → State → List (List LaneAddr)) : SlotOp :=
  spadVector u f uf (sizeM f) (rnM f + 1) false false rows (rowWritesM f) fun e s =>
    loadRows u f (laneMask s e u.index f.ks) e 0 (rows e s)
      ((s.flush e.k).settleRows e.k e.t ((rows e s).flatten.map fun x => spadKey s e.k (sizeM f) x.va) (sizeM f))

/-- A scratchpad vector store: data read at t, row 0 performed at t and row k as if issued at t + k (R287). -/
def spadStore (u : SlotM) (f : FieldM) (uf : Nat) (rows : Env → State → List (List LaneAddr)) : SlotOp :=
  spadVector u f uf (sizeM f) (rnM f + 1) true false rows (fun _ _ => []) fun e s =>
    let number := (s.ctx e.k).nextAccess
    let size := sizeM f
    let all := (rows e s).map fun r => r.map fun x =>
      (spadKey s e.k size x.va, toBytes size (laneOf (dataRowM u f e s x.row) x.lane).toNat)
    let s := ((s.flush e.k).settleRows e.k e.t (all.flatten.map Prod.fst) size).takeOrder e.k
    let s := (all.headD []).foldl (fun s (key, bytes) => s.writeFor e.k true false (rowPlace e.t number 0) 0 key bytes) s
    (all.tail.foldl (fun (s, k) es =>
      let what := .spadRow (rowPlace e.t number k) es
      (s.addPending e.k { due := e.t + k + 1, issued := e.t, slot := u.index, contested := 0, what := what }, k + 1)) (s, 1)).1

/-- vlds (R287). -/
def vldsOp (u : SlotM) (f : FieldM) : SlotOp := spadLoad u f 0x09 (spadDense u f)
/-- vlds (R287). -/
def execVlds (u : SlotM) (f : FieldM) (s : State) : Host.Outcome State Fault Refusal := .next (issueOps [vldsOp u f] s)
/-- vsts (R287). -/
def vstsOp (u : SlotM) (f : FieldM) : SlotOp := spadStore u f 0x0A (spadDense u f)
/-- vsts (R287). -/
def execVsts (u : SlotM) (f : FieldM) (s : State) : Host.Outcome State Fault Refusal := .next (issueOps [vstsOp u f] s)
/-- vgats (R287). -/
def vgatsOp (u : SlotM) (f : FieldM) : SlotOp := spadLoad u f 0x0B (spadIndexed u f)
/-- vgats (R287). -/
def execVgats (u : SlotM) (f : FieldM) (s : State) : Host.Outcome State Fault Refusal := .next (issueOps [vgatsOp u f] s)
/-- vscts (R287). -/
def vsctsOp (u : SlotM) (f : FieldM) : SlotOp := spadStore u f 0x0C (spadIndexed u f)
/-- vscts (R287). -/
def execVscts (u : SlotM) (f : FieldM) (s : State) : Host.Outcome State Fault Refusal := .next (issueOps [vsctsOp u f] s)

/-! ## Atomics (R303 to R306) -/

/-- What an amo does at its place: it ends the shelter of a phase, takes a DLQ entry and joins the queue (R304, R377). -/
def issueAmo (u : SlotM) (f : FieldM) (e : Env) (s : State) (va : W64) (p : Place) : State :=
  let b := opbM u f e s
  let new := dataM u f e s
  let s := s.updCtx e.k Ctx.expose
  let id := (s.ctx e.k).nextAccess
  (s.takeEntry e.k).enqueue e.k (.amo id (f.aux.toNat % 32) new) (sizeM f) f.sc.toNat (ordM f)
    [{ va := va, place := p, row := 0, lane := 0, data := b }]

/-- amo (R304). -/
def amoOp (u : SlotM) (f : FieldM) : SlotOp :=
  if f.aux.getLsbD 5 then
    spadScalar u f 0x10 false true true (opaM u f) (fun _ _ => []) fun e s va key =>
      issueAmo u f e (s.settleRows e.k e.t [key] (sizeM f)) va { key := key, nc := false }
  else
    globalScalar u f 0x10 false true true (opaM u f)
      (fun e s va => s.atomicCheck e.k .update (sizeM f) true (f.aux.toNat % 32) va) (issueAmo u f)
/-- amo (R304). -/
def execAmo (u : SlotM) (f : FieldM) (s : State) : Host.Outcome State Fault Refusal := .next (issueOps [amoOp u f] s)

/-- What a red does at its place (R305, R378). -/
def issueRed (u : SlotM) (f : FieldM) (e : Env) (s : State) (va : W64) (p : Place) : State :=
  s.enqueueRed e.k (.red (f.aux.toNat % 32)) (sizeM f) f.sc.toNat (ordM f)
    [{ va := va, place := p, row := 0, lane := 0, data := opbM u f e s }]

/-- red (R305). -/
def redOp (u : SlotM) (f : FieldM) : SlotOp :=
  if f.aux.getLsbD 5 then
    let o := spadScalar u f 0x12 false false true (opaM u f) (fun _ _ => []) fun e s va key =>
      issueRed u f e (s.settleRows e.k e.t [key] (sizeM f)) va { key := key, nc := false }
    { o with hold := fun e s =>
        match o.hold e s with
        | some h => some h
        | none => if 32 ≤ (s.ctx e.k).storeQueue then some .gap else none }
  else
    globalScalar u f 0x12 true false true (opaM u f)
      (fun e s va => s.atomicCheck e.k .store (sizeM f) false (f.aux.toNat % 32) va) (issueRed u f)
/-- red (R305). -/
def execRed (u : SlotM) (f : FieldM) (s : State) : Host.Outcome State Fault Refusal := .next (issueOps [redOp u f] s)

/-- The operation of a vector atomic, as a scalar operation code (R303 Table 5). -/
def vopM (f : FieldM) : Nat := vopCode (f.aux.toNat / 16 % 4)
/-- The elements of a vector atomic (R306): global indices are sign-extended, scratchpad ones zero-extended. -/
def vatomicRows (u : SlotM) (f : FieldM) (e : Env) (s : State) : List (List LaneAddr) :=
  indexedAddrs (laneMask s e u.index f.ks) (opaM u f e s) 4 (f.sc = 1) 0 15 (indexRowsM u f e s)
/-- The elements of a scratchpad vector atomic at their places. -/
def spadElements (u : SlotM) (f : FieldM) (e : Env) (s : State) : List Element :=
  (vatomicRows u f e s).flatten.map fun x =>
    { va := x.va, place := { key := spadKey s e.k 4 x.va, nc := false }, row := x.row, lane := x.lane
      data := zext32 (laneOf (dataRowM u f e s x.row) x.lane) }

/-- The rows of lower slots of the bundle that the elements of a scratchpad vector atomic touch performed (R282). -/
def settleElements (e : Env) (xs : List Element) (s : State) : State :=
  s.settleRows e.k e.t (xs.map fun x => x.place.key) 4

/-- vamo (R306). -/
def vamoOp (u : SlotM) (f : FieldM) : SlotOp :=
  let act (e : Env) (s : State) (xs : List Element) : State :=
    (s.updCtx e.k Ctx.expose).enqueue e.k (.vamo (f.dst.toNat % 16) (!f.ws) (vopM f) (f.aux.toNat % 16)) 4 f.sc.toNat
      (ordM f) xs
  if f.sc = 1 then
    spadVector u f 0x11 4 16 false true (vatomicRows u f) (fun _ _ => []) fun e s =>
      act e (settleElements e (spadElements u f e s) s) (spadElements u f e s)
  else
    globalVector u f 0x11 4 false false true (vatomicRows u f)
      (fun e s va => s.atomicCheck e.k .update 4 true (vopM f) va) (dataRowM u f) act
/-- vamo (R306). -/
def execVamo (u : SlotM) (f : FieldM) (s : State) : Host.Outcome State Fault Refusal := .next (issueOps [vamoOp u f] s)

/-- vred (R306). -/
def vredOp (u : SlotM) (f : FieldM) : SlotOp :=
  let act (e : Env) (s : State) (xs : List Element) : State :=
    s.enqueueRed e.k (.vred (vopM f) (f.aux.toNat % 16)) 4 f.sc.toNat (ordM f) xs
  if f.sc = 1 then
    let o := spadVector u f 0x13 4 16 false true (vatomicRows u f) (fun _ _ => []) fun e s =>
      act e (settleElements e (spadElements u f e s) s) (spadElements u f e s)
    { o with hold := fun e s =>
        match o.hold e s with
        | some h => some h
        | none => if 32 ≤ (s.ctx e.k).storeQueue then some .gap else none }
  else
    globalVector u f 0x13 4 false true true (vatomicRows u f)
      (fun e s va => s.atomicCheck e.k .store 4 false (vopM f) va) (dataRowM u f) act
/-- vred (R306). -/
def execVred (u : SlotM) (f : FieldM) (s : State) : Host.Outcome State Fault Refusal := .next (issueOps [vredOp u f] s)

/-! ## fence, pref, waita, cacheop (R310, R288 to R290) -/

/-- Whether a fence of an ordering, in a bundle of cycle t, still waits: for queued stores, or for loads on their way, of earlier
bundles (R310). Accesses of lower slots of its own bundle are performed with it. -/
def fenceWaits (ord t : Nat) (c : Ctx) : Bool :=
  let store (a : Access) : Bool := match a.kind with
    | .store => true | .red _ => true | .vred _ _ => true | .vstore _ => true | _ => false
  let earlier := c.accesses.filter fun a => decide (a.issued < t)
  let own (d : DlqEntry) : Bool := c.accesses.any fun a => a.id = d.id && decide (t ≤ a.issued)
  (decide (2 ≤ ord) && earlier.any store)
    || (decide (ord ≠ 2) && (earlier.any (fun a => !store a) || c.dlq.any fun d => d.fate = .waiting && !own d))

/-- fence (R310). -/
def fenceOp (u : SlotM) (f : FieldM) : SlotOp :=
  let far := decide (3 ≤ f.sc.toNat)
  { slot := u.index, uf := 0x18, pf := f.pf, pn := f.pn
    hold := fun e s => if far && fenceWaits (ordM f) e.t (s.ctx e.k) then some .gap else none
    endsOverrun := fun _ _ => far
    effect := fun e s =>
      let s := if far then s.flush e.k else s
      if far && decide (ordM f ≠ 2) then s.acquire e.k else s }
/-- fence (R310). -/
def execFence (u : SlotM) (f : FieldM) (s : State) : Host.Outcome State Fault Refusal := .next (issueOps [fenceOp u f] s)

/-- A page walked and, where its walk ends in a leaf, installed in the TLBs (R278). -/
def State.walkPage (s : State) (k page : Nat) : State :=
  let region := s.regionOf k
  let found := s.walk (s.ptbase region) (page * 4096)
  let (lts, s) := s.stampWalk (s.ctx k).lts (s.ptbase region) (page * 4096)
  let s := s.updCtx k fun c => { c with lts := lts }
  match found with
  | .leaf pte size =>
    s.tlbInstall (clusterOf k)
      { vpn := page * 4096 / 2 ^ size, size := size, asid := s.asidOf region, pte := BitVec.ofNat 64 pte }
  | .fault _ unreadable => if unreadable then s.count (ctrUncorrectable (dieOf (clusterOf k) % 8) 0) 1 else s

/-- pref (R288): a TLB miss starts a walk; nothing else is visible. -/
def prefOp (u : SlotM) (f : FieldM) : SlotOp :=
  { slot := u.index, uf := 0x19, pf := f.pf, pn := f.pn
    effect := fun e s =>
      let va := sumAddr u f e s
      match s.globalCheck e.k .load 1 va with
      | .walk => s.walkPage e.k (va.toNat / 4096)
      | _ => s }
/-- pref (R288). -/
def execPref (u : SlotM) (f : FieldM) (s : State) : Host.Outcome State Fault Refusal := .next (issueOps [prefOp u f] s)

/-- A watch armed in place of one with the same flag, and read (R289): the read merges the partials of its line (R309). -/
def State.armWatch (s : State) (k : Nat) (w : Watch) : State :=
  let s := s.mergeLine (lineOf w.place.key)
  s.updCtx k fun c => { c with
    watches := (c.watches.filter fun x => x.flag ≠ w.flag) ++ [{ w with hit := s.watchHolds w }] }

/-- waita (R289). -/
def waitaOp (u : SlotM) (f : FieldM) : SlotOp :=
  let size := sizeM f
  let flag := f.aux.toNat % 16
  let arm (e : Env) (s : State) (va : W64) (p : Place) : State :=
    let value := BitVec.ofNat 64 ((opbM u f e s).toNat % 2 ^ (8 * size))
    (if f.aux.getLsbD 5 then (s.flush e.k).settleRows e.k e.t [p.key] size else s.flush e.k).armWatch e.k
      { flag := flag, va := va, place := p, size := size, scope := f.sc.toNat, spad := f.aux.getLsbD 5
        eq := f.aux.getLsbD 4, value := value, hit := false }
  let o :=
    if f.aux.getLsbD 5 then
      spadScalar u f 0x1A false false true (opaM u f) (fun _ _ => []) fun e s va key => arm e s va { key := key, nc := false }
    else
      globalScalar u f 0x1A false false true (opaM u f) (fun e s va => s.globalCheck e.k .load size va) arm
  { o with trap := fun e s =>
      match o.trap e s with
      | some t => some t
      | none =>
        if 4 ≤ ((s.ctx e.k).watches.filter fun w => w.flag ≠ flag).length then
          some (slotTrap u.index .queueProtocol (BitVec.ofNat 64 (u.index + 2 ^ 8)))
        else none }
/-- waita (R289). -/
def execWaita (u : SlotM) (f : FieldM) (s : State) : Host.Outcome State Fault Refusal := .next (issueOps [waitaOp u f] s)

/-- The 64-byte or 128-byte lines that overlap [a, a + n) (R290). -/
def coverLines (size a n : Nat) : List Nat :=
  if n = 0 then [] else tabulate id ((a + n - 1) / size + 1 - a / size) (a / size)

/-- The place of a line for a cacheop, where its page is mapped and reachable in the context's state (R290). -/
def State.maintenancePlace (s : State) (k : Nat) (va : Nat) : Option Place :=
  let region := s.regionOf k
  let try_ (use : PageUse) : Option Place :=
    match s.translate (clusterOf k) (s.asidOf region) (s.ptbase region) use (!s.supervisor k) true va with
    | .place p => some p
    | _ => none
  if 2 ^ 57 ≤ va then none else try_ .load <|> try_ .store <|> try_ .fetch

/-- The instruction-cache lines of a range invalidated on every core, where they are mapped and reachable for the issuer, and the
loop buffers whose body overlaps them emptied (R290 iinv, R233). An invalidated line keeps its pins. -/
def State.dropCode (s : State) (k a n : Nat) : State :=
  let asid := s.asidOf (s.regionOf k)
  let lines := (coverLines 128 a n).filter fun l => (s.maintenancePlace k (l * 128)).isSome
  let drop (c : Core) : Core :=
    let hit (l : CodeLine) : Bool := l.asid = asid && lines.contains l.line
    { c with icache := (c.icache.filter fun l => !hit l || !l.pins.isEmpty).map fun l => if hit l then { l with valid := false } else l }
  let empty (c : Ctx) : Ctx :=
    match c.loopBuf with
    | some (start, _, stop) =>
      if (coverLines 128 start.toNat (stop - start).toNat).any lines.contains then { c with loopBuf := none } else c
    | none => c
  { s with
    cores := s.cores.map fun c => (c.1, drop c.2)
    ctxs := s.ctxs.map fun c => (c.1, if s.asidOf (s.regionOf c.1) = asid then empty c.2 else c.2) }

/-- cacheop (R290). -/
def cacheopOp (u : SlotM) (f : FieldM) : SlotOp :=
  let op := f.aux.toNat % 8
  { slot := u.index, uf := 0x24, pf := f.pf, pn := f.pn, privileged := decide (op ≠ 0)
    trap := fun e s =>
      let b := opbM u f e s
      if 2 ^ 32 ≤ b.toNat then some (slotTrap u.index .accessFault b) else none
    endsOverrun := fun _ _ => true
    effect := fun e s =>
      let a := opaM u f e s
      let b := opbM u f e s
      let s := s.flush e.k
      let s := if op = 3 then s.dropCode e.k a.toNat b.toNat else s
      s.updCtx e.k fun c => { c with maintenance := c.maintenance ++ [.cacheop op a b (f.aux.toNat / 8 % 8)] } }
/-- cacheop (R290). -/
def execCacheop (u : SlotM) (f : FieldM) (s : State) : Host.Outcome State Fault Refusal := .next (issueOps [cacheopOp u f] s)

end Sys2Proof.Machine
end

