-- ==== Sys2Proof/Machine/Queues.lean ====
section
/-! DEFINITION. The meanings of the queue instructions: popq (R323), the named queues (R324 to R326) and the conditional
streams (R327 to R329). -/

namespace Sys2Proof.Machine

/-- TVAL of a local number at or above its declared count (R18): kind 0 barrier, 1 named queue, 2 latch, 3 stream. -/
def localTval (kind n : Nat) : W64 := BitVec.ofNat 64 (n % 32 + 7 * 32 + kind * 256)
/-- TVAL of QUEUE_PROTOCOL with one case bit and a number (R330). -/
def queueTval (slot bit n : Nat) : W64 := BitVec.ofNat 64 (slot + 2 ^ bit + n * 2 ^ 16)

/-- The queue or stream number: a[3:0] (R325). -/
def queueNumber (u : SlotM) (f : FieldM) (e : Env) (s : State) : Nat := (opaM u f e s).toNat % 16
/-- Whether local bank j of a context's group is in FIFO mode. -/
def State.fifoBank (s : State) (k j : Nat) : Bool :=
  match s.groupOf k with
  | some g => match g.banks[j]? with | some b => s.bankMode (clusterOf k) b = .fifo | none => false
  | none => false
/-- The group number of a context; 0 where it has none. -/
def State.gid (s : State) (k : Nat) : Nat := ((s.ctx k).group).getD 0

/-! ## popq (R323) -/

/-- popq (R323). -/
def popqOp (u : SlotM) (f : FieldM) : SlotOp :=
  { slot := u.index, uf := 0x14, pf := f.pf, pn := f.pn
    writes := scalarWritesM f 1
    block := fun e s => match (s.ctx e.k).dlq with
      | d :: _ => if d.fate = .waiting then some (.dlqHead d.id, id) else none
      | [] => none
    trap := fun e s => match (s.ctx e.k).dlq with
      | [] => some (slotTrap u.index .queueProtocol (queueTval u.index 11 0))
      | d :: _ =>
        match d.fate with
        | .poisoned => some (slotTrap u.index .poison d.value)
        | .lost => some (slotTrap u.index .poolRegionLost d.value)
        | _ => none
    effect := fun e s => match (s.ctx e.k).dlq with
      | d :: rest => putScalarM u f 1 d.value e (s.updCtx e.k fun c => { c with dlq := rest })
      | [] => s }
/-- popq (R323). -/
def execPopq (u : SlotM) (f : FieldM) (s : State) : Host.Outcome State Fault Refusal := .next (issueOps [popqOp u f] s)

/-! ## qpush, qpop (R324 to R326) -/

/-- The issue checks of a named-queue operation (R325). -/
def queueCheck (slot n k : Nat) (s : State) : Option Trap :=
  match s.groupOf k with
  | none => some (slotTrap slot .accessFault (localTval 1 n))
  | some g =>
    if g.decl.queues ≤ n then some (slotTrap slot .accessFault (localTval 1 n))
    else if s.fifoBank k g.decl.b then none
    else some (slotTrap slot .queueProtocol (queueTval slot 12 n))
/-- A named queue of a context's group. -/
def State.namedQueue (s : State) (k n : Nat) : NamedQueue :=
  ((s.groupOf k).bind fun g => g.queues[n]?).getD NamedQueue.fresh
/-- A named queue changed. -/
def State.updQueue (s : State) (k n : Nat) (f : NamedQueue → NamedQueue) : State :=
  s.updGroup (s.gid k) fun g => { g with queues := setPlace g.queues n (f (g.queues.getD n NamedQueue.fresh)) }

/-- Bytes that a context writes to a local bank of its group (R268 Table 2, R324, R327). -/
def State.noteLocal (s : State) (k j : Nat) (bs : List Byte) : State :=
  match (s.groupOf k).bind fun g => g.banks[j]? with
  | some b => s.noteBank (clusterOf k) b bs
  | none => s
/-- The contexts of a group that are blocked for a cause become READY (R326, R328, R329). -/
def State.wakeBlocked (s : State) (k : Nat) (b : BlockCause) : State :=
  match s.groupOf k with
  | none => s
  | some g => g.keys.foldl (fun s j => if (s.ctx j).block = some b && (s.ctx j).drain = .none then s.makeReady j else s) s

/-- The wait of a queue or stream event that replay holds (R421). -/
def replayBlock (k kind n : Nat) (s : State) : Option (BlockCause × (State → State)) :=
  if s.replayHolds k kind n 0 0 then some (.replayTurn kind n, id) else none

/-- A queue or stream operation follows every access that its context made before it: it waits while a replay holds one of them
(R326, R421; DEDUCED, notes/assumptions/55.md). -/
def queueHold (e : Env) (s : State) : Option Hold := if s.heldBefore e.k e.t then some .gap else none

/-- qpush (R326). -/
def qpushOp (u : SlotM) (f : FieldM) : SlotOp :=
  { slot := u.index, uf := 0x1C, pf := f.pf, pn := f.pn
    check := fun e s => queueCheck u.index (queueNumber u f e s) e.k s
    block := fun e s =>
      let n := queueNumber u f e s
      if (s.namedQueue e.k n).allowance.getD (s.ctx e.k).pos 0 = 0 then some (.queueFull n, id)
      else replayBlock e.k 2 n s
    hold := queueHold
    endsOverrun := fun _ _ => true
    effect := fun e s =>
      let n := queueNumber u f e s
      let data := dataM u f e s
      let s := (s.updCtx e.k Ctx.expose).flush e.k
      let c := s.ctx e.k
      let q := s.namedQueue e.k n
      let entry : QueueEntry := { value := data, producer := c.pos, notify := f.aux.toNat % 16, lts := c.lts }
      let s := s.updQueue e.k n fun q =>
        { q with entries := q.entries ++ [entry], allowance := setPlace q.allowance c.pos (q.allowance.getD c.pos 0 - 1) }
      let s := (s.noteLocal e.k (((s.groupOf e.k).map fun g => g.decl.b).getD 0) (toBytes 8 data.toNat)).wakeBlocked e.k (.queueEmpty n)
      (s.updCtx e.k fun c => { c with lts := laterOf c.lts (q.returned.getD c.pos 0) }).logEvent e.k 2 n 0 0 }
/-- qpush (R326). -/
def execQpush (u : SlotM) (f : FieldM) (s : State) : Host.Outcome State Fault Refusal := .next (issueOps [qpushOp u f] s)

/-- What taking an entry does beside the value (R326): LTS joins, an allowance returns to the producer, which becomes READY where it
waits for one, and the notify flag of the producer's context is set as an event at t + 4. -/
def takeQueueEntry (e : Env) (n : Nat) (x : QueueEntry) (s : State) : State :=
  let s := s.updCtx e.k fun c => { c with lts := laterOf c.lts x.lts }
  let lts := (s.ctx e.k).lts
  let s := s.updQueue e.k n fun q =>
    { entries := q.entries.tail
      allowance := setPlace q.allowance x.producer (q.allowance.getD x.producer 0 + 1)
      returned := setPlace q.returned x.producer lts }
  match (s.groupOf e.k).bind fun g => g.keys[x.producer]? with
    | none => s
    | some j =>
      let s := if (s.ctx j).block = some (.queueFull n) && (s.ctx j).drain = .none then s.makeReady j else s
      if x.notify = 0 then s
      else s.addPending e.k { due := e.t + 4, issued := e.t, slot := 15, contested := 0, what := .notify j x.notify }

/-- qpop (R326). -/
def qpopOp (u : SlotM) (f : FieldM) : SlotOp :=
  { slot := u.index, uf := 0x1D, pf := f.pf, pn := f.pn
    writes := scalarWritesM f 4
    check := fun e s => queueCheck u.index (queueNumber u f e s) e.k s
    block := fun e s =>
      let n := queueNumber u f e s
      if (s.namedQueue e.k n).entries.isEmpty then some (.queueEmpty n, id)
      else replayBlock e.k 3 n s
    hold := queueHold
    endsOverrun := fun _ _ => true
    effect := fun e s =>
      let n := queueNumber u f e s
      match (s.namedQueue e.k n).entries with
      | x :: _ => (putScalarM u f 4 x.value e (takeQueueEntry e n x ((s.updCtx e.k Ctx.expose).flush e.k))).logEvent e.k 3 n 0 0
      | [] => s }
/-- qpop (R326). -/
def execQpop (u : SlotM) (f : FieldM) (s : State) : Host.Outcome State Fault Refusal := .next (issueOps [qpopOp u f] s)

/-! ## cspush, cspop (R327 to R329) -/

/-- A conditional stream of a context's group. -/
def State.stream (s : State) (k n : Nat) : Stream := ((s.groupOf k).bind fun g => g.streams[n]?).getD Stream.fresh
/-- A conditional stream changed. -/
def State.updStream (s : State) (k n : Nat) (f : Stream → Stream) : State :=
  s.updGroup (s.gid k) fun g => { g with streams := setPlace g.streams n (f (g.streams.getD n Stream.fresh)) }
/-- The issue checks of a stream operation of RN (R325, R328, R329). -/
def streamCheck (slot n rn k : Nat) (s : State) : Option Trap :=
  match s.groupOf k with
  | none => some (slotTrap slot .accessFault (localTval 3 n))
  | some g =>
    if g.decl.q ≤ n then some (slotTrap slot .accessFault (localTval 3 n))
    else if !s.fifoBank k (g.decl.b + n) then some (slotTrap slot .queueProtocol (queueTval slot 12 n))
    else
      match (s.stream k n).length with
      | some l => if l = rn + 1 then none else some (slotTrap slot .queueProtocol (queueTval slot 13 n))
      | none => none
/-- The records a stream may hold (R327). -/
def State.streamCapacity (s : State) (k n rn : Nat) : Nat :=
  let queues := ((s.groupOf k).map fun g => g.decl.queues).getD 0
  (if n = 0 && decide (queues ≠ 0) then 384 * 1024 else 512 * 1024) / (4 * (rn + 1))
/-- The number of records of a stream. -/
def Stream.count (q : Stream) : Nat := (q.items.filter fun x => match x with | .record _ _ => true | .mark => false).length
/-- The records free in a stream for a window. -/
def State.streamRoom (s : State) (k n rn : Nat) : Nat := s.streamCapacity k n rn - (s.stream k n).count
/-- The lanes of a cspush. -/
def pushLanes (u : SlotM) (f : FieldM) (e : Env) (s : State) : List Nat :=
  (List.range 64).filter fun c => (laneMask s e u.index f.ks).getLsbD c

/-- cspush (R328). -/
def cspushOp (u : SlotM) (f : FieldM) : SlotOp :=
  { slot := u.index, uf := 0x20, pf := f.pf, pn := f.pn, occ := rnM f + 1
    check := fun e s => streamCheck u.index (queueNumber u f e s) (rnM f) e.k s
    block := fun e s =>
      let n := queueNumber u f e s
      let need := (pushLanes u f e s).length
      if need ≠ 0 && decide (s.streamRoom e.k n (rnM f) < need) then some (.streamFull n, id)
      else if need ≠ 0 || (opaM u f e s).getLsbD 4 then replayBlock e.k 4 n s
      else none
    hold := queueHold
    endsOverrun := fun _ _ => true
    effect := fun e s =>
      let n := queueNumber u f e s
      let lanes := pushLanes u f e s
      let close := (opaM u f e s).getLsbD 4
      if lanes.isEmpty && !close then s
      else
        let rows := tabulate (dataRowM u f e s) (rnM f + 1) (rbM f)
        let s := (s.updCtx e.k Ctx.expose).flush e.k
        let lts := (s.ctx e.k).lts
        let records := lanes.map fun c => StreamItem.record (rows.map fun r => laneOf r c) lts
        let s := s.updStream e.k n fun q =>
          { items := q.items ++ records ++ (if close then [.mark] else [])
            length := if lanes.isEmpty then q.length else some (rnM f + 1) }
        let bytes := (lanes.map fun c => (rows.map fun r => toBytes 4 (laneOf r c).toNat).flatten).flatten
        let s := s.noteLocal e.k (((s.groupOf e.k).map fun g => g.decl.b).getD 0 + n) bytes
        (s.wakeBlocked e.k (.streamShort n)).logEvent e.k 4 n 0 0 }
/-- cspush (R328). -/
def execCspush (u : SlotM) (f : FieldM) (s : State) : Host.Outcome State Fault Refusal := .next (issueOps [cspushOp u f] s)

/-- The batch that a cspop takes (R329): its records with their LTS, whether it takes the mark after them, and the items that
stay; none where it must wait. -/
def streamBatch (q : Stream) : Option (List (List W32 × W64) × Bool × List StreamItem) :=
  let rec records : List StreamItem → List (List W32 × W64)
    | .record w l :: rest => (w, l) :: records rest
    | _ => []
  let rs := records q.items
  if 64 ≤ rs.length then some (rs.take 64, false, q.items.drop 64)
  else if rs.length < q.items.length then some (rs, true, q.items.drop (rs.length + 1))
  else none

/-- cspop (R329). -/
def cspopOp (u : SlotM) (f : FieldM) : SlotOp :=
  { slot := u.index, uf := 0x21, pf := f.pf, pn := f.pn, occ := rnM f + 1
    writes := fun e s => rowWritesM f e s ++ writesOf (e.t + 9 + rnM f) (.kmask f.ks.toNat 0 0)
    check := fun e s => streamCheck u.index (queueNumber u f e s) (rnM f) e.k s
    block := fun e s =>
      let n := queueNumber u f e s
      if (streamBatch (s.stream e.k n)).isNone then some (.streamShort n, id)
      else replayBlock e.k 5 n s
    hold := queueHold
    endsOverrun := fun _ _ => true
    effect := fun e s =>
      let n := queueNumber u f e s
      match streamBatch (s.stream e.k n) with
      | none => s
      | some (batch, mark, rest) =>
        let s := (s.updCtx e.k Ctx.expose).flush e.k
        let s := s.updCtx e.k fun c => { c with lts := batch.foldl (fun t x => laterOf t x.2) c.lts }
        let s := s.updStream e.k n fun q =>
          let left : Stream := { q with items := rest }
          if mark && left.count = 0 then { left with length := none } else left
        let s := if batch.isEmpty then s else s.wakeBlocked e.k (.streamFull n)
        let s := (List.range (rnM f + 1)).foldl (fun s j =>
          let row : Row := Vector.ofFn fun c => ((batch[c.val]?).map fun x => x.1.getD j 0).getD 0
          putRow e.k u.index e.t (8 + j) (rbM f + j) (f.dst.toNat % 16) f.ws 0 row (BitVec.allOnes 64) row 0 s) s
        (s.logEvent e.k 5 n 0 0).addPending e.k
          { due := e.t + 9 + rnM f, issued := e.t, slot := u.index, contested := 0
            what := .kmask f.ks.toNat (BitVec.allOnes 64) (BitVec.ofNat 64 (2 ^ batch.length - 1)) } }
/-- cspop (R329). -/
def execCspop (u : SlotM) (f : FieldM) (s : State) : Host.Outcome State Fault Refusal := .next (issueOps [cspopOp u f] s)

end Sys2Proof.Machine
end

