-- ==== Sys2Proof/Machine/Phase.lean ====
section
/-! DEFINITION. Checkpoints (R254), buffer phases (R246 to R249, R377 to R381), barriers and their overrun (R311 to R321): the
instructions phbeg, phsw and bar, and the events PHASE_CANCEL and OVERRUN_ROLLBACK. -/

namespace Sys2Proof.Machine

/-! ## C-class operands (R235) -/

/-- OPA of a C-class operation. -/
def opaC (f : FieldC) (e : Env) (s : State) : W64 := scalarOperand s e 8 0 f.opa
/-- A scalar register read as the DST of a C-class operation names it. -/
def regC (f : FieldC) (place off : Nat) (e : Env) (s : State) : W64 := s.readS e.k e.t (8 * 4 + place) (f.dst.toNat + off)
/-- A C-class operation without a meaning yet given: its slot, unit function and predicate. -/
def plainC (uf : Nat) (f : FieldC) : SlotOp := { slot := 8, uf := uf, pf := f.pf, pn := f.pn }
/-- A write of a context put in flight by slot CT, readable at due. -/
def putC (due : Nat) (w : Landing) (e : Env) (s : State) : State :=
  s.addPending e.k { due := due, issued := e.t, slot := 8, contested := 0, what := w }

/-! ## Checkpoints (R254, R256) -/

/-- The checkpointed CSRs: those of 0x000 to 0x0FF that are not read-only, but for PMC0 to PMC15, whose counts run on (R411). -/
def checkpointCsrs : List Nat :=
  [0x001, 0x002, 0x003, 0x004] ++ tabulate id 16 0x020 ++ tabulate id 32 0x040 ++ [0x060] ++ tabulate id 64 0x090 ++ [0x0D0]

/-- The checkpointed state of a context, with the DLQ as it stood before the bundle. -/
def State.snapshot (s : State) (e : Env) : Snapshot :=
  let c := s.ctx e.k
  { taken := e.t, pc := e.pc, s := c.s, fl := c.fl, v := c.v, k := c.k
    csrs := checkpointCsrs.map fun n => (n, s.csrRead e.k n)
    dlq := e.dlq.map fun d => (c.dlq.find? fun x => x.id = d.id).getD d
    fpPending := c.fpPending }

/-- A context with its checkpointed state restored. A pending FP_TRAP is no part of it (R256 Table 9, R380). -/
def Ctx.restore (c : Ctx) (x : Snapshot) : Ctx :=
  let c := { c with pc := x.pc, s := x.s, fl := x.fl, v := x.v, k := x.k, dlq := x.dlq }
  x.csrs.foldl (fun c p => c.csrWrite p.1 p.2) c

/-- The lowest-numbered free checkpoint bank of a core. -/
def State.freeBank (s : State) (core : Nat) : Option Nat :=
  (findPlace (fun b : CheckpointBank => b.owner.isNone) (s.core core).banks 0).map Prod.fst
/-- The lowest-numbered checkpoint bank that a bar bundle of this cycle may take: a bank freed by a rollback or a commit is free to those
of the cycle after (R445). -/
def State.barBank (s : State) (core : Nat) : Option Nat :=
  (findPlace (fun b : CheckpointBank => b.owner.isNone && decide (b.freed ≤ s.clk)) (s.core core).banks 0).map Prod.fst
/-- A checkpoint bank taken by a context. -/
def State.takeBank (s : State) (k b : Nat) (x : Snapshot) : State :=
  s.updBank (coreOf k) b fun _ => { CheckpointBank.empty with owner := some k, snapshot := x }
/-- A checkpoint bank freed. -/
def State.dropBank (s : State) (k : Nat) (b : Option Nat) : State :=
  match b with
  | some b => s.updBank (coreOf k) b fun _ => { CheckpointBank.empty with freed := s.clk + 1 }
  | none => s

/-- A context stopped where its work has drained: the latches read zero, and if it was the running one another context is
chosen (R249, R317). -/
def State.standBlocked (s : State) (k : Nat) (b : BlockCause) : State :=
  let core := coreOf k
  let s := if (s.core core).running = some k then s.switchOut core (s.core core).lt else s
  s.updCtx k fun c => { c with phase := .blocked, block := some b, drain := .none, restored := none }

/-- A context rolled back, where it stood HALTED: it stays HALTED, with latches that read zero after its release (R249, R317). -/
def State.keepHalted (s : State) (k : Nat) (halted : Bool) : State :=
  if halted then s.updCtx k fun c => { c with phase := .halted, block := none, shadow := Latches.zero } else s

/-! ## Buffer phases -/

/-- An engine command of a context at its issue, before its fields are known. -/
def State.commandOf (s : State) (k : Nat) : EngineCmd :=
  let c := s.ctx k
  { copy := false, uf := 0, group := c.group, pos := c.pos, cluster := clusterOf k, core := coreOf k, region := s.regionOf k
    command := ((s.groupOf k).map Group.command).getD 0, td := 0, ta := 0, sl := 0, aux := 0, flag := 0, operand := 0
    members := [], rows := [], queued := true, started := false, position := 0, origin := 0
    forked := (s.core (coreOf k)).lt, lts := c.lts
    asid := s.asidOf (s.regionOf k), user := !s.supervisor k, desc := none, resumed := false, cancel := false, refetch := false
    phase := c.phaseRec.map PhaseRecord.opened, packet := false, entries := [] }

/-- The number that an engine command entered from a core now takes: commands stand in the order of their cycles, those of one
cycle in ascending core number (R185, R212, R332). -/
def State.engineNumber (s : State) (core : Nat) : Nat := (s.clk * 2 ^ 11 + core) * 2 ^ 64 + s.nextEngine

/-- Whether a command takes an entry of its core's queue (R331 Table 6): what a slot has issued does; a COPY packet's copy and a
phase's refetch have no slot that issued them (DEDUCED, notes/assumptions/29.md). -/
def EngineCmd.takesEntry (c : EngineCmd) : Bool := !c.packet && !c.refetch

/-- An engine command put in the queue of its core under a number (R212, R331). -/
def State.pushAs (s : State) (n : Nat) (x : EngineCmd) : State :=
  let s := { s with engine := mapSet s.engine n x }
  if !x.takesEntry then s
  else
    s.updCore x.core fun c =>
      if x.copy then { c with copyQueue := c.copyQueue ++ [n] } else { c with canopyQueue := c.canopyQueue ++ [n] }

/-- An engine command put in the queue of its core (R212, R331). What is resumed after a pre-emption comes before what its cycle issues,
in the order in which it was issued (R185, R215). -/
def State.pushEngine (s : State) (x : EngineCmd) : State :=
  { s with nextEngine := s.nextEngine + 1 }.pushAs (s.engineNumber (if x.resumed then 0 else x.core)) x

/-- The open phase of a context commits (R248): its held reductions are released, its checkpoint is discarded. -/
def State.commitPhase (s : State) (k : Nat) : State :=
  match (s.ctx k).phaseRec with
  | none => s
  | some p =>
    let s := s.dropBank k p.bank
    (s.updCtx k fun c => { c with
      accesses := c.accesses ++ (if p.exposed then [] else p.held), phaseRec := none, cancels := 0 }).event k 0x17 1

/-- A phase opens with a checkpoint bank, or exposed without one (R246). -/
def State.openPhase (s : State) (e : Env) (bank : Option Nat) (desc base length : W64) : State :=
  let s := s.flush e.k
  let x := s.snapshot e
  let s := match bank with | some b => s.takeBank e.k b x | none => s
  let p : PhaseRecord :=
    { desc := desc, base := base, length := length, opening := e.pc, bank := bank, exposed := bank.isNone, held := []
      opened := s.clk }
  s.updCtx e.k fun c => { c with phaseRec := some p }

/-- Whether the phase of a context is being cancelled. -/
def Ctx.cancelling (c : Ctx) : Bool := match c.drain with | .cancel _ _ => true | _ => false

/-- A phase that is open commits, and a new one opens with the same bank unless a is 0 (R248). -/
def State.swapPhase (s : State) (e : Env) (a base length : W64) : State :=
  match (s.ctx e.k).phaseRec with
  | none => s
  | some p => if a = 0 then s.commitPhase e.k else (s.commitPhase e.k).openPhase e p.bank a base length

/-- phbeg and phsw (R246, R248): a phbeg while a phase is open acts as phsw, a phsw with none open acts as phbeg unless a is
0. The slots of a bundle that commits a phase act inside that phase, slot EN too: it commits once they have acted, unless one of them
has failed and cancels it (R379, R457). -/
def phaseOp (uf : Nat) (swap : Bool) (f : FieldC) : SlotOp :=
  { plainC uf f with
    hold := fun e _ => if e.busy then some .gap else none
    endsOverrun := fun _ _ => true
    effect := fun e s =>
      let a := opaC f e s
      if e.inPhase || (swap && decide (a = 0)) then s
      else s.openPhase e (s.freeBank e.core) a (regC f 1 0 e s) (regC f 2 1 e s)
    after := fun e s =>
      if !e.inPhase || (s.ctx e.k).cancelling then s
      else s.swapPhase e (opaC f e s) (regC f 1 0 e s) (regC f 2 1 e s) }

/-- phbeg (R246). -/
def phbegOp (f : FieldC) : SlotOp := phaseOp 0x1A false f
/-- phbeg (R246). -/
def execPhbeg (f : FieldC) (s : State) : Host.Outcome State Fault Refusal := .next (issueOps [phbegOp f] s)
/-- phsw (R248). -/
def phswOp (f : FieldC) : SlotOp := phaseOp 0x1B true f
/-- phsw (R248). -/
def execPhsw (f : FieldC) (s : State) : Host.Outcome State Fault Refusal := .next (issueOps [phswOp f] s)

/-- The phase of a context that is not exposed is cancelled (R249): its reductions and DLQ are discarded, its checkpoint is
restored, the latches read zero, and it waits until the copy engine has fetched its input again. -/
def State.rollPhase (s : State) (k : Nat) (p : PhaseRecord) (b : Nat) : State :=
  let snap := ((s.core (coreOf k)).banks.getD b CheckpointBank.empty).snapshot
  let s := s.dropBank k p.bank
  let s := s.updCtx k fun c => { c.restore snap with phaseRec := none, cancels := c.cancels + 1, accesses := [] }
  let s := s.updCommand (((s.groupOf k).map Group.command).getD 0) fun x => { x with rerun := true }
  let halted := (s.ctx k).phase = .halted
  (((s.standBlocked k .refetch).keepHalted k halted).event k 0x18 1).count (ctrCancel (dieOf (clusterOf k) % 8)) 1

/-- The refetch of a cancelled phase's input joins the copy engine's queue (R249). -/
def State.refetchPhase (s : State) (k : Nat) (p : PhaseRecord) : State :=
  s.pushEngine { s.commandOf k with copy := true, uf := 0x10, operand := p.desc, refetch := true, phase := none }

/-- PHASE_CANCEL (R249, R381): once the work of a context whose phase is cancelled has drained, the phase rolls back; the
fifth cancellation in a row ends the group instead. (DEDUCED, notes/assumptions/45.md) (DEDUCED, notes/assumptions/61.md) -/
def phaseCancel (k : Nat) (s : State) : State :=
  match (s.ctx k).drain, (s.ctx k).phaseRec with
  | .cancel cause address, some p =>
    if !s.drained k || s.frozen k || ((s.groupOf k).bind Group.fault).isSome then s
    else
      let s := s.flush k
      match p.bank with
      | some b =>
        if 4 ≤ (s.ctx k).cancels then
          (s.faultGroup k cause 15 address ((s.ctx k).pc.zeroExtend 64)).count (ctrRerun (dieOf (clusterOf k) % 8)) 1
        else (s.rollPhase k p b).refetchPhase k p
      | none => s
  | _, _ => s
/-- PHASE_CANCEL. -/
def execEvPhaseCancel (k : Nat) (s : State) : Host.Outcome State Fault Refusal := .next (phaseCancel k s)

/-! ## Barriers and overrun -/

/-- A barrier of a context's group. -/
def State.barrier (s : State) (k b : Nat) : Barrier := ((s.groupOf k).bind fun g => g.barriers[b]?).getD Barrier.clear
/-- A barrier changed. -/
def State.updBarrier (s : State) (k b : Nat) (f : Barrier → Barrier) : State :=
  match (s.ctx k).group with
  | some g => s.updGroup g fun x => { x with barriers := setPlace x.barriers b (f (x.barriers.getD b Barrier.clear)) }
  | none => s

/-- The buffered stores of a commit in program order: insertion by order, oldest first (R319). -/
def insertStore (x : BufferedStore) : List BufferedStore → List BufferedStore
  | [] => [x]
  | y :: ys => if x.order < y.order then x :: y :: ys else y :: insertStore x ys

/-- The loads of an overrunner whose places in its program order lie from one place up to another take their places in S (R319). -/
def State.stampLoads (s : State) (k lo : Nat) (hi : Option Nat) (loads : List (Nat × Nat)) : State :=
  (loads.filter fun l => decide (lo ≤ l.1) && hi.all fun h => decide (l.1 < h)).foldl (fun s l =>
    let (lts, s) := s.stampLoad (s.ctx k).lts l.2
    s.updCtx k fun c => { c with lts := lts }) s

/-- A buffered store of a commit performed (R280, R319, R320). -/
def State.commitStore (s : State) (k : Nat) (x : BufferedStore) : State :=
  if x.spad then s.writeFor k true false x.order x.va x.key (toBytes x.size x.data.toNat)
  else s.storeElement k x.order x.size false
    { va := x.va, place := { key := x.key, nc := x.nc }, row := 0, lane := 0, data := x.data }

/-- The overrun of a context commits at a completion timestamp: its loads and buffered stores take their places in program order
from there on, and the failures held act (R319, R320). -/
def State.commitOverrun (s : State) (k : Nat) (tc : W64) (bank : CheckpointBank) : State :=
  match (s.ctx k).overrun with
  | some b =>
    let s := s.dropBank k (some b)
    let s := s.updCtx k fun c => { c with overrun := none, committing := none, barrierWait := none, lts := laterOf c.lts tc }
    let stores := bank.stores.foldl (fun l x => insertStore x l) []
    let (s, last) := stores.foldl (fun y x =>
      ((y.1.stampLoads k y.2 (some x.order) bank.loads).commitStore k x, x.order)) (s, 0)
    let s := s.stampLoads k last none bank.loads
    let s := bank.failures.foldl (fun s x => s.failAccess k x.1 x.2.1 x.2.2) s
    (s.event k 0x15 1).count (ctrCommit (coreOf k)) 1
  | none => s

/-- The read set of an overrunner that commits cleared: what commits beside it is no conflict (R316). -/
def State.clearReadSet (s : State) (k : Nat) : State :=
  match (s.ctx k).overrun with
  | some b => s.updBank (coreOf k) b fun c => { c with exact := [], filter := [] }
  | none => s

/-- A context waits at a barrier of this group: its wait record names the current generation. -/
def Ctx.waitsAt (c : Ctx) (b : Nat) (gen : BitVec 8) : Bool :=
  match c.barrierWait with | some w => w.barrier = b && w.generation = gen.toNat | none => false

/-- A context that a completed barrier has held becomes READY. -/
def State.passBarrier (s : State) (j b : Nat) : State :=
  match (s.ctx j).block with
  | some (.barrier b' _) => if b' = b && (s.ctx j).phase = .blocked && (s.ctx j).drain = .none then s.makeReady j else s
  | _ => s

/-- A barrier completes (R313): earlier arrivers take its timestamp and become READY; an overrunner commits at the end of the cycle,
unless a conflict is found until then (R447). -/
def State.completeBarrier (s : State) (k b : Nat) : State :=
  match s.groupOf k with
  | none => s
  | some g =>
    let bar := s.barrier k b
    let tc := bar.lts + 1
    let waiting := g.keys.filter fun j => (s.ctx j).waitsAt b bar.generation
    let s := s.updBarrier k b fun x => { count := 0, arrived := 0, generation := x.generation + 1, lts := 0 }
    let s := waiting.foldl (fun s j =>
      if (s.overrunBank j).isSome && (s.ctx j).drain ≠ .rollback then s.updCtx j fun c => { c with committing := some tc }
      else (s.updCtx j fun c => { c with lts := laterOf c.lts tc }).passBarrier j b) s
    s.updCtx k fun c => { c with lts := laterOf c.lts tc }

/-- The overrunners whose barrier has completed in this cycle and whose work meets no conflict. -/
def State.committers (s : State) : List (Nat × W64) :=
  s.ctxs.filterMap fun x =>
    if x.2.drain = .rollback then none else x.2.committing.map fun tc => (x.1, tc)

/-- The overruns that have met no conflict commit at the end of the cycle in which their barrier completed (R319, R447): what commits
beside another is no conflict of it. (DEDUCED, notes/assumptions/83.md) -/
def overrunCommits (s : State) : State :=
  let ks := s.committers
  let s := ks.foldl (fun s x => s.clearReadSet x.1) s
  ks.foldl (fun s x =>
    let b := ((s.ctx x.1).barrierWait.map BarrierWait.barrier).getD 0
    match s.overrunBank x.1 with
    | some bank => (s.commitOverrun x.1 x.2 bank).passBarrier x.1 b
    | none => s.updCtx x.1 fun c => { c with committing := none }) s

/-- An arrival at a barrier (R311, R313, R321): the phase is exposed, every earlier store has been performed, and the barrier
counts the context. -/
def State.arrive (s : State) (k b n : Nat) : State :=
  let s := (s.updCtx k Ctx.expose).flush k
  let c := s.ctx k
  s.updBarrier k b fun x => { x with count := n, arrived := x.arrived ||| ((1 : BitVec 16) <<< c.pos), lts := laterOf x.lts c.lts }

/-- The wait record of an arrival that is not the last. -/
def State.arriveWaiting (s : State) (k b n : Nat) : State :=
  let gen := (s.barrier k b).generation
  ((s.arrive k b n).updCtx k fun c => { c with barrierWait := some { barrier := b, generation := gen.toNat } }).logEvent k 1 b 0 0

/-- The completion flags of accesses performed before a checkpoint, marked as such: a rollback loses none of them
(R317; DEDUCED, notes/assumptions/44.md). -/
def Ctx.ownBefore (c : Ctx) : Ctx := { c with pending := c.pending.map fun p => if p.slot = 16 then { p with slot := 17 } else p }

/-- What the reissue of a bar bundle, or its first issue, finds. -/
inductive BarState where
  | passes | waits | fresh
deriving DecidableEq, Repr

/-- Where a context stands at a barrier (R313). -/
def State.barState (s : State) (k b : Nat) : BarState :=
  match (s.ctx k).barrierWait with
  | some w => if w.barrier ≠ b then .fresh else if w.generation = (s.barrier k b).generation.toNat then .waits else .passes
  | none => .fresh

/-- Whether stores and atomics of earlier bundles have yet to be performed that an arrival cannot have performed itself: rows of
scratchpad stores, and what a replay holds (R311, R421). -/
def rowsPending (e : Env) (s : State) : Bool :=
  ((s.ctx e.k).pending.any fun p => match p.what with | .spadRow _ _ => decide (p.issued < e.t) | _ => false)
    || s.heldBefore e.k e.t

/-- Whether an arrival would be the last. -/
def lastArrival (s : State) (k b n : Nat) : Bool := decide (popCount 16 (s.barrier k b).arrived.toNat + 1 = n)

/-- bar (R311, R313, R314). -/
def barOp (f : FieldC) : SlotOp :=
  let b := f.aux.toNat % 8
  let ovr := f.aux.getLsbD 3
  let count (e : Env) (s : State) : Nat := (opaC f e s).toNat
  let bad (n : Nat) : Trap := slotTrap 8 .queueProtocol (BitVec.ofNat 64 (8 + 2 ^ 10 + n % 32 * 2 ^ 16))
  { plainC 0x12 f with
    check := fun e s =>
      match s.groupOf e.k with
      | none => some (slotTrap 8 .accessFault (localTval 0 b))
      | some g =>
        if g.decl.barriers ≤ b then some (slotTrap 8 .accessFault (localTval 0 b))
        else if s.barState e.k b ≠ .fresh then none
        else
          let n := count e s
          let bar := s.barrier e.k b
          if n = 0 || decide (g.decl.n < n) || (bar.arrived ≠ 0 && bar.count ≠ n) then some (bad n) else none
    block := fun e s =>
      match s.barState e.k b with
      | .passes => none
      | .waits => some (.barrier b (s.barrier e.k b).generation.toNat, id)
      | .fresh =>
        if s.replayHolds e.k 1 b 0 0 then some (.replayTurn 1 b, id)
        else if rowsPending e s || lastArrival s e.k b (count e s) then none
        else some (.barrier b (s.barrier e.k b).generation.toNat, fun s => s.arriveWaiting e.k b (count e s))
    hold := fun e s => if s.barState e.k b = .fresh && rowsPending e s then some .gap else none
    endsOverrun := fun _ _ => true
    overrun := fun e s =>
      if ovr && s.barState e.k b = .fresh && (s.ctx e.k).overrun.isNone && !s.replayHolds e.k 1 b 0 0 then
        match s.barBank e.core with
        | some bank => some fun s =>
          let s := (s.arriveWaiting e.k b (count e s)).updCtx e.k Ctx.ownBefore
          ((s.takeBank e.k bank (s.snapshot e)).updCtx e.k fun c => { c with overrun := some bank }).event e.k 0x14 1
        | none => none
      else none
    effect := fun e s =>
      match s.barState e.k b with
      | .passes => s.updCtx e.k fun c => { c with barrierWait := none }
      | .waits => s
      | .fresh => ((s.arrive e.k b (count e s)).logEvent e.k 1 b 0 0).completeBarrier e.k b }
/-- bar (R311, R313, R314). -/
def execBar (f : FieldC) (s : State) : Host.Outcome State Fault Refusal := .next (issueOps [barOp f] s)

/-- OVERRUN_ROLLBACK (R317): once the work of an overrunner that a conflict has hit has drained, its checkpoint is restored and
it waits at its bar bundle with its arrival still counted. -/
def overrunRollback (k : Nat) (s : State) : State :=
  match (s.ctx k).drain, (s.ctx k).overrun with
  | .rollback, some b =>
    if !s.drained k || s.frozen k then s
    else
      let s := s.flush k
      let snap := ((s.core (coreOf k)).banks.getD b CheckpointBank.empty).snapshot
      let s := s.dropBank k (some b)
      let s := s.updCtx k fun c =>
        { c.restore snap with
          overrun := none, committing := none, accesses := [], fpPending := snap.fpPending
          pending := c.pending.filter fun p => p.slot = 15 || p.slot = 17 }
      let w := (s.ctx k).barrierWait.getD { barrier := 0, generation := 0 }
      let halted := (s.ctx k).phase = .halted
      let s := (s.standBlocked k (.barrier w.barrier w.generation)).keepHalted k halted
      (s.event k 0x16 1).count (ctrRollback (coreOf k)) 1
  | _, _ => s
/-- OVERRUN_ROLLBACK. -/
def execEvOverrunRollback (k : Nat) (s : State) : Host.Outcome State Fault Refusal := .next (overrunRollback k s)

end Sys2Proof.Machine
end

