-- ==== Sys2Proof/Machine/Control.lean ====
section
/-! DEFINITION. The meanings of the C class but for barriers, phases and CSRs: branches, calls and loops (R236, R237), fetch
control (R238), waits and switches (R239, R240), checks and traps (R241 to R243), ends and continuations (R244, R245),
dictionary residency (R251), tlbinv (R252), bankmode (R253), halt (R257). -/

namespace Sys2Proof.Machine

/-! ## Branches (R236) -/

/-- A target relative to the bundle's first byte. -/
def relative (e : Env) (a : W64) : BitVec 57 := e.pc + a.truncate 57

/-- A taken branch (R60): the bundle at target issues gap cycles after this one; two of three are fetch gaps. -/
def State.branchTo (s : State) (e : Env) (target : BitVec 57) (gap : Nat) : State :=
  let s := s.updCtx e.k fun c => { c with pc := target }
  s.updCore e.core fun c => { c with nextIssue := e.t + gap, gapUntil := if 1 < gap then e.t + gap else c.gapUntil }

/-- br (R236). -/
def brOp (f : FieldC) : SlotOp :=
  { plainC 0x01 f with effect := fun e s => s.branchTo e (relative e (opaC f e s)) 3 }
/-- br (R236). -/
def execBr (f : FieldC) (s : State) : Host.Outcome State Fault Refusal := .next (issueOps [brOp f] s)

/-- The flag that brf and brnf test, as they see it. -/
def branchFlag (f : FieldC) (e : Env) (s : State) : Bool := (s.readFlags e.k e.t 33).getLsbD (f.aux.toNat % 16)

/-- A branch on a flag (R236): taken where the flag differs from neg; CLR clears it at t + 2 where it is taken, so that bundles
see it cleared from t + 3 on (R55). -/
def flagBranch (uf : Nat) (neg : Bool) (f : FieldC) : SlotOp :=
  let flag := f.aux.toNat % 16
  let clr := f.aux.getLsbD 4
  let taken (e : Env) (s : State) : Bool := branchFlag f e s != neg
  { plainC uf f with
    writes := fun e s => if clr && taken e s then writesOf (e.t + 3) (.flags (flagMask flag) 0) else []
    effect := fun e s =>
      if taken e s then
        let s := s.branchTo e (relative e (opaC f e s)) 3
        if clr && decide (flag ≠ 0) then putC (e.t + 3) (.flags (flagMask flag) 0) e s else s
      else s }

/-- brf (R236). -/
def brfOp (f : FieldC) : SlotOp := flagBranch 0x02 false f
/-- brf (R236). -/
def execBrf (f : FieldC) (s : State) : Host.Outcome State Fault Refusal := .next (issueOps [brfOp f] s)
/-- brnf (R236). -/
def brnfOp (f : FieldC) : SlotOp := flagBranch 0x03 true f
/-- brnf (R236). -/
def execBrnf (f : FieldC) (s : State) : Host.Outcome State Fault Refusal := .next (issueOps [brnfOp f] s)

/-- jr (R236). -/
def jrOp (f : FieldC) : SlotOp :=
  { plainC 0x04 f with effect := fun e s => s.branchTo e ((opaC f e s).truncate 57) 3 }
/-- jr (R236). -/
def execJr (f : FieldC) (s : State) : Host.Outcome State Fault Refusal := .next (issueOps [jrOp f] s)

/-- call (R236): s31 takes the address of the next sequential bundle, readable at t + 3. -/
def callOp (f : FieldC) : SlotOp :=
  { plainC 0x05 f with
    writes := fun e _ => writesOf (e.t + 3) (.scalar 31 0)
    effect := fun e s =>
      putC (e.t + 3) (.scalar 31 (e.next.zeroExtend 64)) e (s.branchTo e (relative e (opaC f e s)) 3) }
/-- call (R236). -/
def execCall (f : FieldC) (s : State) : Host.Outcome State Fault Refusal := .next (issueOps [callOp f] s)

/-- ret (R236): a is s31. -/
def retOp (f : FieldC) : SlotOp :=
  { plainC 0x06 f with effect := fun e s => s.branchTo e ((opaC f e s).truncate 57) 3 }
/-- ret (R236). -/
def execRet (f : FieldC) (s : State) : Host.Outcome State Fault Refusal := .next (issueOps [retOp f] s)

/-! ## Loops (R237, R61, R234) -/

/-- The counter of a loop: the write of a loop that is still in flight, newest first, else the register (R237). Writes of loop
stand as slot 14. -/
def loopCounter (f : FieldC) (e : Env) (s : State) : W64 :=
  let mine := (s.ctx e.k).pending.filterMap fun p => match p.what with
    | .scalar r x => if r = f.dst.toNat && p.slot = 14 then some (p.issued, x) else none
    | _ => none
  match mine with
  | [] => regC f 1 0 e s
  | p :: ps => (ps.foldl (fun (a : Nat × W64) b => if a.1 ≤ b.1 then b else a) p).2

/-- The bundles of a loop body from an address to its loop bundle, at most fuel of them (R61); none where the body does not
reach it. -/
def State.bodyLength (s : State) (k : Nat) (last : Nat) : Nat → Nat → Option Nat
  | 0, _ => none
  | fuel + 1, pc =>
    if pc = last then some 1
    else
      match s.streamAt k pc with
      | some (.bundle _ _ _ _ n) => (s.bodyLength k last fuel ((pc + n) % 2 ^ 57)).map (· + 1)
      | some (.idle _ _ _ n) => (s.bodyLength k last fuel ((pc + n) % 2 ^ 57)).map (· + 1)
      | _ => none

/-- Whether a loop body fits the loop buffer (R61). -/
def bodyFits (e : Env) (s : State) (start : BitVec 57) : Bool :=
  decide ((e.next - start).toNat ≤ 512) && (s.bodyLength e.k e.pc.toNat 32 start.toNat).isSome

/-- A taken back-edge (R60, R234): free inside the captured body; else it costs as a taken branch, and captures the body where
it fits and no capture is locked. -/
def State.backEdge (s : State) (e : Env) (start : BitVec 57) : State :=
  let c := s.ctx e.k
  if c.loopBuf = some (start, e.pc, e.next) then s.branchTo e start 1
  else
    let capture := bodyFits e s start && !(c.loopLock && c.loopBuf.isSome)
    let s := s.branchTo e start 3
    if capture then s.updCtx e.k fun c => { c with loopBuf := some (start, e.pc, e.next) } else s

/-- The counter write of loop and lexit: slot 14 marks that of loop. -/
def putCounter (slot : Nat) (f : FieldC) (x : W64) (e : Env) (s : State) : State :=
  s.addPending e.k { due := e.t + 3, issued := e.t, slot := slot, contested := 0, what := .scalar f.dst.toNat x }

/-- loop (R237). -/
def loopOp (f : FieldC) : SlotOp :=
  { plainC 0x08 f with
    writes := fun e _ => writesOf (e.t + 3) (.scalar f.dst.toNat 0)
    effect := fun e s =>
      let c := loopCounter f e s - 1
      let target := relative e (opaC f e s)
      let s := putCounter 14 f c e s
      if c = 0 then s else s.backEdge e target }
/-- loop (R237). -/
def execLoop (f : FieldC) (s : State) : Host.Outcome State Fault Refusal := .next (issueOps [loopOp f] s)

/-- lexit (R237). -/
def lexitOp (f : FieldC) : SlotOp :=
  { plainC 0x09 f with
    writes := fun e _ => writesOf (e.t + 3) (.scalar f.dst.toNat 0)
    effect := fun e s =>
      let target := relative e (opaC f e s)
      (putCounter 8 f 0 e s).branchTo e target 3 }
/-- lexit (R237). -/
def execLexit (f : FieldC) (s : State) : Host.Outcome State Fault Refusal := .next (issueOps [lexitOp f] s)

/-! ## Fetch control (R238) -/

/-- The lines of a range: n lines from the line that holds pc + a. -/
def codeRange (f : FieldC) (e : Env) (s : State) : List Nat :=
  let first := (relative e (opaC f e s)).toNat / 128
  tabulate (fun i => (first + i) % 2 ^ 50) (f.aux.toNat % 32 + 1) 0

/-- A line fetched for a context unless it is resident (R238): whether it is resident now. A failure is ignored. -/
def State.fetchLine (s : State) (k line : Nat) : Bool × State :=
  match s.viewLine k line 0 with
  | .bytes _ => (true, s)
  | .part _ _ _ => (false, s)
  | .fault _ _ => (false, s)
  | .missing =>
    match s.readCode (coreOf k) (s.regionOf k) line with
    | (.ok l, s) => (true, s.installLine (coreOf k) l)
    | (.error _, s) => (false, s)

/-- ipf (R238). -/
def ipfOp (f : FieldC) : SlotOp :=
  { plainC 0x0A f with
    effect := fun e s => (codeRange f e s).foldl (fun s line => (s.fetchLine e.k line).2) s }
/-- ipf (R238). -/
def execIpf (f : FieldC) (s : State) : Host.Outcome State Fault Refusal := .next (issueOps [ipfOp f] s)

/-- Whether a context pins a line. -/
def State.pins (s : State) (k line : Nat) : Bool :=
  (s.core (coreOf k)).icache.any fun l => l.line = line && l.asid = s.asidOf (s.regionOf k) && l.pins.contains k

/-- A line pinned for a context, while the limits of R232 Table 1 allow it. -/
def State.pinLine (s : State) (k line : Nat) : State :=
  let core := coreOf k
  if s.pins k line then s
  else
    let (here, s) := s.fetchLine k line
    let mine (l : CodeLine) : Bool := l.line = line && l.asid = s.asidOf (s.regionOf k)
    let shared := (s.core core).icache.any fun l => mine l && !l.pins.isEmpty
    if here && decide (s.pinsOf core k < 128) && (shared || decide (s.pinnedLines core < 256)) then
      let add (l : CodeLine) : CodeLine := if mine l then { l with pins := k :: l.pins } else l
      s.updCore core fun c => { c with icache := c.icache.map add }
    else s

/-- pin (R238). -/
def pinOp (f : FieldC) : SlotOp :=
  { plainC 0x0B f with
    writes := fun e _ => if f.ws then [] else writesOf (e.t + 3) (.scalar f.dst.toNat 0)
    effect := fun e s =>
      let range := codeRange f e s
      let s := range.foldl (fun s line => s.pinLine e.k line) s
      let n := (range.filter (s.pins e.k)).length
      let s := if f.aux.getLsbD 5 then s.updCtx e.k fun c => { c with loopLock := true } else s
      if f.ws then s else putC (e.t + 3) (.scalar f.dst.toNat (BitVec.ofNat 64 n)) e s }
/-- pin (R238). -/
def execPin (f : FieldC) (s : State) : Host.Outcome State Fault Refusal := .next (issueOps [pinOp f] s)

/-- The pins of a context on some lines released. -/
def State.unpinLines (s : State) (k : Nat) (range : CodeLine → Bool) : State :=
  let drop (l : CodeLine) : CodeLine := if range l then { l with pins := l.pins.filter (· ≠ k) } else l
  s.updCore (coreOf k) fun c => { c with icache := c.icache.map drop }

/-- unpin (R238). -/
def unpinOp (f : FieldC) : SlotOp :=
  { plainC 0x0C f with
    effect := fun e s =>
      let range := codeRange f e s
      let asid := s.asidOf (s.regionOf e.k)
      let s := s.unpinLines e.k fun l => f.aux.getLsbD 6 || (range.contains l.line && l.asid = asid)
      if f.aux.getLsbD 5 then s.updCtx e.k fun c => { c with loopLock := false } else s }
/-- unpin (R238). -/
def execUnpin (f : FieldC) (s : State) : Host.Outcome State Fault Refusal := .next (issueOps [unpinOp f] s)

/-! ## wait, yield (R239, R240) -/

/-- wait (R239): CLR clears at t + 2, so that bundles see it from t + 3 on (R55). -/
def waitOp (f : FieldC) : SlotOp :=
  let all := f.aux.getLsbD 0
  let clr := f.aux.getLsbD 1
  let mask (e : Env) (s : State) : BitVec 16 := (opaC f e s).truncate 16
  { plainC 0x10 f with
    writes := fun e s => if clr then writesOf (e.t + 3) (.flags (mask e s) 0) else []
    block := fun e s =>
      if waitHolds all (mask e s) (s.readFlags e.k e.t 33) then none else some (.wait (mask e s) all, id)
    effect := fun e s =>
      let m := mask e s &&& 0xFFFE
      if clr && decide (m ≠ 0) then putC (e.t + 3) (.flags m 0) e s else s }
/-- wait (R239). -/
def execWait (f : FieldC) (s : State) : Host.Outcome State Fault Refusal := .next (issueOps [waitOp f] s)

/-- The running context gives up its core at t and is READY from t on (R29, R240). -/
def State.standReady (s : State) (k t : Nat) : State :=
  (s.switchOut (coreOf k) t).updCtx k fun c => { c with phase := .ready, readySince := t, readyAt := s.clk }

/-- yield (R240): the bundle issues with all of its slots, and then the context gives way. -/
def yieldOp (f : FieldC) : SlotOp := { plainC 0x11 f with after := fun e s => s.standReady e.k e.t }
/-- yield (R240). -/
def execYield (f : FieldC) (s : State) : Host.Outcome State Fault Refusal := .next (issueOps [yieldOp f] s)

/-! ## chkt, trap, svc, eret (R241 to R243) -/

/-- The first element at which two sources differ, 64 × row + lane, over the rows of a window and the lanes of LMASK. -/
def firstDifference (m : W64) (a b : Nat → Row) : List Nat → Option Nat
  | [] => none
  | row :: rest =>
    match (List.range 64).find? fun c => m.getLsbD c && laneOf (a row) c ≠ laneOf (b row) c with
    | some c => some (64 * row + c)
    | none => firstDifference m a b rest

/-- What chkt finds: the first differing element (R241). -/
def checkDifference (f : FieldC) (e : Env) (s : State) : Option Nat :=
  let second : BitVec 6 := f.aux.truncate 6
  if f.aux.getLsbD 6 then
    let a := vectorOperand s e 8 0 0 f.opa
    let b := vectorOperand s e 8 1 0 second
    firstDifference (s.readLmask e.k e.t 34) (fun r => sourceRow s e.k e.t 32 a r) (fun r => sourceRow s e.k e.t 33 b r)
      (tabulate id (f.aux.toNat / 2048 + 1) (f.aux.toNat / 128 % 16))
  else if opaC f e s = scalarOperand s e 8 1 second then none else some 0

/-- chkt (R241). -/
def chktOp (f : FieldC) : SlotOp :=
  { plainC 0x14 f with
    trap := fun e s => (checkDifference f e s).map fun n =>
      slotTrap 8 .checkMismatch (BitVec.ofNat 64 (n + (if f.aux.getLsbD 6 then 2 ^ 10 else 0))) }
/-- chkt (R241). -/
def execChkt (f : FieldC) (s : State) : Host.Outcome State Fault Refusal := .next (issueOps [chktOp f] s)

/-- trap (R242). -/
def trapOp (f : FieldC) : SlotOp :=
  { plainC 0x15 f with trap := fun e s => some (slotTrap 8 .software (opaC f e s)) }
/-- trap (R242). -/
def execTrap (f : FieldC) (s : State) : Host.Outcome State Fault Refusal := .next (issueOps [trapOp f] s)
/-- svc (R242). -/
def svcOp (f : FieldC) : SlotOp :=
  { plainC 0x16 f with trap := fun _ _ => some (slotTrap 8 .svc (f.aux.zeroExtend 64)) }
/-- svc (R242). -/
def execSvc (f : FieldC) (s : State) : Host.Outcome State Fault Refusal := .next (issueOps [svcOp f] s)

/-- eret (R243): the other slots of its bundle read the handler's latches. -/
def eretOp (f : FieldC) : SlotOp :=
  { plainC 0x17 f with
    privileged := true
    after := fun e s => s.returnFromTrap e.k e.t (f.aux.getLsbD 0) }
/-- eret (R243). -/
def execEret (f : FieldC) (s : State) : Host.Outcome State Fault Refusal := .next (issueOps [eretOp f] s)

/-! ## exit, cont, halt (R244, R245, R257) -/

/-- exit (R244): the open phase commits, pins and the loop-buffer lock are released, and the context drains. -/
def exitOp (f : FieldC) : SlotOp :=
  { plainC 0x18 f with
    endsOverrun := fun _ _ => true
    effect := fun e s => ((s.commitPhase e.k).unpinLines e.k fun _ => true).updCtx e.k fun c => { c with loopLock := false }
    after := fun e s => (s.switchOut e.core e.t).updCtx e.k fun c => { c with drain := .exit } }
/-- exit (R244). -/
def execExit (f : FieldC) (s : State) : Host.Outcome State Fault Refusal := .next (issueOps [exitOp f] s)

/-- The continuation queue of a region on a die. -/
def Die.contQueue (d : Die) (region : Nat) : Option ContQueue := d.conts.find? fun q => q.region = region
/-- The lowest queue number that no region holds. -/
def Die.freeCont (d : Die) : Option Nat := (List.range 256).find? fun n => d.conts.all fun q => q.number ≠ n
/-- Whether an entry of a region's continuation queue can be reserved (R245, R361). -/
def Die.contFree (d : Die) (region : Nat) : Bool :=
  match d.contQueue region with
  | some q => decide (q.waiting + q.reserved < 64)
  | none => d.freeCont.isSome
/-- The reservations of a region's continuation queue changed. -/
def Die.updCont (d : Die) (region : Nat) (f : ContQueue → ContQueue) : Die :=
  let step (q : ContQueue) : ContQueue := if q.region = region then f q else q
  { d with conts := d.conts.map step }
/-- An entry of a region's continuation queue reserved. -/
def Die.reserveCont (d : Die) (region : Nat) : Die :=
  match d.contQueue region, d.freeCont with
  | some _, _ => d.updCont region fun q => { q with reserved := q.reserved + 1 }
  | none, some n => { d with conts := d.conts ++ [{ number := n, region := region, reserved := 1, waiting := 0 }] }
  | none, none => d
/-- An entry of a region's continuation queue reserved on a die; a queue that this assigns to the region starts IDLE at index 0
(R345, R361; DESIGN CHOICE, notes/assumptions/48.md). -/
def State.reserveCont (s : State) (die region : Nat) : State :=
  let assigned := ((s.die die).contQueue region).isNone
  let s := s.updDie die fun d => d.reserveCont region
  match assigned, (s.die die).contQueue region with
  | true, some q =>
    let n := contNumber die q.number
    let s := s.updHold n fun _ => QueueHold.initial
    ((s.setQcb n 0x0A 2 region).setQcb n 0x20 8 0).setQueueState n 1
  | _, _ => s
/-- Continuation queues of a die that are empty with no reservation outstanding are freed, once no lane owns them: they are DISABLED
(R353, R361). -/
def State.pruneConts (s : State) (die : Nat) : State :=
  let free (q : ContQueue) : Bool := q.waiting = 0 && q.reserved = 0 && (s.hold (contNumber die q.number)).owner.isNone
  let gone := (s.die die).conts.filter free
  if gone.isEmpty then s
  else
    gone.foldl (fun s q => s.setQueueState (contNumber die q.number) 0)
      (s.updDie die fun d => { d with conts := d.conts.filter fun q => !free q })
/-- A reservation given up. -/
def State.releaseCont (s : State) (die region : Nat) : State :=
  (s.updDie die fun d => d.updCont region fun q => { q with reserved := q.reserved - 1 }).pruneConts die

/-- cont (R245). -/
def contOp (f : FieldC) : SlotOp :=
  let reserved (e : Env) (s : State) : Bool := ((s.groupOf e.k).map Group.contReserved).getD true
  { plainC 0x19 f with
    block := fun e s =>
      if reserved e s || (s.die (dieOf (clusterOf e.k))).contFree (s.regionOf e.k) then none
      else some (.continuationFull, id)
    endsOverrun := fun _ _ => true
    effect := fun e s =>
      let entry := relative e (opaC f e s)
      let arg := regC f 1 0 e s
      let s :=
        if reserved e s then s
        else
          let s := s.reserveCont (dieOf (clusterOf e.k)) (s.regionOf e.k)
          s.updGroup (s.gid e.k) fun g => { g with contReserved := true }
      s.updCtx e.k fun c => { c with contReq := some (entry, arg) } }
/-- cont (R245). -/
def execCont (f : FieldC) (s : State) : Host.Outcome State Fault Refusal := .next (issueOps [contOp f] s)

/-- halt (R257): the bundle issues with all its slots, and the context drains before it is HALTED. -/
def haltOp (f : FieldC) : SlotOp :=
  { plainC 0x2A f with
    privileged := true
    endsOverrun := fun _ _ => true
    effect := fun e s => s.updCtx e.k fun c => { c with drain := .halt 0 } }
/-- halt (R257). -/
def execHalt (f : FieldC) (s : State) : Host.Outcome State Fault Refusal := .next (issueOps [haltOp f] s)

/-! ## dload, ddrop (R251) -/

/-- Pages of a class of a handle queued to the refill engine. -/
def State.queuePages (s : State) (core region handle cls first n : Nat) : State :=
  match ((s.core core).handles[handle]?).bind id with
  | none => s
  | some d =>
    let pages := (tabulate id n first).filter fun p => decide (p < pagesOf (d.counts.getD cls 0))
    s.updCore core fun c => { c with refillQueue := c.refillQueue ++ pages.map (fun p => (region, handle, cls, p)) }

/-- Whether a dload.obj can act on an object: a handle names it, or one can be taken (R251). -/
def State.dloadHandle (s : State) (k object : Nat) : Option Nat :=
  s.handleNaming (coreOf k) object (s.asidOf (s.regionOf k))

/-- dload (R251). Of an object address the bits that no dictionary address has are dropped (DESIGN CHOICE, notes/assumptions/99.md); a
header that fails names slot CT in TCAUSE (DEDUCED, notes/assumptions/24.md). (DEDUCED, notes/assumptions/46.md)
(DEDUCED, notes/assumptions/47.md) -/
def dloadOp (f : FieldC) : SlotOp :=
  let cls := f.aux.toNat % 8
  let n := f.aux.toNat / 8 % 32 + 1
  let obj := f.aux.getLsbD 8
  { plainC 0x24 f with
    endsOverrun := fun _ _ => true
    hold := fun e s =>
      let object := objectOf (opaC f e s)
      if obj && (s.dloadHandle e.k object).isNone && (s.handleFree e.core none).isSome && (s.core e.core).refillFault.isNone then
        some (.freeze (.header object))
      else none
    trap := fun e s =>
      if !obj then none
      else
        match (s.core e.core).refillFault with
        | some (c, a) => some (slotTrap 8 c (BitVec.ofNat 64 a))
        | none =>
          match s.dloadHandle e.k (objectOf (opaC f e s)) with
          | some i =>
            match ((s.core e.core).handles[i]?).bind id with
            | some d =>
              if d.priv && !(s.supervisor e.k || decide (1024 ≤ e.core)) then
                some (slotTrap 8 .illegalStream (BitVec.ofNat 64 (5 + 15 * 16)))
              else none
            | none => none
          | none => none
    effect := fun e s =>
      let a := opaC f e s
      let region := s.regionOf e.k
      if obj then
        match s.dloadHandle e.k (objectOf a) with
        | some i => s.queuePages e.core region i cls 0 n
        | none => s
      else s.queuePages e.core region (s.ctx e.k).dictHandle cls a.toNat n }
/-- dload (R251). -/
def execDload (f : FieldC) (s : State) : Host.Outcome State Fault Refusal := .next (issueOps [dloadOp f] s)

/-- ddrop (R251). -/
def ddropOp (f : FieldC) : SlotOp :=
  let cls := f.aux.toNat % 8
  let n := f.aux.toNat / 8 % 32 + 1
  { plainC 0x25 f with
    effect := fun e s =>
      let first := (opaC f e s).toNat
      let h := (s.ctx e.k).dictHandle
      let drop (p : DecodePage) : DecodePage :=
        if p.cls = cls && p.handle = h && decide (first ≤ p.page) && decide (p.page < first + n) && !s.pagePinned e.core p then
          { p with dropped := true }
        else p
      s.updCore e.core fun c => { c with pages := c.pages.map drop } }
/-- ddrop (R251). -/
def execDdrop (f : FieldC) (s : State) : Host.Outcome State Fault Refusal := .next (issueOps [ddropOp f] s)

/-! ## tlbinv, bankmode (R252, R253) -/

/-- tlbinv (R252): it completes by TLBINV_COMPLETE. -/
def tlbinvOp (f : FieldC) : SlotOp :=
  let aux := f.aux.toNat
  { plainC 0x26 f with
    privileged := true
    endsOverrun := fun _ _ => true
    effect := fun e s =>
      let a := opaC f e s
      s.updCtx e.k fun c => { c with
        maintenance := c.maintenance ++ [.tlbinv (aux % 4) (aux / 4 % 256) a (bitOf aux 10) (aux / 2048 % 16)] } }
/-- tlbinv (R252). -/
def execTlbinv (f : FieldC) (s : State) : Host.Outcome State Fault Refusal := .next (issueOps [tlbinvOp f] s)

/-- A bank mode code (R267). -/
def modeOfCode (n : Nat) : BankMode := match n with | 0 => .cache | 1 => .scratch | _ => .fifo

/-- Whether a local bank of a group holds queue entries or stream records (R253). -/
def Group.bankBusy (g : Group) (j : Nat) : Bool :=
  (decide (g.decl.b ≤ j) && ((g.streams[j - g.decl.b]?).any fun q => !q.items.isEmpty))
    || (decide (j = g.decl.b) && g.queues.any fun q => !q.entries.isEmpty)

/-- The banks that a bankmode names outside the allocation, and the first that leaves FIFO mode with contents. -/
def bankmodeTrap (f : FieldC) (e : Env) (s : State) : Option Trap :=
  let mask := (opaC f e s).toNat % 2 ^ 16
  match s.groupOf e.k with
  | none => if mask = 0 then none else some (slotTrap 8 .accessFault (BitVec.ofNat 64 mask))
  | some g =>
    let outside := mask / 2 ^ (g.decl.b + g.decl.q) * 2 ^ (g.decl.b + g.decl.q)
    if outside ≠ 0 then some (slotTrap 8 .accessFault (BitVec.ofNat 64 outside))
    else if modeOfCode (f.aux.toNat % 4) = .fifo then none
    else
      ((List.range 16).find? fun j => bitOf mask j && s.fifoBank e.k j && g.bankBusy j).map fun j =>
        slotTrap 8 .queueProtocol (BitVec.ofNat 64 j)

/-- bankmode (R253): its banks switch by BANK_SWITCH_COMPLETE. -/
def bankmodeOp (f : FieldC) : SlotOp :=
  { plainC 0x27 f with
    endsOverrun := fun _ _ => true
    trap := bankmodeTrap f
    effect := fun e s =>
      let mask := (opaC f e s).toNat % 2 ^ 16
      match s.groupOf e.k with
      | none => s.setFlagFrom false e.k (f.aux.toNat / 4 % 16)
      | some g =>
        let s := s.flush e.k
        let banks := g.physical (BitVec.ofNat 16 mask)
        s.updCluster (clusterOf e.k) fun c => { c with
          nextOp := c.nextOp + 1
          switches := c.switches ++ banks.map (fun b => { op := c.nextOp, bank := b, mode := modeOfCode (f.aux.toNat % 4) })
          bankOps := c.bankOps ++ [{ op := c.nextOp, ctx := e.k, flag := f.aux.toNat / 4 % 16 }] } }
/-- bankmode (R253). -/
def execBankmode (f : FieldC) (s : State) : Host.Outcome State Fault Refusal := .next (issueOps [bankmodeOp f] s)

end Sys2Proof.Machine
end

