-- ==== Sys2Proof/Machine/Engine.lean ====
section
/-! DEFINITION. What Canopy and the copy and gather engine share: commands in their queues (R212, R331), their accesses through
the issuing context's address space (R209, R295), their completion flags (R213, R296) and their faults (R215, R342, R373,
R379). -/

namespace Sys2Proof.Machine

/-! ## E-class operations -/

/-- The operand of an E-class operation, read at t (R210). -/
def opsE (f : FieldE) (e : Env) (s : State) : W64 := scalarOperand s e 9 0 f.ops
/-- An E-class operation without a meaning yet given: it occupies EN for BEATS cycles and ends overrun (R213, R318). -/
def plainE (uf : Nat) (f : FieldE) : SlotOp :=
  { slot := 9, uf := uf, pf := f.pf, pn := f.pn, occ := if f.beats = 0 then 256 else f.beats.toNat, engine := true
    endsOverrun := fun _ _ => true }
/-- A CSR as an engine command captures it at t (R188). -/
def csrE (e : Env) (s : State) (n : Nat) : W64 := s.readCsr e.k e.t 36 n
/-- PARTIAL_MASK where LMASK is not all ones (R211 step 1, R336 step 1). -/
def lmaskCheck (e : Env) (s : State) : Option Trap :=
  let m := csrE e s 0x001
  if m = BitVec.allOnes 64 then none else some (slotTrap 9 .partialMask m)
/-- ACCESS_FAULT of an engine operand check, with TVAL as Table 6 of R192 shows. -/
def caseTrap (case number : Nat) : Trap := slotTrap 9 .accessFault (BitVec.ofNat 64 (case * 32 + number % 32))
/-- The tiles of the group of a context (R181). -/
def State.tileCount (s : State) (k : Nat) : Nat := 2 * ((s.groupOf k).map fun g => g.decl.n).getD 0

/-! ## Commands -/

/-- Whether an engine command is of the mma family (R210 Table 1). -/
def EngineCmd.joint (c : EngineCmd) : Bool := !c.copy && decide (1 ≤ c.uf) && decide (c.uf ≤ 5)
/-- The context at a position of a command's group. -/
def State.memberKey (s : State) (c : EngineCmd) (pos : Nat) : Nat :=
  (c.group.map fun g => s.keyAt g pos).getD 0
/-- The context that issued a command. -/
def State.issuerOf (s : State) (c : EngineCmd) : Nat := s.memberKey c c.pos
/-- A command that has left its queue, with its reservation (R331). -/
def State.dropEngine (s : State) (n : Nat) : State :=
  match mapGet? s.engine n with
  | none => s
  | some c =>
    let s := { s with engine := mapErase s.engine n }
    let s := s.updCluster c.cluster fun x => { x with reservations := x.reservations.filter fun r => r.command ≠ n }
    s.updCore c.core fun x => { x with
      canopyQueue := x.canopyQueue.filter (· ≠ n)
      copyQueue := x.copyQueue.filter (· ≠ n) }

/-- A command that takes a queue entry under a number, and its row of the reservation table (R212, R270, R331). -/
def State.enterAs (s : State) (n : Nat) (c : EngineCmd) : State :=
  let s := s.pushAs n { c with queued := true }
  match c.group with
  | some g =>
    let banks := if c.refetch then (c.desc.map CopyDesc.banks).getD 0 else c.aux
    if c.copy && banks ≠ 0 then
      s.updCluster c.cluster fun x => { x with
        reservations := x.reservations ++ [{ group := g, mask := BitVec.ofNat 16 banks, command := n }] }
    else s
  | none => s

/-- The number of a command that enters now. -/
def State.numberFor (s : State) (c : EngineCmd) : Nat := s.engineNumber (if c.resumed then 0 else c.core)
/-- A command that takes a queue entry and its row of the reservation table. -/
def State.enterEngine (s : State) (c : EngineCmd) : State := { s with nextEngine := s.nextEngine + 1 }.enterAs (s.numberFor c) c

/-- Whether the queue of a core has room for a command of its kind (R212, R331). (DEDUCED, notes/assumptions/29.md) -/
def State.engineRoom (s : State) (core : Nat) (copy : Bool) : Bool :=
  decide ((if copy then (s.core core).copyQueue else (s.core core).canopyQueue).length < 4)

/-- A command that enters an engine from outside a bundle: it takes an entry, or waits inside the engine for one (R212, R331). -/
def State.reenter (s : State) (c : EngineCmd) : State :=
  if !c.takesEntry || s.engineRoom c.core c.copy then s.enterEngine c
  else { s with engine := mapSet s.engine (s.numberFor c) { c with queued := false }, nextEngine := s.nextEngine + 1 }

/-- The first command that waits inside an engine for an entry that is free takes it. -/
def State.admitWaiting (s : State) : State :=
  match s.engine.find? fun x => !x.2.queued && s.engineRoom x.2.core x.2.copy with
  | some (n, c) => s.enterAs n c
  | none => s

/-! ## Accesses -/

/-- An address of a command's address space translated (R277). -/
def State.enginePlace (s : State) (c : EngineCmd) (use : PageUse) (size : Nat) (va : Nat) : Except Cause Place :=
  if 2 ^ 57 ≤ va then .error .accessFault
  else if va % size ≠ 0 then .error .misaligned
  else
    match s.translate c.cluster (s.asidOf c.region) (s.ptbase c.region) use c.user true va with
    | .place p => .ok p
    | .fault x => .error x
    | .walk => .error .pageFault

/-- The walk of a failed access of a command counted, where a PTE of it could not be read (R413). -/
def State.engineWalk (s : State) (c : EngineCmd) (va : Nat) : State := s.countMiss c.cluster (s.asidOf c.region) (s.ptbase c.region) va

/-- A failure of an engine command: its cause, the faulting address, and the descriptor or entry address (R368). -/
structure EngineFault where
  cause : Cause
  address : Nat
  ref : Nat
deriving DecidableEq, Repr

/-- The outcome of a part of an engine command: its result, the command with its timestamp, the machine. -/
structure EngineResult (α : Type) where
  value : Except EngineFault α
  cmd : EngineCmd
  state : State

/-- n bytes of one line read by an engine command (R295). -/
def State.engineRead (s : State) (c : EngineCmd) (ref size va n : Nat) : EngineResult (List Byte) :=
  match s.enginePlace c .load size va with
  | .error x => { value := .error { cause := x, address := va, ref := ref }, cmd := c, state := s.engineWalk c va }
  | .ok p =>
    let (lts, s) := s.stampWalk c.lts (s.ptbase c.region) va
    let r := s.loadAt lts p.key n
    let c := { c with lts := r.lts }
    match r.value with
    | some v => { value := .ok (toBytes n v), cmd := c, state := r.state }
    | none => { value := .error { cause := .poison, address := va, ref := ref }, cmd := c, state := r.state }

/-- n bytes from a virtual address on, line by line; fuel bounds the lines. Where a part fails, the faulting address is the first byte of
that part (R209, R227; DEDUCED, notes/assumptions/105.md). -/
def State.engineBytes (s : State) (c : EngineCmd) (ref : Nat) : Nat → Nat → Nat → EngineResult (List Byte)
  | 0, _, _ => { value := .ok [], cmd := c, state := s }
  | fuel + 1, va, n =>
    if n = 0 then { value := .ok [], cmd := c, state := s }
    else
      let m := min n (64 - va % 64)
      let r := s.engineRead c ref 1 va m
      match r.value with
      | .error x => { value := .error x, cmd := r.cmd, state := r.state }
      | .ok bs =>
        let q := r.state.engineBytes r.cmd ref fuel ((va + m) % 2 ^ 64) (n - m)
        match q.value with
        | .error x => { value := .error x, cmd := q.cmd, state := q.state }
        | .ok more => { value := .ok (bs ++ more), cmd := q.cmd, state := q.state }

/-- The lines that n bytes may span. -/
def linesOf (n : Nat) : Nat := n / 64 + 2

/-- Rows of n bytes at a stride, count of them, one engine access each (R209, R227). -/
def State.engineRows (s : State) (c : EngineCmd) (ref stride n : Nat) : Nat → Nat → EngineResult (List (List Byte))
  | 0, _ => { value := .ok [], cmd := c, state := s }
  | count + 1, va =>
    let r := s.engineBytes c ref (linesOf n) va n
    match r.value with
    | .error x => { value := .error x, cmd := r.cmd, state := r.state }
    | .ok bs =>
      let q := r.state.engineRows r.cmd ref stride n count ((va + stride) % 2 ^ 64)
      match q.value with
      | .error x => { value := .error x, cmd := q.cmd, state := q.state }
      | .ok more => { value := .ok (bs :: more), cmd := q.cmd, state := q.state }

/-! ## Ends -/

/-- A command joins a context: LTS rises to the command's, and its flag is set (R213, R296). -/
def State.joinEngine (s : State) (c : EngineCmd) (pos flag : Nat) : State :=
  let k := s.memberKey c pos
  (s.updCtx k fun x => { x with lts := laterOf x.lts c.lts }).setFlagFrom false k flag

/-- The open phase of a context in which a command was issued, if it is still open. -/
def State.phaseOf (s : State) (k : Nat) (opened : Option Nat) : Option PhaseRecord :=
  match opened, (s.ctx k).phaseRec with
  | some t, some p => if p.opened = t then some p else none
  | _, _ => none

/-- The contexts whose phases a POISON failure of a command cancels (R215, R342, R379): its issuer, or every member of a joint
command whose members all arrived from inside a phase. -/
def State.cancelsPhases (s : State) (c : EngineCmd) : List Nat :=
  let sheltered (k : Nat) (opened : Option Nat) : Bool := match s.phaseOf k opened with | some p => !p.exposed | none => false
  if c.refetch || c.packet then []
  else if c.joint then
    let ks := c.members.map fun m => (s.memberKey c m.pos, m.phase)
    if ks.all fun x => sheltered x.1 x.2 then ks.map Prod.fst else []
  else if sheltered (s.issuerOf c) c.phase then [s.issuerOf c]
  else []

/-- Whether a command was issued within a phase of its issuer that is exposed by now (R367, R379). -/
def State.raisedExposed (s : State) (c : EngineCmd) : Bool :=
  !c.refetch && !c.packet && match s.phaseOf (s.issuerOf c) c.phase with | some p => p.exposed | none => false

/-- Whether a POISON failure of a command ends its group: it was issued within a phase that is exposed by now (R379). -/
def State.poisonsGroup (s : State) (c : EngineCmd) : Bool := !c.joint && s.raisedExposed c

/-- The record of a failed engine command (R368). -/
def State.engineRecord (s : State) (c : EngineCmd) (x : EngineFault) (pos : Nat) : FaultRecord :=
  let cmd := mapGet? s.commands c.command
  { FaultRecord.blank (if c.copy then 1 else 2) with
    cause := causeCode x.cause
    res := true
    exp := s.raisedExposed c
    queue := (cmd.map Command.queue).getD 0
    seq := (cmd.map Command.seq).getD 0
    addr := x.address
    detail := if c.copy then 0 else c.uf
    pos := pos
    engine := if c.packet then dieOf c.cluster + 8 * (c.cluster % 32) else s.engineAt (s.issuerOf c)
    ref := x.ref / 64 % 2 ^ 51 }

/-- A failed command held for a handler (R373): its record is published with RES = 1; where its region holds 256 already, or the
record is not written, nothing is held, and the flag says that the command is cancelled at once. -/
def State.holdEngine (s : State) (c : EngineCmd) (x : EngineFault) (pos : Nat) : Bool × State :=
  let full := decide (256 ≤ (s.heldOps.filter fun h => h.region = c.region).length)
  let r := s.engineRecord c x pos
  match s.publish c.region c.lts { r with res := !full } with
  | (some (q, i), s) =>
    if full then (true, s)
    else (false, { s with heldOps := s.heldOps ++ [{ region := c.region, fqRegion := q, index := i, cmd := c, order := 0 }] })
  | (none, s) => (true, s)

/-- A POISON failure that acts on phases (R215, R342, R379): nothing where it does not. -/
def State.poisonPhases (s : State) (c : EngineCmd) (x : EngineFault) : Option State :=
  if x.cause ≠ .poison then none
  else
    match s.cancelsPhases c with
    | [] => if s.poisonsGroup c then some (s.failedElement (s.issuerOf c) .poison (BitVec.ofNat 64 x.address)) else none
    | ks => some (ks.foldl (fun s k => s.failedElement k .poison (BitVec.ofNat 64 x.address)) s)

end Sys2Proof.Machine
end

