-- ==== Sys2Proof/Machine/Canopy.lean ====
section
/-! DEFINITION. The Canopy commands at issue (R210 to R212), the rendezvous (R217 to R220), and Canopy's own work: start checks,
row blocks, latch loads, tile moves, completion and faults (R213 to R216, R222 to R231). -/

namespace Sys2Proof.Machine

/-! ## Operand checks (R211) -/

/-- TI of mmaa and mmai (R210 Table 1). -/
def indexTile (f : FieldE) : Nat := f.aux.toNat / 16 % 32
/-- The tiles that a Canopy command names, in the order TD, TA, TI. -/
def namedTiles (uf : Nat) (f : FieldE) : List Nat :=
  match uf with
  | 1 | 2 | 3 | 0xA | 0xB => [f.td.toNat, f.ta.toNat]
  | 4 | 5 => [f.td.toNat, f.ta.toNat, indexTile f]
  | 9 | 0xD => [f.td.toNat]
  | 0xC => [f.ta.toNat]
  | _ => []
/-- The TS word of a tile as captured at issue. -/
def shapeE (e : Env) (s : State) (j : Nat) : Nat := (csrE e s (0x040 + j)).toNat
/-- An FMT word as captured at issue. -/
def formatE (e : Env) (s : State) (i : Nat) : Nat := (csrE e s (0x020 + i)).toNat
/-- The element width of a tile under its TS word. -/
def widthE (e : Env) (s : State) (j : Nat) : Nat := tileWidth (shapeE e s j) (formatE e s (tsFsel (shapeE e s j)))

/-- The tile that a shape check names, 31 for none in particular (R211 step 6, R222, R223, R229 to R231;
DEDUCED, notes/assumptions/106.md). -/
def shapeFault (uf : Nat) (f : FieldE) (e : Env) (s : State) : Option Nat :=
  let td := f.td.toNat
  let ta := f.ta.toNat
  let d := shapeE e s td
  let a := shapeE e s ta
  let w := widthE e s td
  let v := widthE e s ta
  let good (w : Nat) : Bool := w = 8 || w = 16 || w = 32
  let x := (opsE f e s).toNat
  match uf with
  | 1 | 2 | 3 => if !tsAcc d || decide (tsRows d < tsRows a) then some td else none
  | 4 | 5 =>
    let i := shapeE e s (indexTile f)
    if !tsAcc d || decide (tsRows d < tsRows a) then some td
    else if tsClass i ≠ 4 || decide (tsRows i < tsRows a) then some (indexTile f) else none
  | 0xA =>
    if !good w then some td
    else if !good v then some ta
    else if w ≠ v || td = ta then some 31
    else if tsRows d ≠ tsRowBytes a * 8 / w || decide (tsRowBytes d < tsRows a * w / 8) then some td else none
  | 0xB =>
    let fits (w bytes : Nat) : Bool := x * w % 8 = 0 && decide (x * w / 8 ≤ bytes)
    if x < 1 || decide (4096 < x) then some 31
    else if tsRows d < tsRows a || !fits w (tsRowBytes d) then some td
    else if !fits v (tsRowBytes a) || (f.aux.getLsbD 4 && !tsAcc a) then some ta else none
  | 0xC => if x % 256 ≠ 0 || decide (28672 < x) then some ta else none
  | 0xD => if x % 256 ≠ 0 || decide (28672 < x) then some td else none
  | _ => none

/-- The FMT word of a class 0 tile that txp or tcvt uses and that is invalid (R191). (DEDUCED, notes/assumptions/28.md) -/
def tileFormatFault (e : Env) (s : State) (tiles : List Nat) : Option Nat :=
  ((tiles.map (shapeE e s)).find? fun t => !tsAcc t && tsClass t = 0 && !fmtValid (formatE e s (tsFsel t))).map tsFsel

/-- The checks of a Canopy command at issue, in the order of R211. (DEDUCED, notes/assumptions/28.md) -/
def canopyCheck (uf : Nat) (f : FieldE) (e : Env) (s : State) : Option Trap :=
  let tiles := namedTiles uf f
  let n := s.tileCount e.k
  let c := s.ctx e.k
  let g := (csrE e s 0x004).toNat
  match lmaskCheck e s with
  | some t => some t
  | none =>
    match tiles.find? fun j => decide (n ≤ j) with
    | some j => some (caseTrap 4 j)
    | none =>
      match (if uf = 9 || uf = 0xC || uf = 0xD then none else tiles.find? fun j => !tsValid (shapeE e s j)) with
      | some j => some (caseTrap 1 j)
      | none =>
        let format :=
          if uf ≤ 5 then
            (fwCheck (opsE f e s).toNat (formatE e s) (shapeE e s f.ta.toNat) (decide (4 ≤ uf))).map fun t =>
              slotTrap 9 .accessFault (BitVec.ofNat 64 t)
          else if uf = 0xA || uf = 0xB then (tileFormatFault e s tiles).map (caseTrap 2)
          else none
        match format with
        | some t => some t
        | none =>
          if uf ≤ 5 && !gangValid g c.pos (n / 2) then some (caseTrap 3 0)
          else if uf ≤ 5 && decide (2 ≤ gangCount g)
              && decide (((s.groupOf e.k).map fun x => x.decl.latches).getD 0 ≤ gangLatch g) then
            some (slotTrap 9 .accessFault (localTval 2 (gangLatch g)))
          else (shapeFault uf f e s).map (caseTrap 5)

/-! ## The rendezvous (R205, R206, R217 to R220) -/

/-- A rendezvous latch of a group. -/
def Group.latch (g : Group) (l : Nat) : RendezvousLatch := g.latches.getD l RendezvousLatch.clear
/-- A rendezvous latch changed. -/
def State.updLatch (s : State) (g l : Nat) (f : RendezvousLatch → RendezvousLatch) : State :=
  s.updGroup g fun x => { x with latches := setPlace x.latches l (f (x.latch l)) }

/-- The index of a position in a GANG word. -/
def memberIndex (g pos : Nat) : Nat := ((findPlace (fun p => p = pos) (gangMembers g) 0).map Prod.fst).getD 0

/-- The vote key of an mma-family command (R205). -/
def voteKey (uf : Nat) (f : FieldE) (e : Env) (s : State) : VoteKey :=
  let w := (opsE f e s).toNat
  { uf := uf, word := opsE f e s
    fmtA := if fwCa w = 0 then csrE e s (0x020 + fwFa w) else 0
    fmtB := if fwCb w = 0 then csrE e s (0x020 + fwFb w) else 0
    ta := f.ta.toNat, tsA := csrE e s (0x040 + f.ta.toNat), gang := csrE e s 0x004 }

/-- What a command captures of its issuer (R188, R218). -/
def captureMember (f : FieldE) (e : Env) (s : State) : Member :=
  let c := s.ctx e.k
  { index := memberIndex (csrE e s 0x004).toNat c.pos, pos := c.pos, td := f.td.toNat, ta := f.ta.toNat, ti := indexTile f
    sl := f.sl.toNat, flag := f.aux.toNat % 16, adt := csrE e s 0x060
    ts := Vector.ofFn fun j => csrE e s (0x040 + j.val)
    fmt := Vector.ofFn fun i => csrE e s (0x020 + i.val)
    lts := c.lts, phase := c.phaseRec.bind fun p => if p.exposed then none else some p.opened }

/-- The bundle of a diverged or expired rendezvous waits no longer: its context is READY (R219, R220). -/
def State.wakeMember (s : State) (k : Nat) : State :=
  if (s.ctx k).phase = .blocked then s.makeReady k else s.updCtx k fun c => { c with block := none }
/-- FORMAT_DIVERGE of a member (R219). -/
def divergeTrap (index first differing : Nat) : Trap :=
  slotTrap 9 .formatDiverge (BitVec.ofNat 64 (index + first * 2 ^ 8 + differing * 2 ^ 16))
/-- RENDEZVOUS_TIMEOUT of a member (R220). -/
def timeoutTrap (arrived index : Nat) : Trap := slotTrap 9 .rendezvousTimeout (BitVec.ofNat 64 (arrived + index * 2 ^ 8))

/-- A listed member of a diverged latch has trapped; the latch clears with the last of them (R219). -/
def RendezvousLatch.trapped (l : RendezvousLatch) (pos : Nat) : RendezvousLatch :=
  match l.diverged with
  | none => l
  | some d =>
    let d := { d with trapped := pos :: d.trapped }
    if d.listed.all d.trapped.contains then RendezvousLatch.clear else { l with diverged := some d }

/-- A key that differs diverges a rendezvous (R219): the arrived members become READY to trap, and the latch stays diverged until
every listed member has trapped. -/
def State.diverge (s : State) (g l pos index : Nat) : State :=
  match s.group? g with
  | none => s
  | some x =>
    let r := x.latch l
    let first := (r.members.headD { index := 0, pos := 0, td := 0, ta := 0, ti := 0, sl := 0, flag := 0, adt := 0
                                    ts := Vector.replicate 32 0, fmt := Vector.replicate 16 0, lts := 0, phase := none }).index
    let listed := gangMembers (((r.key.map VoteKey.gang).getD 0).toNat)
    let d : Diverged := { first := first, differing := index, since := s.clk, listed := listed, trapped := [pos] }
    let s := s.updLatch g l fun _ => { RendezvousLatch.clear with rvto := r.rvto, diverged := some d }
    r.members.foldl (fun s m =>
      let k := x.keys.getD m.pos 0
      (s.wakeMember k).updCtx k fun c => { c with rendezvousTrap := some (divergeTrap m.index first index), meetPc := c.pc }) s

/-- Whether a position has arrived at a rendezvous already: it does not arrive twice (R26). -/
def RendezvousLatch.holds (l : RendezvousLatch) (pos : Nat) : Bool := l.key.isSome && l.members.any fun m => m.pos = pos

/-- What the rendezvous condition says of an mma-family bundle (R31 step 5, R217). An arrival whose key differs is one that the replay log
names (R219, R420). While the latch is diverged every arrival traps, and the members listed are those of the first arrival's GANG
word (R219; DEDUCED, notes/assumptions/103.md). -/
def meetGang (uf : Nat) (f : FieldE) (e : Env) (s : State) : Meeting :=
  let c := s.ctx e.k
  let g := (csrE e s 0x004).toNat
  let l := gangLatch g
  let gid := s.gid e.k
  let latch := ((s.group? gid).map fun x => x.latch l).getD RendezvousLatch.clear
  let index := memberIndex g c.pos
  let key := voteKey uf f e s
  if 5 < uf || e.passed then .pass
  else
    match e.divergence with
    | some t =>
      .trap (fun s =>
        let s := s.updCtx e.k fun c => { c with rendezvousTrap := none }
        if t.cause = .formatDiverge then s.updLatch gid l fun r => r.trapped c.pos else s) t
    | none =>
      if gangCount g < 2 then .pass
      else if latch.holds c.pos then .wait id l
      else
        match latch.diverged with
        | some d => .trap (fun s => s.updLatch gid l fun r => r.trapped c.pos) (divergeTrap index d.first d.differing)
        | none =>
          let m := captureMember f e s
          match latch.key with
          | none =>
            .wait (fun s => (s.updLatch gid l fun _ =>
              { key := some key, members := [m], start := s.clk, rvto := csrE e s 0x0D0, diverged := none }).logEvent
              e.k 7 l 0 0) l
          | some k =>
            if k ≠ key then
              let first := (latch.members.head?.map Member.index).getD 0
              .trap (fun s => (s.diverge gid l c.pos index).logEvent e.k 7 l 0 0) (divergeTrap index first index)
            else if latch.members.length + 1 < gangCount g then
              .wait (fun s => (s.updLatch gid l fun r => { r with members := r.members ++ [m] }).logEvent e.k 7 l 0 0) l
            else .pass

/-- Whether an mma-family bundle would complete its rendezvous, or needs none (R217 step 3). -/
def needsEntry (uf : Nat) (e : Env) (s : State) : Bool :=
  let c := s.ctx e.k
  let g := (csrE e s 0x004).toNat
  let latch := ((s.groupOf e.k).map fun x => x.latch (gangLatch g)).getD RendezvousLatch.clear
  if uf ≤ 5 then
    !e.passed && e.divergence.isNone
      && (decide (gangCount g < 2)
        || (latch.diverged.isNone && !latch.holds c.pos && decide (gangCount g ≤ latch.members.length + 1)))
  else true

/-- Whether an mma-family bundle arrives at a rendezvous (R217). -/
def arrives (uf : Nat) (e : Env) (s : State) : Bool :=
  let g := (csrE e s 0x004).toNat
  let latch := ((s.groupOf e.k).map fun x => x.latch (gangLatch g)).getD RendezvousLatch.clear
  decide (uf ≤ 5) && decide (2 ≤ gangCount g) && !e.passed && e.divergence.isNone && !latch.holds (s.ctx e.k).pos

/-! ## Issue (R212, R213, R217, R218) -/

/-- The members of a joint command, in ascending index. -/
def sortMembers (ms : List Member) : List Member :=
  ((List.range 8).map fun i => ms.filter fun m => m.index = i).flatten

/-- A Canopy command enters its queue (R212), after every access that its issuer made before it (R295); with the last arrival of a
gang the rendezvous completes (R218). -/
def enterCanopy (uf : Nat) (f : FieldE) (e : Env) (s : State) : State :=
  let s := s.flush e.k
  let g := (csrE e s 0x004).toNat
  let l := gangLatch g
  let gid := s.gid e.k
  let m := captureMember f e s
  let joins := decide (uf ≤ 5) && decide (2 ≤ gangCount g)
  let earlier := if joins then (((s.group? gid).map fun x => x.latch l).getD RendezvousLatch.clear).members else []
  let members := sortMembers (earlier ++ [m])
  let lts := members.foldl (fun t x => laterOf t x.lts) 0
  let s :=
    if joins then
      let s := s.updLatch gid l fun _ => RendezvousLatch.clear
      let s := earlier.foldl (fun s x =>
        let k := ((s.group? gid).map fun g => g.keys.getD x.pos 0).getD 0
        (s.wakeMember k).updCtx k fun c => { c with rp := true, meetPc := c.pc, lts := laterOf c.lts lts }) s
      (s.updCtx e.k fun c => { c with lts := laterOf c.lts lts }).logEvent e.k 7 l 0 0
    else s
  let n := s.engineNumber e.core
  let s := s.pushEngine { s.commandOf e.k with
    uf := uf, td := if uf = 0xC then f.aux.toNat / 16 % 16 else f.td.toNat, ta := f.ta.toNat, sl := f.sl.toNat
    aux := f.aux.toNat, flag := f.aux.toNat % 16, operand := opsE f e s, members := members, lts := lts }
  if uf = 0xD then
    let r : RowTask :=
      { due := e.t, issued := e.t, slot := 9, k := 0, instr := .v2t f, rb := 0, rn := 15, lat := 0, step := 1, result := .rows, dst := n
        ws := true, inp := { frm := 0, mask := BitVec.allOnes 64, kaux := 0 }, srcA := .reg (f.aux.toNat / 16 % 16)
        srcB := .same Row.zero, srcC := .same Row.zero, kept := [], acc := 0, pat := [], contested := [] }
    match rowStep s e.k r with
    | (s, some r) => s.updCtx e.k fun c => { c with rows := c.rows ++ [r] }
    | (s, none) => s
  else s

/-- A Canopy command as the issue stage sees it. A member whose rendezvous has passed enters nothing (R218).
(DEDUCED, notes/assumptions/29.md) -/
def canopyOp (uf : Nat) (f : FieldE) : SlotOp :=
  { plainE uf f with
    check := canopyCheck uf f
    block := fun e s =>
      if needsEntry uf e s && !s.engineRoom e.core false then some (.canopyFull, id)
      else if arrives uf e s && s.replayHolds e.k 7 (gangLatch (csrE e s 0x004).toNat) 0 0 then
        some (.replayTurn 7 (gangLatch (csrE e s 0x004).toNat), id)
      else none
    hold := fun e s => if s.heldBefore e.k e.t then some .gap else none
    meet := meetGang uf f
    effect := fun e s => if uf ≤ 5 && e.passed then s else enterCanopy uf f e s }

/-- mma (R222). -/
def mmaOp (f : FieldE) : SlotOp := canopyOp 0x01 f
/-- mma (R222). -/
def execMma (f : FieldE) (s : State) : Host.Outcome State Fault Refusal := .next (issueOps [mmaOp f] s)
/-- mmaz (R222). -/
def mmazOp (f : FieldE) : SlotOp := canopyOp 0x02 f
/-- mmaz (R222). -/
def execMmaz (f : FieldE) (s : State) : Host.Outcome State Fault Refusal := .next (issueOps [mmazOp f] s)
/-- mmas (R222). -/
def mmasOp (f : FieldE) : SlotOp := canopyOp 0x03 f
/-- mmas (R222). -/
def execMmas (f : FieldE) (s : State) : Host.Outcome State Fault Refusal := .next (issueOps [mmasOp f] s)
/-- mmaa (R224). -/
def mmaaOp (f : FieldE) : SlotOp := canopyOp 0x04 f
/-- mmaa (R224). -/
def execMmaa (f : FieldE) (s : State) : Host.Outcome State Fault Refusal := .next (issueOps [mmaaOp f] s)
/-- mmai (R223). -/
def mmaiOp (f : FieldE) : SlotOp := canopyOp 0x05 f
/-- mmai (R223). -/
def execMmai (f : FieldE) (s : State) : Host.Outcome State Fault Refusal := .next (issueOps [mmaiOp f] s)
/-- lsl (R226, R227). -/
def lslOp (f : FieldE) : SlotOp := canopyOp 0x08 f
/-- lsl (R226, R227). -/
def execLsl (f : FieldE) (s : State) : Host.Outcome State Fault Refusal := .next (issueOps [lslOp f] s)
/-- tzero (R228). -/
def tzeroOp (f : FieldE) : SlotOp := canopyOp 0x09 f
/-- tzero (R228). -/
def execTzero (f : FieldE) (s : State) : Host.Outcome State Fault Refusal := .next (issueOps [tzeroOp f] s)
/-- txp (R229). -/
def txpOp (f : FieldE) : SlotOp := canopyOp 0x0A f
/-- txp (R229). -/
def execTxp (f : FieldE) (s : State) : Host.Outcome State Fault Refusal := .next (issueOps [txpOp f] s)
/-- tcvt (R230). -/
def tcvtOp (f : FieldE) : SlotOp := canopyOp 0x0B f
/-- tcvt (R230). -/
def execTcvt (f : FieldE) (s : State) : Host.Outcome State Fault Refusal := .next (issueOps [tcvtOp f] s)
/-- t2v (R231). -/
def t2vOp (f : FieldE) : SlotOp := canopyOp 0x0C f
/-- t2v (R231). -/
def execT2v (f : FieldE) (s : State) : Host.Outcome State Fault Refusal := .next (issueOps [t2vOp f] s)
/-- v2t (R231). -/
def v2tOp (f : FieldE) : SlotOp := canopyOp 0x0D f
/-- v2t (R231). -/
def execV2t (f : FieldE) (s : State) : Host.Outcome State Fault Refusal := .next (issueOps [v2tOp f] s)

/-! ## Tiles and their order (R181 to R185) -/

/-- A reader of a local tile of a group. -/
def State.tileReader (s : State) (g : Group) (j : Nat) : Nat → Nat :=
  fun off => (s.byteAt (tileKey (g.cluster.getD 0) (g.tile j) off)).toNat
/-- Bytes written to a local tile of a group. -/
def State.tileWrite (s : State) (g : Group) (j off : Nat) (bytes : List Byte) : State :=
  s.pokeBytes (tileKey (g.cluster.getD 0) (g.tile j) off) bytes

/-- The tiles that a Canopy command reads and writes, as local names (R185). -/
def EngineCmd.canopyTiles (c : EngineCmd) : List Nat × List Nat :=
  let tds := c.members.map Member.td
  let tis := c.members.map Member.ti
  match c.uf with
  | 2 => ([c.ta], tds)
  | 1 | 3 => (c.ta :: tds, tds)
  | 4 | 5 => (c.ta :: tds ++ tis, tds)
  | 9 | 0xD => ([], [c.td])
  | 0xA | 0xB => ([c.ta], [c.td])
  | 0xC => ([c.ta], [])
  | _ => ([], [])

/-- The digits of an element number, lowest dimension first. -/
def digitsOf : List Nat → Nat → List Nat
  | [], _ => []
  | x :: xs, e => e % x :: digitsOf xs (e / x)
/-- The lowest and the highest address of the elements from one on, in a space of extents and strides; none where there is none left
(R337): those that share the higher digits of the first, and those whose higher digits lie above. -/
def spanOf (base : Int) (first : Nat) : List Nat → List Int → Option (Int × Int)
  | [], _ => if first = 0 then some (base, base) else none
  | x :: xs, ds =>
    let reach (at' : Int × Int) (i : Nat) : Int × Int :=
      let (lo, hi) := ((i : Int) * ds.headD 0, ((x : Int) - 1) * ds.headD 0)
      (at'.1 + min lo hi, at'.2 + max lo hi)
    let row := (List.zipWith (· * ·) ((digitsOf xs (first / x)).map Int.ofNat) ds.tail).foldl (· + ·) base
    if xs.foldl (· * ·) 1 ≤ first / x then none
    else
      let here := reach (row, row) (first % x)
      match spanOf base (first / x + 1) xs ds.tail with
      | none => some here
      | some r => some (min here.1 (reach r 0).1, max here.2 (reach r 0).2)

/-- The local tiles between the lowest and the highest address of a tile space. -/
def tilesBetween (count : Nat) : Option (Int × Int) → List Nat
  | none => []
  | some (lo, hi) =>
    if lo < 0 || 2 ^ 20 ≤ hi then List.range count
    else (List.range count).filter fun j => decide (lo / 32768 ≤ (j : Int)) && decide ((j : Int) ≤ hi / 32768)

/-- The tiles that a copy command reads and writes (R185, R337, R338): from the position at which it started until it completes;
before it has read its descriptor, any tile. -/
def EngineCmd.copyTiles (c : EngineCmd) (count : Nat) : List Nat × List Nat :=
  let all := List.range count
  match c.uf with
  | 0x12 => ([], [c.td])
  | 0x13 => ([c.ta], [])
  | _ =>
    match c.desc.filter fun _ => c.started with
    | none => (all, all)
    | some d =>
      let ext := d.ext.take (d.ctl / 64 % 16 + 1)
      let first := c.origin / 2 ^ (d.ctl / 16 % 4)
      (if d.ctl % 4 ≠ 2 then [] else if c.uf = 0x11 then all else tilesBetween count (spanOf d.src first ext d.sstr),
       if d.ctl / 4 % 4 ≠ 2 then [] else tilesBetween count (spanOf d.dst first ext d.dstr))

/-- The tiles that a command reads and writes. -/
def State.commandTiles (s : State) (c : EngineCmd) : List Nat × List Nat :=
  if c.copy then
    if c.packet then ([], []) else c.copyTiles (2 * ((c.group.bind s.group?).map fun g => g.decl.n).getD 0)
  else c.canopyTiles

/-- Whether a command waits for a tile that an earlier-issued command of its group still has to write, or, before it writes, to
read (R185). -/
def State.waitsTile (s : State) (n : Nat) (c : EngineCmd) : Bool :=
  let (r, w) := s.commandTiles c
  s.engine.any fun x => decide (x.1 < n) && x.2.group.isSome && x.2.group = c.group
    && let (r', w') := s.commandTiles x.2
       (w'.any fun j => r.contains j || w.contains j) || r'.any w.contains

/-! ## Start (R202, R214) -/

/-- The command that Canopy runs or starts next (R212). (DESIGN CHOICE, notes/assumptions/52.md) -/
def State.canopyHead (s : State) (cluster : Nat) : Option (Nat × EngineCmd) :=
  s.engine.find? fun x => !x.2.copy && x.2.queued && x.2.cluster = cluster

/-- A latch record of a command's group. -/
def State.latchRecord (s : State) (c : EngineCmd) (sl : Nat) : LatchRecord :=
  ((c.group.bind s.group?).bind fun g => g.records[sl]?).getD LatchRecord.empty
/-- A latch record of a group set. -/
def State.setRecord (s : State) (c : EngineCmd) (sl : Nat) (r : LatchRecord) : State :=
  match c.group with
  | some g => s.updGroup g fun x => { x with records := setPlace x.records sl r }
  | none => s

/-- The latches that a command names. -/
def EngineCmd.latches (c : EngineCmd) : List Nat :=
  if c.joint then (c.members.map Member.sl).eraseDups else if c.uf = 8 then [c.sl] else []

/-- A latch name taken for a group: another group's contents spill, the group's own are refilled unless an lsl overwrites them
(R202). -/
def State.takeLatch (s : State) (c : EngineCmd) (sl : Nat) : State :=
  let owner := ((s.cluster c.cluster).latchOwner[sl]?).bind id
  if owner = c.group then s
  else
    let s := if owner.isSome then (s.count (ctrSpill (c.cluster % 256)) 1).clusterEvent c.cluster 0x62 1 else s
    let s := if c.uf ≠ 8 && (s.latchRecord c sl).loaded then (s.count (ctrRefill (c.cluster % 256)) 1).clusterEvent c.cluster 0x63 1 else s
    s.updCluster c.cluster fun x => { x with latchOwner := x.latchOwner.setIfInBounds sl c.group }

/-- What a group holds in the stationary latches of a cluster spills to its save area (R202). -/
def State.spillLatches (s : State) (cluster g : Nat) : State :=
  let mine := ((s.cluster cluster).latchOwner.toList.filter fun o => o = some g).length
  let s := (s.count (ctrSpill (cluster % 256)) mine).clusterEvent cluster 0x62 mine
  s.updCluster cluster fun x => { x with latchOwner := x.latchOwner.map fun o => if o = some g then none else o }

/-- The member that issued a command. -/
def EngineCmd.issuer (c : EngineCmd) : Option Member := c.members.find? fun m => m.pos = c.pos
/-- The TS word of a tile as a command's issuer saw it. -/
def EngineCmd.shape (c : EngineCmd) (j : Nat) : Nat := ((c.issuer.bind fun m => m.ts[j]?).getD 0).toNat
/-- An FMT word as a command's issuer saw it. -/
def EngineCmd.format (c : EngineCmd) (i : Nat) : Nat := ((c.issuer.bind fun m => m.fmt[i]?).getD 0).toNat
/-- The format word of a command. -/
def EngineCmd.word (c : EngineCmd) : Nat := c.operand.toNat
/-- The width of the B elements that the format word gives. -/
def EngineCmd.widthB (c : EngineCmd) : Nat := classWidth (fwCb c.word) (c.format (fwFb c.word))
/-- The width of the A elements. -/
def EngineCmd.widthA (c : EngineCmd) : Nat := classWidth (fwCa c.word) (c.format (fwFa c.word))

/-- Whether the start checks of R222 hold for an mma-family command. -/
def State.mmaReady (s : State) (c : EngineCmd) : Bool :=
  let recs := c.members.map fun m => s.latchRecord c m.sl
  let k := (recs.head?.map LatchRecord.k).getD 0
  recs.all (fun r => r.loaded && r.cls = fwCb c.word && (r.cls ≠ 0 || fmtWidth r.fmt.toNat = c.widthB) && r.k = k)
    && decide (k * c.widthA / 8 + (if fwScm c.word % 2 = 1 then k / 32 else 0) ≤ tsRowBytes (c.shape c.ta))

/-- The 32 bytes of a latch descriptor make a valid one (R226): ADDR, STRIDE, K, class, FMT word, SCADDR, KOF, NOF. -/
structure LatchDesc where
  addr : Nat
  stride : Nat
  k : Nat
  cls : Nat
  fmt : Nat
  scaddr : Nat
  kof : Nat
  nof : Nat
deriving DecidableEq, Repr

/-- A latch descriptor read from its bytes; nothing where it is invalid (R226). -/
def EngineCmd.latchDesc (c : EngineCmd) (bs : List Byte) : Option LatchDesc :=
  let b := fieldAt bs 0x0E 1
  let cls := b / 16 % 8
  let fmt := if cls = 0 then c.format (b % 16) else 0
  let w := classWidth cls fmt
  let k := fieldAt bs 0x0C 2
  let stride := fieldAt bs 0x08 4
  if b / 128 ≠ 0 || fieldAt bs 0x0F 1 ≠ 0 || fieldAt bs 0x1C 4 ≠ 0 || decide (3 < cls) || (cls = 0 && !fmtValid fmt)
      || k = 0 || k % 32 ≠ 0 || decide (2048 / w < k) || decide (stride < 4 * w) || stride % 4 ≠ 0 then none
  else
    some { addr := fieldAt bs 0 8, stride := stride, k := k, cls := cls, fmt := fmt, scaddr := fieldAt bs 0x10 8
           kof := 32 * fieldAt bs 0x18 2, nof := 32 * fieldAt bs 0x1A 2 }

/-! ## The units of work (R215 Table 2) -/

/-- An adapter of a row: rank, class cost (R225), α, and the decoded rows of D and U (R208). -/
structure Adapter where
  rank : Nat
  cost : Nat
  alpha : Nat
  down : List (List FloatNum)
  up : List (List FloatNum)

/-- An adapter entry's fields, where it is valid (R208, R209): rank, class, FMT word, α, D and U with their strides. -/
structure AdapterEntry where
  rank : Nat
  cls : Nat
  fmt : Nat
  alpha : Nat
  dn : Nat
  up : Nat
  dnStride : Nat
  upStride : Nat
deriving DecidableEq, Repr

/-- An adapter entry read from its bytes for a member; nothing where it is invalid (R209). A class code of 4 to 7 is one
(DESIGN CHOICE, notes/assumptions/95.md). -/
def Member.entry (m : Member) (bs : List Byte) : Option AdapterEntry :=
  let b := fieldAt bs 0x19 1
  let dflt := decide (128 ≤ b)
  let cls := if dflt then 0 else b / 16 % 8
  let fmt := ((m.fmt[if dflt then m.adt.toNat / 2 ^ 60 else b % 16]?).getD 0).toNat
  let e : AdapterEntry :=
    { rank := fieldAt bs 0x18 1, cls := cls, fmt := fmt, alpha := fieldAt bs 0x1C 4, dn := fieldAt bs 0 8
      up := fieldAt bs 8 8, dnStride := fieldAt bs 0x10 4, upStride := fieldAt bs 0x14 4 }
  if decide (64 < e.rank) || decide (3 < cls) || (cls = 0 && (!fmtValid fmt || fmtInteger fmt))
      || e.dn % 16 ≠ 0 || e.up % 16 ≠ 0 || e.dnStride % 16 ≠ 0 || e.upStride % 16 ≠ 0
      || decide (8 ≤ fieldAt bs 0x1A 1) || fieldAt bs 0x1B 1 ≠ 0 || ((bs.drop 0x20).any fun x => x ≠ 0) then none
  else some e

/-- The cost of a class in beats (R216 Table 3, R225). -/
def classCost (cls : Nat) : Nat := match cls with | 0 => 1 | 3 => 16 | _ => 4

/-- The rows of a factor, decoded: n elements each. -/
def factorRows (e : AdapterEntry) (n : Nat) (rows : List (List Byte)) : List (List FloatNum) :=
  rows.map fun bs =>
    let rd (i : Nat) : Nat := (bs.getD i 0).toNat
    tabulate (rowNum rd e.cls e.fmt 0) n 0

/-- The adapter of an identifier for a member; its entry is read once per command for an address and identifier (R209, R224,
R443). -/
def State.readAdapter (s : State) (c : EngineCmd) (m : Member) (id : Nat) : EngineResult Adapter :=
  let at' := bitsOf m.adt.toNat 56 6 * 64 + id * 64 * 2 ^ bitsOf m.adt.toNat 59 57
  let r := s.latchRecord c m.sl
  let bytes : EngineResult (List Byte) :=
    match c.entries.find? fun x => x.1 = at' && x.2.1 = id with
    | some (_, _, bs) => { value := .ok bs, cmd := c, state := s }
    | none =>
      let q := s.engineRead c at' 64 at' 64
      match q.value with
      | .ok bs => { q with cmd := { q.cmd with entries := (at', id, bs) :: q.cmd.entries } }
      | .error _ => q
  match bytes.value with
  | .error x => { value := .error x, cmd := bytes.cmd, state := bytes.state }
  | .ok bs =>
    match m.entry bs with
    | none => { value := .error { cause := .accessFault, address := at', ref := at' }, cmd := bytes.cmd, state := bytes.state }
    | some e =>
      let w := classWidth e.cls e.fmt
      let d := bytes.state.engineRows bytes.cmd at' e.dnStride (r.k * w / 8) e.rank (e.dn + r.kof * w / 8)
      match d.value with
      | .error x => { value := .error x, cmd := d.cmd, state := d.state }
      | .ok down =>
        let u := d.state.engineRows d.cmd at' e.upStride (32 * w / 8) e.rank (e.up + r.nof * w / 8)
        match u.value with
        | .error x => { value := .error x, cmd := u.cmd, state := u.state }
        | .ok up =>
          { value := .ok { rank := e.rank, cost := classCost e.cls, alpha := e.alpha, down := factorRows e r.k down, up := factorRows e 32 up }
            cmd := u.cmd, state := u.state }

/-- The 16-bit value at the start of a row of a member's index tile (R223, R224). -/
def State.indexOf (s : State) (g : Group) (m : Member) (i : Nat) : Nat :=
  let rd := s.tileReader g m.ti
  let base := i * tsRowBytes ((m.ts[m.ti]?).getD 0).toNat
  rd base + 256 * rd (base + 1)

/-- The adapters of the rows of a block for one member, row by row (R209). -/
def State.blockAdapters (s : State) (g : Group) (c : EngineCmd) (m : Member) : List Nat → EngineResult (List (Nat × Adapter))
  | [] => { value := .ok [], cmd := c, state := s }
  | i :: is =>
    let id := s.indexOf g m i
    if id = 0xFFFF then s.blockAdapters g c m is
    else
      let r := s.readAdapter c m id
      match r.value with
      | .error x => { value := .error x, cmd := r.cmd, state := r.state }
      | .ok a =>
        let q := r.state.blockAdapters g r.cmd m is
        match q.value with
        | .error x => { value := .error x, cmd := q.cmd, state := q.state }
        | .ok more => { value := .ok ((i, a) :: more), cmd := q.cmd, state := q.state }

/-- The adapters of a block for every member, member by member. -/
def State.gangAdapters (s : State) (g : Group) (c : EngineCmd) (rows : List Nat) :
    List Member → EngineResult (List (Nat × List (Nat × Adapter)))
  | [] => { value := .ok [], cmd := c, state := s }
  | m :: ms =>
    let r := s.blockAdapters g c m rows
    match r.value with
    | .error x => { value := .error x, cmd := r.cmd, state := r.state }
    | .ok a =>
      let q := r.state.gangAdapters g r.cmd rows ms
      match q.value with
      | .error x => { value := .error x, cmd := q.cmd, state := q.state }
      | .ok more => { value := .ok ((m.index, a) :: more), cmd := q.cmd, state := q.state }

/-- The adapter term of one accumulator element (R224): aRow and scales give A's row. -/
def Adapter.add (a : Adapter) (kb : Nat) (aBlock : Nat → List FloatNum) (sa : Nat → Nat) (n acc : Nat) : Nat :=
  if a.rank = 0 then acc
  else
    let h (d : List FloatNum) : Nat := (List.range kb).foldl (fun h b =>
      add32 h (scale32 (treeSum (List.zipWith numMul32 (aBlock b) ((d.drop (32 * b)).take 32))) (sa b) 127)) 0
    let u := (List.zip a.down a.up).foldl (fun u p =>
      add32 u (numMul32 (floatDecode .binary32 (h p.1)) (p.2.getD n (.fin false 0 0)))) 0
    add32 acc (mul32 a.alpha u)

/-- One row of an mma-family command for one member: the 32 new accumulator elements (R222 to R224). The whole row of A is read before the
row is written, also where A is the accumulator tile (DEDUCED, notes/assumptions/104.md). -/
def State.mmaRow (s : State) (g : Group) (c : EngineCmd) (m : Member) (ad : Option Adapter) (i d : Nat) : List Nat :=
  let w := c.word
  let rec' := s.latchRecord c m.sl
  let kb := rec'.k / 32
  let rdA := s.tileReader g c.ta
  let base := i * tsRowBytes (c.shape c.ta)
  let fmtA := c.format (fwFa w)
  let fmtB := c.format (fwFb w)
  let rdB (x : Nat) : Nat := (rec'.data.getD x 0).toNat
  let sa (b : Nat) : Nat := if fwScm w % 2 = 1 then rdA (base + rec'.k * c.widthA / 8 + b) else 127
  let sb (n b : Nat) : Nat := if 2 ≤ fwScm w then (rec'.scales.getD (32 * b + n) 127).toNat else 127
  let aBlock (b : Nat) : List FloatNum := tabulate (rowNum rdA (fwCa w) fmtA base) 32 (32 * b)
  let bBlock (n b : Nat) : List FloatNum :=
    tabulate (fun k => classDecode (fwCb w) fmtB (rowElem rdB (4 * c.widthB * k) c.widthB n)) 32 (32 * b)
  let old (n : Nat) : Nat :=
    if c.uf = 2 then 0 else ofBytes (tabulate (fun o => BitVec.ofNat 8 (s.tileReader g m.td o)) 4 (128 * d + 4 * n))
  (List.range 32).map fun n =>
    let acc := accumulateBlocks (fwAcct w = 1) (fwSat w) (c.uf = 3) (fun b => (sa b, sb n b, aBlock b, bBlock n b)) kb 0 (old n)
    match ad with
    | some a => a.add kb aBlock sa n acc
    | none => acc

/-- The rows of a 64-row block. -/
def blockRows (rows ib : Nat) : List Nat := (List.range 64).filterMap fun i => if 64 * ib + i < rows then some (64 * ib + i) else none

/-- The beats of one 64-row block of a member (R216 Table 3): kb is the number of K-blocks. -/
def EngineCmd.blockBeats (c : EngineCmd) (kb : Nat) : Nat :=
  if fwCa c.word = 0 && decide (c.widthA ≤ 4) && decide (c.widthB ≤ 4) then (kb + 1) / 2 else classCost (fwCa c.word) * kb
/-- The adapter beats of one 64-row block of a member (R225). -/
def adapterBeats (kb : Nat) (ads : List (Nat × Adapter)) : Nat :=
  ads.foldl (fun n a => max n a.2.cost) 0 * ((ads.foldl (fun n a => max n a.2.rank) 0 + 31) / 32) * (kb + 1)
/-- The beats in which bits per source row are written to a destination, for the row at a position: one for each KiB, rounded up
over the rows so far (R216). -/
def rowBeats (bits i : Nat) : Nat := ((i + 1) * bits + 8191) / 8192 - (i * bits + 8191) / 8192

/-- One 64-row block of an mma-family command, for every member in ascending index, and its beats (R215, R216, R222 to R225). -/
def State.mmaUnit (s : State) (g : Group) (c : EngineCmd) : EngineResult Nat :=
  let rows := blockRows (tsRows (c.shape c.ta)) c.position
  let target (m : Member) (i : Nat) : Nat := if c.uf = 5 then s.indexOf g m i else i
  let beyond := c.uf = 5 && c.members.any fun m => rows.any fun i =>
    let d := target m i
    decide (d ≠ 0xFFFF) && decide (tsRows ((m.ts[m.td]?).getD 0).toNat ≤ d)
  if beyond then { value := .error { cause := .accessFault, address := 0, ref := 0 }, cmd := c, state := s }
  else
    let r := if c.uf = 4 then s.gangAdapters g c rows c.members else { value := .ok [], cmd := c, state := s }
    match r.value with
    | .error x => { value := .error x, cmd := r.cmd, state := r.state }
    | .ok ads =>
      let row (m : Member) (s : State) (i : Nat) : State :=
        let d := target m i
        if c.uf = 5 && d = 0xFFFF then s
        else
          let ad := ((ads.find? fun x => x.1 = m.index).bind fun x => x.2.find? fun y => y.1 = i).map Prod.snd
          s.tileWrite g m.td (128 * d) ((s.mmaRow g r.cmd m ad i d).map (toBytes 4)).flatten
      let beats := c.members.foldl (fun n m =>
        let kb := (s.latchRecord c m.sl).k / 32
        n + c.blockBeats kb + adapterBeats kb (((ads.find? fun x => x.1 = m.index).map Prod.snd).getD [])) 0
      { value := .ok beats, cmd := r.cmd, state := c.members.foldl (fun s m => rows.foldl (row m) s) r.state }

/-- lsl as a whole (R226, R227): the descriptor, the K rows, the scales; a fault leaves the record not loaded. It takes one beat for
each KiB of rows and scales that it loads, rounded up (R216; DEDUCED, notes/assumptions/52.md). -/
def State.lslUnit (s : State) (c : EngineCmd) : EngineResult Nat :=
  let at' := c.operand.toNat
  let fail (s : State) (c : EngineCmd) (x : EngineFault) : EngineResult Nat :=
    { value := .error x, cmd := c, state := s }
  let bad : EngineFault := { cause := .accessFault, address := at', ref := at' }
  if at' % 32 ≠ 0 then fail s c bad
  else
    let h := s.engineRead c at' 32 at' 32
    match h.value with
    | .error x => fail h.state h.cmd x
    | .ok bs =>
      match c.latchDesc bs with
      | none => fail h.state h.cmd bad
      | some d =>
        let w := classWidth d.cls d.fmt
        let unload (s : State) : State := s.setRecord c c.sl LatchRecord.empty
        let r := h.state.engineRows h.cmd at' d.stride (4 * w) d.k d.addr
        match r.value with
        | .error x => fail (unload r.state) r.cmd x
        | .ok rows =>
          let q := if d.scaddr = 0 then { value := .ok (List.replicate d.k 127), cmd := r.cmd, state := r.state }
            else r.state.engineBytes r.cmd at' (linesOf d.k) d.scaddr d.k
          match q.value with
          | .error x => fail (unload q.state) q.cmd x
          | .ok scales =>
            { value := .ok ((4 * w * d.k + (if d.scaddr = 0 then 0 else d.k) + 1023) / 1024), cmd := q.cmd
              state := q.state.setRecord c c.sl
                { loaded := true, k := d.k, cls := d.cls, fmt := BitVec.ofNat 64 d.fmt, kof := d.kof, nof := d.nof
                  data := rows.flatten, scales := scales } }

/-- An element of w bits written at index j of a row that starts at byte base (R183). -/
def State.tileElement (s : State) (g : Group) (j base w i x : Nat) : State :=
  let first := base + w * i / 8
  let n := (w * i % 8 + w + 7) / 8
  let old := ofBytes (tabulate (fun o => BitVec.ofNat 8 (s.tileReader g j o)) n first)
  let lo := old % 2 ^ (w * i % 8)
  let hi := old / 2 ^ (w * i % 8 + w)
  s.tileWrite g j first (toBytes n (lo + x % 2 ^ w * 2 ^ (w * i % 8) + hi * 2 ^ (w * i % 8 + w)))

/-- One source row of txp (R229). -/
def State.txpUnit (s : State) (g : Group) (c : EngineCmd) : State :=
  let a := c.shape c.ta
  let w := tileWidth a (c.format (tsFsel a))
  let i := c.position
  (List.range (tsRowBytes a * 8 / w)).foldl (fun s e =>
    s.tileElement g c.td (e * tsRowBytes (c.shape c.td)) w i (rowElem (s.tileReader g c.ta) (i * tsRowBytes a) w e)) s

/-- One source row of tcvt (R230). A class 4 element has no value that the spec states, so its result is open.
(DEDUCED, notes/assumptions/58.md) -/
def State.tcvtUnit (s : State) (g : Group) (c : EngineCmd) : State :=
  let a := c.shape c.ta
  let d := c.shape c.td
  let fa := c.format (tsFsel a)
  let fd := c.format (tsFsel d)
  let w := tileWidth a fa
  let v := tileWidth d fd
  let i := c.position
  let int := c.aux / 16 % 2 = 1
  let value (x : Nat) : FloatNum :=
    if tsAcc a then (if int then numOfInt (signedOf 32 x) else floatDecode .binary32 x) else classDecode (tsClass a) fa x
  let isOpen := (!tsAcc a && tsClass a = 4) || (!tsAcc d && tsClass d = 4)
  (List.range c.operand.toNat).foldl (fun s e =>
    let x := rowElem (s.tileReader g c.ta) (i * tsRowBytes a) w e
    let y := if isOpen then (s.openWord (2 ^ 157 + 4096 * i + e)).toNat else tcvtCode (tsClass d) fd (tsAcc d) (value x)
    s.tileElement g c.td (i * tsRowBytes d) v e y) s

/-- t2v (R231): tile bytes to a vector register, and to the checkpoint of an overrun that began since. -/
def State.t2vUnit (s : State) (g : Group) (c : EngineCmd) : State :=
  let rd := s.tileReader g c.ta
  let word (o : Nat) : W32 := BitVec.ofNat 32 (ofBytes (tabulate (fun i => BitVec.ofNat 8 (rd i)) 4 o))
  let reg : VReg := Vector.ofFn fun r => Vector.ofFn fun l => word (c.operand.toNat + 256 * r.val + 4 * l.val)
  let k := s.issuerOf c
  let s := (List.range 16).foldl (fun s r => s.putAsync k c.forked c.td r (BitVec.allOnes 64) (reg[r]?.getD Row.zero)) s
  match (s.ctx k).overrun with
  | some b => s.updBank (coreOf k) b fun x => { x with snapshot := { x.snapshot with v := x.snapshot.v.setIfInBounds c.td reg } }
  | none => s

/-- v2t (R231): the rows it has read to tile bytes. -/
def State.v2tUnit (s : State) (g : Group) (c : EngineCmd) : State :=
  s.tileWrite g c.td c.operand.toNat (c.rows.map fun r => (tabulate (fun l => toBytes 4 (laneOf r l).toNat) 64 0).flatten).flatten

/-- The units of a Canopy command (R215 Table 2). -/
def EngineCmd.units (c : EngineCmd) : Nat :=
  if c.joint then (tsRows (c.shape c.ta) + 63) / 64
  else if c.uf = 0xA || c.uf = 0xB then tsRows (c.shape c.ta) else 1

/-- One unit of a Canopy command, and the beats that it takes (R216). -/
def State.canopyUnit (s : State) (g : Group) (c : EngineCmd) : EngineResult Nat :=
  let done (beats : Nat) (s : State) : EngineResult Nat := { value := .ok beats, cmd := c, state := s }
  let d := c.shape c.td
  if c.joint then s.mmaUnit g c
  else
    match c.uf with
    | 8 => s.lslUnit c
    | 9 => done 32 { s with mem := memClear s.mem (tileKey (g.cluster.getD 0) (g.tile c.td) 0) 32768 }
    | 0xA => done (rowBeats (8 * tsRowBytes (c.shape c.ta)) c.position) (s.txpUnit g c)
    | 0xB => done (rowBeats (c.operand.toNat * tileWidth d (c.format (tsFsel d))) c.position) (s.tcvtUnit g c)
    | 0xC => done 4 (s.t2vUnit g c)
    | _ => done 4 (s.v2tUnit g c)

/-- A Canopy command that fails (R214, R215): it leaves its queue, and cancels phases, ends its group, or is held with a
record. -/
def State.failCanopy (s : State) (n : Nat) (c : EngineCmd) (x : EngineFault) : State :=
  let s := s.dropEngine n
  match s.poisonPhases c x with
  | some s => s
  | none => (s.holdEngine { c with entries := [], started := false } x c.position).2

/-- Up to n units of the command that Canopy runs, their beats counted (R411); with the last one it completes and sets every member's
flag (R213, R218). -/
def State.runCanopy (s : State) (id : Nat) : Nat → State
  | 0 => s
  | n + 1 =>
    match mapGet? s.engine id with
    | none => s
    | some c =>
      match c.group.bind s.group? with
      | none => s.dropEngine id
      | some g =>
        let r := s.canopyUnit g c
        match r.value with
        | .error x => r.state.failCanopy id r.cmd x
        | .ok beats =>
          let c := { r.cmd with position := c.position + 1 }
          let s := r.state.clusterEvent c.cluster 0x60 beats
          if c.units ≤ c.position then c.members.foldl (fun s m => s.joinEngine c m.pos m.flag) (s.dropEngine id)
          else (s.updEngine id fun _ => c).runCanopy id n

/-- CANOPY_START (R202, R212, R214): the next command starts, unless it waits for a tile or for rows of v2t; its start check may
fail. (DESIGN CHOICE, notes/assumptions/52.md) -/
def canopyStart (cluster : Nat) (s : State) : State :=
  match s.canopyHead cluster with
  | none => s
  | some (n, c) =>
    if c.started || s.waitsTile n c || (c.uf = 0xD && decide (c.rows.length < 16)) then s
    else
      let s := c.latches.foldl (fun s sl => s.takeLatch c sl) s
      if c.joint && !s.mmaReady c then s.failCanopy n c { cause := .accessFault, address := 0, ref := 0 }
      else s.updEngine n fun c => { c with started := true }
/-- CANOPY_START. -/
def execEvCanopyStart (cluster : Nat) (s : State) : Host.Outcome State Fault Refusal := .next (canopyStart cluster s)

/-- CANOPY_COMPLETE (R213, R215): the running command does a number of units. -/
def canopyComplete (cluster units : Nat) (s : State) : State :=
  match s.canopyHead cluster with
  | some (n, c) => if c.started then s.runCanopy n units else s
  | none => s
/-- CANOPY_COMPLETE. -/
def execEvCanopyComplete (cluster units : Nat) (s : State) : Host.Outcome State Fault Refusal :=
  .next (canopyComplete cluster units s)

/-- The first address that a member's adapter of an identifier makes a command read: its entry, or where that has been read already, the
first row of D (R209, R443). -/
def State.adapterRead (s : State) (c : EngineCmd) (m : Member) (id : Nat) : Option Nat :=
  let at' := bitsOf m.adt.toNat 56 6 * 64 + id * 64 * 2 ^ bitsOf m.adt.toNat 59 57
  match c.entries.find? fun x => x.1 = at' && x.2.1 = id with
  | none => some at'
  | some (_, _, bs) =>
    (m.entry bs).bind fun e =>
      if e.rank = 0 then none else some ((e.dn + (s.latchRecord c m.sl).kof * classWidth e.cls e.fmt / 8) % 2 ^ 64)
/-- The first address that the next unit of a command reads, where it reads memory. -/
def State.firstRead (s : State) (g : Group) (c : EngineCmd) : Option Nat :=
  match c.uf with
  | 8 => some c.operand.toNat
  | 4 => c.members.findSome? fun m => (blockRows (tsRows (c.shape c.ta)) c.position).findSome? fun i =>
      let id := s.indexOf g m i
      if id = 0xFFFF then none else s.adapterRead c m id
  | _ => none
/-- The line that an engine command reaches at an address comes to hold uncorrectable data (R389). -/
def State.poisonAt (s : State) (c : EngineCmd) (va : Nat) : State :=
  match s.enginePlace c .load 1 va with
  | .ok p => s.poisonLine (lineOf p.key)
  | .error _ => s

/-- CANOPY_FAULT (R215): the running command fails at its next unit, by what that unit meets: where it reads memory, the first line that
it reads is found to hold uncorrectable data, and is poisoned (R389; DESIGN CHOICE, notes/assumptions/62.md). -/
def canopyFault (cluster : Nat) (s : State) : State :=
  match s.canopyHead cluster with
  | some (n, c) =>
    match c.group.bind s.group? with
    | some g =>
      let bad := match s.firstRead g c with | some va => s.poisonAt c va | none => s
      let r := bad.canopyUnit g c
      match r.value with
      | .error x => if c.started then r.state.failCanopy n r.cmd x else s
      | .ok _ => s
    | none => s
  | none => s
/-- CANOPY_FAULT. -/
def execEvCanopyFault (cluster : Nat) (s : State) : Host.Outcome State Fault Refusal := .next (canopyFault cluster s)

/-! ## The ends of a rendezvous (R219, R220) -/

/-- RENDEZVOUS_TIMEOUT (R220): the timer of a rendezvous reaches its RVTO; every arrived member traps when it reissues. -/
def rendezvousTimeout (group latch : Nat) (s : State) : State :=
  match s.group? group with
  | none => s
  | some g =>
    let r := g.latch latch
    if r.key.isSome && expired r.start r.rvto.toNat s.clk then
      let arrived := r.members.foldl (fun a m => a ||| 2 ^ m.index) 0
      let s := s.updLatch group latch fun _ => RendezvousLatch.clear
      r.members.foldl (fun s m =>
        let k := g.keys.getD m.pos 0
        (s.wakeMember k).updCtx k fun c => { c with rendezvousTrap := some (timeoutTrap arrived m.index), meetPc := c.pc }) s
    else s
/-- RENDEZVOUS_TIMEOUT. -/
def execEvRendezvousTimeout (group latch : Nat) (s : State) : Host.Outcome State Fault Refusal :=
  .next (rendezvousTimeout group latch s)

/-- DIVERGED_STATE_END (R219): every listed member has trapped, or RVTO of the first arrival has passed. -/
def divergedStateEnd (group latch : Nat) (s : State) : State :=
  match (s.group? group).bind fun g => (g.latch latch).diverged.map fun d => (g.latch latch, d) with
  | some (r, d) =>
    if d.listed.all d.trapped.contains || expired d.since r.rvto.toNat s.clk then
      s.updLatch group latch fun _ => RendezvousLatch.clear
    else s
  | none => s
/-- DIVERGED_STATE_END. -/
def execEvDivergedStateEnd (group latch : Nat) (s : State) : Host.Outcome State Fault Refusal :=
  .next (divergedStateEnd group latch s)

end Sys2Proof.Machine
end

