-- ==== Sys2Proof/Machine/Copy.lean ====
section
/-! DEFINITION. The copy and gather engine: its commands at issue (R335, R336), the descriptor (R333, R334), the elements
(R337, R338), the completion word and the cancel value (R339, R340), faults (R341, R342), and the refetch of a phase (R456). -/

namespace Sys2Proof.Machine

/-! ## Issue (R331, R335, R336) -/

/-- The tile that tload or tstore names (R335 Table 9). -/
def copyTile (uf : Nat) (f : FieldE) : Option Nat :=
  match uf with
  | 0x12 => some f.td.toNat
  | 0x13 => some f.ta.toNat
  | _ => none

/-- The checks of a copy command at issue, in the order of R336. -/
def copyCheck (uf : Nat) (f : FieldE) (e : Env) (s : State) : Option Trap :=
  let b := ((s.groupOf e.k).map fun g => g.decl.b).getD 0
  let d := opsE f e s
  match lmaskCheck e s with
  | some t => some t
  | none =>
    match (copyTile uf f).filter fun j => decide (s.tileCount e.k ≤ j) with
    | some j => some (caseTrap 4 j)
    | none =>
      match (List.range 16).find? fun j => decide (b ≤ j) && f.aux.getLsbD j with
      | some j => some (caseTrap 6 j)
      | none => if d.toNat % 64 ≠ 0 then some (slotTrap 9 .misaligned d) else none

/-- A copy command as the issue stage sees it: it takes a queue entry and reserves its banks (R270, R331), and forks after every
access that its issuer made before it (R295). -/
def copyOp (uf : Nat) (f : FieldE) : SlotOp :=
  { plainE uf f with
    check := copyCheck uf f
    block := fun e s => if s.engineRoom e.core true then none else some (.copyFull, id)
    hold := fun e s => if s.heldBefore e.k e.t then some .gap else none
    effect := fun e s =>
      let s := s.flush e.k
      s.enterEngine { s.commandOf e.k with
        copy := true, uf := uf, td := f.td.toNat, ta := f.ta.toNat, aux := f.aux.toNat
        flag := (if uf = 0x12 then f.ta.toNat else f.td.toNat) % 16, operand := opsE f e s } }

/-- tcopy (R335, R337). -/
def tcopyOp (f : FieldE) : SlotOp := copyOp 0x10 f
/-- tcopy (R335, R337). -/
def execTcopy (f : FieldE) (s : State) : Host.Outcome State Fault Refusal := .next (issueOps [tcopyOp f] s)
/-- tgath (R335, R337). -/
def tgathOp (f : FieldE) : SlotOp := copyOp 0x11 f
/-- tgath (R335, R337). -/
def execTgath (f : FieldE) (s : State) : Host.Outcome State Fault Refusal := .next (issueOps [tgathOp f] s)
/-- tload (R335, R338). -/
def tloadOp (f : FieldE) : SlotOp := copyOp 0x12 f
/-- tload (R335, R338). -/
def execTload (f : FieldE) (s : State) : Host.Outcome State Fault Refusal := .next (issueOps [tloadOp f] s)
/-- tstore (R335, R338). -/
def tstoreOp (f : FieldE) : SlotOp := copyOp 0x13 f
/-- tstore (R335, R338). -/
def execTstore (f : FieldE) (s : State) : Host.Outcome State Fault Refusal := .next (issueOps [tstoreOp f] s)

/-! ## The descriptor (R333, R334) -/

/-- A descriptor from its 256 bytes (R333 Table 7). -/
def readDesc (bs : List Byte) : CopyDesc :=
  let six (o i : Nat) : Int := signedOf 48 (fieldAt bs (o + 6 * i) 6)
  { src := fieldAt bs 0 8, dst := fieldAt bs 8 8, cwaddr := fieldAt bs 0x10 8, cwval := fieldAt bs 0x18 8
    ctl := fieldAt bs 0x20 4, banks := fieldAt bs 0x24 2, pos := fieldAt bs 0x28 8, idx := fieldAt bs 0x30 8
    ext := tabulate (fun i => fieldAt bs (0x40 + 4 * i) 4) 10 0
    sstr := tabulate (six 0x68) 10 0, dstr := tabulate (six 0xA4) 10 0
    reservedZero := fieldAt bs 0x26 2 = 0 && fieldAt bs 0x38 8 = 0 && (bs.drop 0xE0).all fun x => x = 0 }

/-- SSP. -/
def CopyDesc.ssp (d : CopyDesc) : Nat := d.ctl % 4
/-- DSP. -/
def CopyDesc.dsp (d : CopyDesc) : Nat := d.ctl / 4 % 4
/-- The element size in bytes. -/
def CopyDesc.size (d : CopyDesc) : Nat := 2 ^ (d.ctl / 16 % 4)
/-- ND: dimensions less one. -/
def CopyDesc.nd (d : CopyDesc) : Nat := d.ctl / 64 % 16
/-- RED. -/
def CopyDesc.red (d : CopyDesc) : Nat := d.ctl / 1024 % 8
/-- A bit of CTL: 13 CWEN, 14 CWSP, 15 CWRED, 16 CANCEL, 17 IU, 18 ISP. -/
def CopyDesc.bit (d : CopyDesc) (i : Nat) : Bool := d.ctl.testBit i
/-- N, the number of elements. -/
def CopyDesc.count (d : CopyDesc) : Nat := (d.ext.take (d.nd + 1)).foldl (· * ·) 1

/-- Whether a descriptor is valid for a command (R334, R338 Table 10, R350). (DEDUCED, notes/assumptions/30.md) -/
def CopyDesc.valid (d : CopyDesc) (c : EngineCmd) : Bool :=
  let sz := d.size
  let used := d.nd + 1
  let strides := d.sstr.take used ++ d.dstr.take used
  let gath := c.uf = 0x11
  d.reservedZero && decide (d.ctl < 2 ^ 19) && d.ssp ≠ 3 && d.dsp ≠ 3 && decide (d.nd ≤ 9) && decide (d.red ≤ 4)
    && (d.ext.take used).all (· ≠ 0) && (d.ext.drop used).all (· = 0)
    && (d.sstr.drop used).all (· = 0) && (d.dstr.drop used).all (· = 0)
    && decide (d.count < 2 ^ 48)
    && d.src % sz = 0 && d.dst % sz = 0 && strides.all (fun x => x % (sz : Int) = 0)
    && d.pos % sz = 0 && decide (d.pos ≤ d.count * sz)
    && (c.refetch || d.banks = c.aux)
    && (d.red = 0 || (d.dsp ≠ 2 && (if d.red = 2 then sz = 4 else decide (4 ≤ sz))))
    && (d.bit 13 || !(d.bit 14 || d.bit 15 || d.bit 16))
    && (if gath then d.nd ≠ 0 && d.idx % 4 = 0 else d.idx = 0 && !d.bit 17 && !d.bit 18)
    && (d.ssp ≠ 2 || decide (d.src < 2 ^ 20)) && (d.dsp ≠ 2 || decide (d.dst < 2 ^ 20))
    && (c.uf ≠ 0x12 || (d.ssp ≠ 2 && d.dsp = 2 && d.dst / 2 ^ 15 % 32 = 0))
    && (c.uf ≠ 0x13 || (d.dsp ≠ 2 && d.ssp = 2 && d.src / 2 ^ 15 % 32 = 0))
    && (!c.packet || (d.ssp = 0 && d.dsp = 0 && d.banks = 0 && !d.bit 13))

/-! ## The three spaces (R265, R266, R277, R334) -/

/-- The mask of banks that a command may touch (R270, R337). -/
def EngineCmd.banks (c : EngineCmd) : Nat := if c.refetch then (c.desc.map CopyDesc.banks).getD 0 else c.aux
/-- The place of an element in the scratchpad of a command's group, or the cause of its failure (R266, R277, R337). -/
def State.enginePad (s : State) (c : EngineCmd) (size va : Nat) : Except Cause Nat :=
  match c.group.bind s.group? with
  | none => .error .accessFault
  | some g =>
    match s.spadCheck (s.issuerOf c) size (BitVec.ofNat 64 va) with
    | .fault x => .error x
    | .bank bank key =>
      if s.bankMode c.cluster bank = .scratch && c.banks.testBit (va / 256 % g.decl.b) then .ok key else .error .accessFault
/-- The local tile and byte of an element in a tile space (R334, R338): tile gives the tile that tload or tstore fixes.
(DEDUCED, notes/assumptions/30.md) -/
def State.engineTile (s : State) (c : EngineCmd) (tile : Option Nat) (va : Nat) : Except Cause (Nat × Nat) :=
  let j := va / 2 ^ 15
  let n := 2 * ((c.group.bind s.group?).map fun g => g.decl.n).getD 0
  match tile with
  | some t => if j = 0 && decide (t < n) then .ok (t, va) else .error .accessFault
  | none => if j < n then .ok (j, va % 2 ^ 15) else .error .accessFault

/-- A failure of a copy command at an address. -/
def EngineCmd.failsAt (c : EngineCmd) (cause : Cause) (va : Nat) : EngineFault :=
  { cause := cause, address := va, ref := c.operand.toNat }

/-- A value of n bytes read in a space (R337). -/
def State.copyRead (s : State) (c : EngineCmd) (space : Nat) (tile : Option Nat) (va n : Nat) : EngineResult Nat :=
  match space with
  | 0 =>
    let r := s.engineRead c c.operand.toNat n va n
    { value := r.value.map ofBytes, cmd := r.cmd, state := r.state }
  | 1 =>
    match s.enginePad c n va with
    | .error x => { value := .error (c.failsAt x va), cmd := c, state := s }
    | .ok key =>
      let r := s.loadAt c.lts key n
      { value := match r.value with | some x => .ok x | none => .error (c.failsAt .poison va)
        cmd := { c with lts := r.lts }, state := r.state }
  | _ =>
    match s.engineTile c tile va with
    | .error x => { value := .error (c.failsAt x va), cmd := c, state := s }
    | .ok (j, off) =>
      match c.group.bind s.group? with
      | some g => { value := .ok (ofBytes (tabulate (fun o => BitVec.ofNat 8 (s.tileReader g j o)) n off)), cmd := c, state := s }
      | none => { value := .error (c.failsAt .accessFault va), cmd := c, state := s }

/-- The operation code of a reduce-on-write (R303 Table 5, R333 Table 8). -/
def redCode (red : Nat) : Nat := match red with | 2 => 10 | 3 => 7 | 4 => 2 | _ => 0

/-- A global write of a copy exposes the issuer's phase where it lies outside its output range, or reduces (R377).
(DEDUCED, notes/assumptions/31.md) -/
def State.copyExposes (s : State) (c : EngineCmd) (red : Bool) (va n : Nat) : State :=
  let k := s.issuerOf c
  match if c.packet || c.refetch then none else s.phaseOf k c.phase with
  | some _ => if red || !(s.ctx k).inOutput (BitVec.ofNat 64 va) n then s.updCtx k Ctx.expose else s
  | none => s

/-- The record of a dropped reduction of a copy command (R392, SRC 5). -/
def State.copyDropped (s : State) (c : EngineCmd) (va red : Nat) : State :=
  let r := s.engineRecord c (c.failsAt .poison va) 0
  (s.publish c.region c.lts { r with src := 5, res := false, detail := redCode red, ref := 0 }).2

/-- A value of n bytes written, or reduced, in a space (R337). -/
def State.copyWrite (s : State) (c : EngineCmd) (space : Nat) (tile : Option Nat) (red va n x : Nat) : EngineResult Unit :=
  match space with
  | 0 =>
    let use : PageUse := if red = 0 then .store else .update
    match s.enginePlace c use n va with
    | .error y => { value := .error (c.failsAt y va), cmd := c, state := s.engineWalk c va }
    | .ok p =>
      let s := s.copyExposes c (red ≠ 0) va n
      if red = 0 then
        let (lts, s) := s.storeAt c.lts p.key (toBytes n x)
        let s := (s.claimDoorbells c.region).through p.nc p.key
        { value := .ok (), cmd := { c with lts := lts }, state := s.hashWrite c.region c.command (BitVec.ofNat 64 va) p.key n }
      else if tierOf p.key = 3 && !hostAtomic false (redCode red) then
        { value := .error (c.failsAt .accessFault va), cmd := c, state := s }
      else
        let scope := if s.hashing c.region then 0 else 2
        let (dropped, lts, s) := s.reduceAt c.lts (dieOf c.cluster) scope p.key n (redCode red) (BitVec.ofNat 64 x)
        let s := s.through p.nc p.key
        { value := .ok (), cmd := { c with lts := lts }
          state := if dropped then s.copyDropped c va red
            else s.hashWrite c.region c.command (BitVec.ofNat 64 va) p.key n }
  | 1 =>
    match s.enginePad c n va with
    | .error y => { value := .error (c.failsAt y va), cmd := c, state := s }
    | .ok key =>
      let s := if red = 0 then s else s.copyExposes c true va n
      if red = 0 then
        let (lts, s) := s.storeAt c.lts key (toBytes n x)
        { value := .ok (), cmd := { c with lts := lts }, state := s }
      else
        let r := s.atomicAt c.lts key n (redCode red) (BitVec.ofNat 64 x) 0
        let dropped := r.state.count (ctrDropped (dieOf c.cluster % 8)) 1
        { value := .ok (), cmd := { c with lts := r.lts }
          state := if r.value.isNone then dropped.copyDropped c va red else r.state }
  | _ =>
    match s.engineTile c tile va, c.group.bind s.group? with
    | .ok (j, off), some g => { value := .ok (), cmd := c, state := s.tileWrite g j off (toBytes n x) }
    | _, _ => { value := .error (c.failsAt .accessFault va), cmd := c, state := s }

/-! ## Elements (R337) -/

/-- An address: base plus the digits at their strides, modulo 2^64. -/
def strided (base : Nat) (ds : List Int) (strides : List Int) : Nat :=
  wrapInt 64 ((List.zipWith (· * ·) ds strides).foldl (· + ·) (base : Int))

/-- The digits of the next element of a copy command, at its destination. -/
def EngineCmd.elementDigits (c : EngineCmd) (d : CopyDesc) : List Int :=
  (digitsOf (d.ext.take (d.nd + 1)) (c.position / d.size)).map Int.ofNat
/-- The space and the address of the index that steers the next element of a tgath. -/
def EngineCmd.indexAt (c : EngineCmd) (d : CopyDesc) : Nat × Nat :=
  (if d.bit 18 then 1 else 0, wrapInt 64 ((d.idx : Int) + 4 * (c.elementDigits d).getD 1 0))
/-- The digits of the next element at its source: those of its destination, with the index of a tgath in place of its i1; none where
the index says that the element reads nothing (R337). -/
def State.sourceDigits (s : State) (c : EngineCmd) (d : CopyDesc) : EngineResult (Option (List Int)) :=
  let ds := c.elementDigits d
  if c.uf = 0x11 then
    let r := s.copyRead c (c.indexAt d).1 none (c.indexAt d).2 4
    { r with value := r.value.map fun (x : Nat) =>
        if x = 0xFFFFFFFF then none else some (setPlace ds 1 (if d.bit 17 then (x : Int) else signedOf 32 x)) }
  else { value := .ok (some ds), cmd := c, state := s }

/-- The next element of a copy command moved (R337). -/
def State.copyElement (s : State) (c : EngineCmd) (d : CopyDesc) : EngineResult Unit :=
  let write (s : State) (c : EngineCmd) (x : Nat) : EngineResult Unit :=
    s.copyWrite c d.dsp (if c.uf = 0x12 then some c.td else none) d.red (strided d.dst (c.elementDigits d) d.dstr) d.size x
  let i := s.sourceDigits c d
  match i.value with
  | .error x => { value := .error x, cmd := i.cmd, state := i.state }
  | .ok none => write i.state i.cmd 0
  | .ok (some ds) =>
    let r := i.state.copyRead i.cmd d.ssp (if c.uf = 0x13 then some c.ta else none) (strided d.src ds d.sstr) d.size
    match r.value with
    | .error x => { value := .error x, cmd := r.cmd, state := r.state }
    | .ok x => write r.state r.cmd x

/-- The completion word stored or added (R339). -/
def State.copyWord (s : State) (c : EngineCmd) (d : CopyDesc) (x : Nat) : EngineResult Unit :=
  if !d.bit 13 then { value := .ok (), cmd := c, state := s }
  else s.copyWrite c (if d.bit 14 then 1 else 0) none (if d.bit 15 then 1 else 0) d.cwaddr 8 x

/-! ## Ends -/

/-- A copy command has completed or been cancelled: its flag is set; a COPY packet's command has ended its work (R337, R340,
R350). -/
def State.copyEnds (s : State) (c : EngineCmd) : State :=
  if c.packet then s.updCommand c.command fun x => { x with left := 0, lts := laterOf x.lts c.lts }
  else if c.refetch then s
  else s.joinEngine c c.pos c.flag

/-- A copy command cancelled (R340): its cancel value is written, or dropped and counted, and its flag is set.
(DEDUCED, notes/assumptions/60.md) -/
def State.cancelCopy (s : State) (c : EngineCmd) : State :=
  let lost (s : State) : State := s.count (ctrCancelValue (dieOf c.cluster % 8)) 1
  let (d, c, s) :=
    match c.desc with
    | some d => (some d, c, s)
    | none =>
      let r := s.engineBytes c c.operand.toNat (linesOf 256) c.operand.toNat 256
      match r.value with
      | .ok bs => (some (readDesc bs), { r.cmd with desc := some (readDesc bs) }, r.state)
      | .error _ => (none, r.cmd, r.state)
  match d with
  | none => (lost s).copyEnds c
  | some d =>
    let x := if d.bit 15 then (d.cwval + 2 ^ 63) % 2 ^ 64 else d.cwval ||| 2 ^ 63
    let r := s.copyWord c d x
    match r.value with
    | .ok _ => r.state.copyEnds r.cmd
    | .error _ => (lost r.state).copyEnds r.cmd

/-- A copy command that fails (R341, R342): it leaves its queue with its reservation, and cancels its phase, ends its group, or is
held with a record; where it cannot be held it is cancelled at once (R372, R373). -/
def State.failCopy (s : State) (n : Nat) (c : EngineCmd) (x : EngineFault) (pos : Nat) : State :=
  let s := s.dropEngine n
  match s.poisonPhases c x with
  | some s => s
  | none =>
    match s.holdEngine { c with started := false, resumed := true, position := pos } x pos with
    | (true, s) => s.cancelCopy c
    | (false, s) => s

/-- The position of a record whose descriptor could not be read (R342). -/
def unknownPosition : Nat := 2 ^ 51 - 1

/-- The copy command that starts next on a cluster: commands start in issue order (R332). -/
def State.copyNext (s : State) (cluster : Nat) : Option (Nat × EngineCmd) :=
  s.engine.find? fun x => x.2.copy && x.2.queued && x.2.cluster = cluster && !x.2.started

/-- Whether rows of scratchpad stores that a command's issuer made before it have yet to land: the command starts after them
(R282, R295; DEDUCED, notes/assumptions/22.md). -/
def State.rowsBefore (s : State) (c : EngineCmd) : Bool :=
  c.group.isSome && (s.ctx (s.issuerOf c)).pending.any fun p =>
    match p.what with | .spadRow _ _ => decide (p.issued ≤ c.forked) | _ => false

/-- COPY_START (R333, R334): the next command reads its descriptor; it fails where it cannot, or where the descriptor is
invalid. A resumed command runs from the position of its record as though POS held it (R342).
(DEDUCED, notes/assumptions/61.md) -/
def copyStart (cluster : Nat) (s : State) : State :=
  match (s.copyNext cluster).filter fun x => !s.rowsBefore x.2 with
  | none => s
  | some (n, c) =>
    let at' := c.operand.toNat
    let r := s.engineBytes c at' (linesOf 256) at' 256
    match r.value with
    | .error x => r.state.failCopy n r.cmd x unknownPosition
    | .ok bs =>
      let d := readDesc bs
      let known := c.resumed && c.position ≠ unknownPosition
      let d := if known then { d with pos := c.position } else d
      let c := { r.cmd with desc := some d }
      if !d.valid c then r.state.failCopy n c (c.failsAt .accessFault at') d.pos
      else
        let s := r.state
        let row (g : Nat) : Reservation := { group := g, mask := BitVec.ofNat 16 d.banks, command := n }
        let s := match c.refetch && d.banks ≠ 0, c.group with
          | true, some g => s.updCluster c.cluster fun x => { x with reservations := x.reservations ++ [row g] }
          | _, _ => s
        let s := if d.red ≠ 0 then s.copyExposes c true 0 0 else s
        s.updEngine n fun _ => { c with
          started := true, position := d.pos, origin := d.pos }
/-- COPY_START. -/
def execEvCopyStart (cluster : Nat) (s : State) : Host.Outcome State Fault Refusal := .next (copyStart cluster s)

/-- The end of a command's payload: the completion word, then the flag (R337, R339). -/
def State.finishCopy (s : State) (id : Nat) (c : EngineCmd) (d : CopyDesc) : State :=
  let r := s.copyWord c d d.cwval
  match r.value with
  | .error x => r.state.failCopy id r.cmd x (d.count * d.size)
  | .ok _ => (r.state.dropEngine id).copyEnds r.cmd

/-- Up to n elements of a started copy command moved (R337, R341); the last one completes it. -/
def State.runCopy (s : State) (id : Nat) : Nat → State
  | 0 => s
  | n + 1 =>
    match mapGet? s.engine id with
    | none => s
    | some c =>
      match c.desc with
      | none => s
      | some d =>
        if d.bit 16 then (s.dropEngine id).cancelCopy c
        else if d.count * d.size ≤ c.position then s.finishCopy id c d
        else
          let r := s.copyElement c d
          match r.value with
          | .error x => r.state.failCopy id r.cmd x c.position
          | .ok _ =>
            let c := { r.cmd with position := c.position + d.size }
            let r := { r with state := r.state.clusterEvent c.cluster 0x64 d.size }
            if d.count * d.size ≤ c.position then r.state.finishCopy id c d
            else (r.state.updEngine id fun _ => c).runCopy id n

/-- The copy command that moves its elements next on a cluster: the first started one that waits for no tile (R185). -/
def State.copyRuns (s : State) (cluster : Nat) : Option (Nat × EngineCmd) :=
  s.engine.find? fun x => x.2.copy && x.2.queued && x.2.cluster = cluster && x.2.started && !s.waitsTile x.1 x.2

/-- The space, the address and the size of what the next element of a copy command reads: its source, or the index of an element of a
tgath that reads nothing else. -/
def State.sourceAt (s : State) (c : EngineCmd) (d : CopyDesc) : Nat × Nat × Nat :=
  match (s.sourceDigits c d).value with
  | .ok (some ds) => (d.ssp, strided d.src ds d.sstr, d.size)
  | _ => ((c.indexAt d).1, (c.indexAt d).2, 4)
/-- What the next element of a copy command reads comes to hold uncorrectable data (R389): its line is poisoned, where it lies in
memory or in a bank. -/
def State.poisonSource (s : State) (c : EngineCmd) (d : CopyDesc) : State :=
  let (space, va, n) := s.sourceAt c d
  match space with
  | 0 => match s.enginePlace c .load n va with | .ok p => s.poisonLine (lineOf p.key) | .error _ => s
  | 1 => match s.enginePad c n va with | .ok key => s.poisonLine (lineOf key) | .error _ => s
  | _ => s

/-- COPY_COMPLETE (R337). (DEDUCED, notes/assumptions/31.md) -/
def copyComplete (cluster elements : Nat) (s : State) : State :=
  match s.copyRuns cluster with
  | some (n, _) => s.runCopy n elements
  | none => s
/-- COPY_COMPLETE. -/
def execEvCopyComplete (cluster elements : Nat) (s : State) : Host.Outcome State Fault Refusal :=
  .next (copyComplete cluster elements s)

/-- COPY_FAULT (R341, R389): the command fails at its next element, by what that element meets, or else by a lost pool region or by
uncorrectable data at its source, whose line is then poisoned. (DESIGN CHOICE, notes/assumptions/62.md) -/
def copyFault (cluster : Nat) (lost : Bool) (s : State) : State :=
  match s.copyRuns cluster with
  | none => s
  | some (n, c) =>
    match c.desc with
    | none => s
    | some d =>
      let s := if lost || decide (d.count * d.size ≤ c.position) then s else s.poisonSource c d
      let r := if d.count * d.size ≤ c.position then s.copyWord c d d.cwval else s.copyElement c d
      match r.value with
      | .error x => r.state.failCopy n r.cmd x c.position
      | .ok _ => s.failCopy n c (c.failsAt (if lost then .poolRegionLost else .poison) (s.sourceAt c d).2.1) c.position
/-- COPY_FAULT. -/
def execEvCopyFault (cluster : Nat) (lost : Bool) (s : State) : Host.Outcome State Fault Refusal :=
  .next (copyFault cluster lost s)

/-- PHASE_REFETCH_COMPLETE (R249 step 6, R382): no refetch of the context runs or is held, so it reissues its opening bundle. -/
def phaseRefetchComplete (k : Nat) (s : State) : State :=
  let mine (c : EngineCmd) : Bool := c.refetch && c.group.isSome && c.group = (s.ctx k).group && c.pos = (s.ctx k).pos
  if (s.ctx k).phase = .blocked && (s.ctx k).block = some .refetch && !(s.engine.any fun x => mine x.2)
      && !(s.heldOps.any fun h => mine h.cmd) then s.makeReady k
  else s
/-- PHASE_REFETCH_COMPLETE. -/
def execEvPhaseRefetchComplete (k : Nat) (s : State) : Host.Outcome State Fault Refusal := .next (phaseRefetchComplete k s)

end Sys2Proof.Machine
end

