-- ==== Sys2Proof/Machine/Sched.lean ====
section
/-! DEFINITION. A core between bundles: the choice of the next context (R28), fairness and forced switches (R29), what comes
before fetch (R101, R418), the end of a drain (R63, R244, R257 to R260), and the events by which what contexts wait for
completes (R252, R253, R268, R278 to R280, R283, R285, R289, R290, R294, R298, R322). -/

namespace Sys2Proof.Machine

/-! ## The choice of a context (R28, R29) -/

/-- Whether a context may issue: its group is neither stopping for a fault nor for a pre-emption (R32, R376), and an Understory core
is ready (R439). -/
def State.mayRun (s : State) (k : Nat) : Bool :=
  (match s.groupOf k with | some g => g.fault.isNone && !g.preempting | none => true)
    && (!(decide (4096 ≤ k) && decide (k < 4112)) || s.readyBit 0 (46 + (k - 4096) / 2))

/-- Whether the group of a context ends by a contained fault (R376). -/
def State.groupFaulted (s : State) (k : Nat) : Bool :=
  match s.groupOf k with | some g => g.fault.isSome | none => false

/-- Of two contexts the one that has waited longer, the first where they tie. -/
def State.longer (s : State) (a b : Nat) : Nat := if (s.ctx b).readyAt < (s.ctx a).readyAt then b else a
/-- The READY context of a core that has waited longest (R28). -/
def State.longestWaiting (s : State) (core : Nat) : Option Nat :=
  match (ctxsOfCore core).filter fun k => (s.ctx k).phase = .ready && (s.ctx k).drain = .none && s.mayRun k with
  | [] => none
  | k :: ks => some (ks.foldl s.longer k)

/-- CONTEXT_SELECT (R28): a core with no RUNNING context chooses the READY one that has waited longest; it issues two cycles
after it became READY at the earliest. Its latches read zero, but after a release or a resumption (R34, R257).
(DEDUCED, notes/assumptions/64.md) -/
def contextSelect (core : Nat) (s : State) : State :=
  if (s.core core).running.isSome then s
  else
    match s.longestWaiting core with
    | none => s
    | some k =>
      let c := s.ctx k
      let s := s.updCtx k fun c => { c with phase := .running, firstIssue := none, restored := none }
      s.updCore core fun x => { x with
        running := some k, nextIssue := max x.nextIssue (c.readySince + 2), lat := c.restored.getD Latches.zero }
/-- CONTEXT_SELECT. -/
def execEvContextSelect (core : Nat) (s : State) : Host.Outcome State Fault Refusal := .next (contextSelect core s)

/-- The running context of a core that stands at a bundle boundary at which a bundle could issue. -/
def State.atBoundary (s : State) (core : Nat) : Option Nat :=
  let c := s.core core
  if decide (c.nextIssue ≤ c.lt) && c.freeze.isNone && c.walking.isEmpty then (s.issuing core).filter s.mayRun else none

/-- Since when the fairness count of a core stands at 4,096 or more: the cycle in which it reached it (R29). -/
def State.unfairSince (s : State) (core : Nat) : Option Nat :=
  (s.longestWaiting core).bind fun k =>
    let t := (s.ctx k).readySince + 4096
    if t ≤ (s.core core).lt then some t else none

/-- Whether the fairness switch takes place: the bundle that would issue is marked SAFE (R29). -/
def State.fairnessDue (s : State) (core : Nat) : Bool :=
  (s.atBoundary core).isSome && (s.unfairSince core).isSome
    && match (s.core core).bundle with | some b => b.safe | none => false
/-- Whether the forced switch takes place (R29). -/
def State.forcedDue (s : State) (core : Nat) : Bool :=
  match s.atBoundary core, s.unfairSince core with
  | some k, some t =>
    match (s.ctx k).firstIssue with
    | some f => decide (max t f + 4096 ≤ (s.core core).lt)
    | none => false
  | _, _ => false

/-- The RUNNING context of a core gives way at a bundle boundary. -/
def State.giveWay (s : State) (core : Nat) : State :=
  match (s.core core).running with
  | some k => s.standReady k (s.core core).lt
  | none => s

/-- FAIRNESS_SWITCH (R29). -/
def fairnessSwitch (core : Nat) (s : State) : State :=
  if s.fairnessDue core then
    match (s.core core).running with
    | some k => (s.giveWay core).event k 0x07 1
    | none => s
  else s
/-- FAIRNESS_SWITCH. -/
def execEvFairnessSwitch (core : Nat) (s : State) : Host.Outcome State Fault Refusal := .next (fairnessSwitch core s)
/-- FORCED_SWITCH (R29). -/
def forcedSwitch (core : Nat) (s : State) : State := if s.forcedDue core then s.giveWay core else s
/-- FORCED_SWITCH. -/
def execEvForcedSwitch (core : Nat) (s : State) : Host.Outcome State Fault Refusal := .next (forcedSwitch core s)

/-! ## Before fetch (R101, R262, R418) -/

/-- Whether the debug right of a region is granted (R414). -/
def State.debuggable (s : State) (region : Nat) : Bool := (s.region region).flags.getLsbD 3

/-- The lowest enabled breakpoint of a context's region at its next bundle (R418). -/
def State.breakpointAt (s : State) (k : Nat) : Option Nat :=
  let c := s.ctx k
  if c.bpExempt = some c.pc then none
  else
    (mapGet? s.traces (s.regionOf k)).bind fun t =>
      (findPlace (fun w : W64 => w.getLsbD 63 && (w.truncate 57 : BitVec 57) = c.pc) t.bp 0).map Prod.fst

/-- A trap that lands before the next bundle is fetched: a pending FP_TRAP, then a breakpoint (ranks 1 and 2 of R262).
(DEDUCED, notes/assumptions/23.md) -/
def State.earlyTrap (s : State) (k : Nat) : Option Trap :=
  let c := s.ctx k
  match c.fpPending with
  | some (f, slot) =>
    some { cause := .fpTrap, slot := 15, tval := BitVec.ofNat 64 (f.toNat + slot * 256), decoded := false }
  | none => (s.breakpointAt k).map fun _ => { cause := .breakpoint, slot := 15, tval := c.pc.zeroExtend 64, decoded := false }

/-! ## The end of a drain -/

/-- A context becomes HALTED with its latches shadowed (R63, R257). -/
def State.haltCtx (s : State) (k : Nat) : State :=
  let core := coreOf k
  let running := (s.core core).running = some k
  let lat := if running then (s.core core).lat else (s.ctx k).restored.getD Latches.zero
  let s := if running then s.switchOut core (s.core core).lt else s
  s.updCtx k fun c => { c with 
    phase := .halted, block := none, drain := .none, shadow := lat, restored := none, haltReq := false }

/-- TRAP_ENTRY (R64, R259, R260, R418): the drain of a trapping context has ended; a breakpoint of a region with the debug right
halts the context, which passes it once after its release; a trap that can be delivered enters the handler, and any other ends the group by a contained fault. -/
def trapEntry (k : Nat) (s : State) : State :=
  match (s.ctx k).drain with
  | .trap trap pc next =>
    let t := (s.ctx k).settled trap
    if !s.writtenBack k || s.groupFaulted k then s
    else if t.cause = .breakpoint && s.debuggable (s.regionOf k) then
      ((s.haltCtx k).updCtx k fun c => { c with bpExempt := some pc }).traceCtx k 7 ((s.breakpointAt k).getD 0) (pc.zeroExtend 64)
    else if s.delivers k t then s.enterHandler k t pc next
    else (s.updCtx k fun c => { c with drain := .none }).faultGroup k t.cause t.slot t.tval (pc.zeroExtend 64)
  | _ => s
/-- TRAP_ENTRY. -/
def execEvTrapEntry (ctx : Nat) (s : State) : Host.Outcome State Fault Refusal := .next (trapEntry ctx s)

/-- DEBUG_STOP (R30, R63, R257, R416): the drain of a halting context has ended, and a HALTED record names who halted it.
(DESIGN CHOICE, notes/assumptions/20.md) -/
def debugStop (k : Nat) (s : State) : State :=
  match (s.ctx k).drain with
  | .halt by_ =>
    if !s.writtenBack k || s.frozen k || s.groupFaulted k then s
    else
      let s := s.haltCtx k
      if by_ ≤ 1 then s.traceCtx k 8 by_ ((s.ctx k).pc.zeroExtend 64) else s
  | _ => s
/-- DEBUG_STOP. -/
def execEvDebugStop (ctx : Nat) (s : State) : Host.Outcome State Fault Refusal := .next (debugStop ctx s)

/-- CONTEXT_DONE (R244): the work of an exiting context has landed, its stores are performed and its DLQ entries have arrived;
these are discarded. -/
def contextDone (k : Nat) (s : State) : State :=
  match (s.ctx k).drain with
  | .exit =>
    if s.allLanded k then
      s.updCtx k fun c => { c with phase := .done, drain := .none, dlq := [] }
    else s
  | _ => s
/-- CONTEXT_DONE. -/
def execEvContextDone (ctx : Nat) (s : State) : Host.Outcome State Fault Refusal := .next (contextDone ctx s)

/-! ## Walks (R278, R279) -/

/-- WALK_COMPLETE (R278, R279): the walks that the bundle of a core waits for have ended, as a freeze or in a fetch gap.
(DEDUCED, notes/assumptions/82.md) -/
def walkComplete (core : Nat) (s : State) : State :=
  match (s.core core).running with
  | none => s
  | some k =>
    let c := s.core core
    let frozen := match c.freeze with | some (.walk ps) => ps | _ => []
    let pages := c.walking ++ frozen
    if pages.isEmpty then s
    else
      let s := pages.foldl (fun s p => s.walkPage k p) s
      s.updCore core fun c => { c with
        walked := c.walked ++ pages, walking := []
        freeze := match c.freeze with | some (.walk _) => none | f => f }
/-- WALK_COMPLETE. -/
def execEvWalkComplete (core : Nat) (s : State) : Host.Outcome State Fault Refusal := .next (walkComplete core s)

/-! ## Accesses in flight -/

/-- The accesses of a context performed up to the first that satisfies a test; nothing where none does. -/
def State.performTo (s : State) (k : Nat) (p : Access → Bool) : State :=
  match findPlace p (s.ctx k).accesses 0 with
  | some (i, _) => s.performFirst k (i + 1)
  | none => s

/-- Whether an access fills a DLQ entry. -/
def Access.fills (id : Nat) (a : Access) : Bool :=
  match a.kind with | .load e _ => e = id | .amo e _ _ => e = id | _ => false
/-- Whether an access is a scalar store or a reduction. -/
def Access.isStore (a : Access) : Bool :=
  match a.kind with | .store => true | .red _ => true | .vred _ _ => true | _ => false

/-- DLQ_ARRIVAL (R322): the access behind an entry of the DLQ is performed, after those before it. -/
def dlqArrival (k entry : Nat) (s : State) : State :=
  match (s.ctx k).dlq[entry]? with
  | some d => s.performTo k (Access.fills d.id)
  | none => s
/-- DLQ_ARRIVAL. -/
def execEvDlqArrival (ctx entry : Nat) (s : State) : Host.Outcome State Fault Refusal := .next (dlqArrival ctx entry s)

/-- STORE_PERFORMED (R283): the oldest queued store or reduction is performed, after the accesses before it. -/
def storePerformed (k : Nat) (s : State) : State := s.performTo k Access.isStore
/-- STORE_PERFORMED. -/
def execEvStorePerformed (ctx : Nat) (s : State) : Host.Outcome State Fault Refusal := .next (storePerformed ctx s)

/-- VECTOR_ACCESS_COMPLETE (R285): a queued access is performed with those before it, and its flag is set. -/
def vectorAccessComplete (k index : Nat) (s : State) : State :=
  if index < (s.ctx k).accesses.length then s.performFirst k (index + 1) else s
/-- VECTOR_ACCESS_COMPLETE. -/
def execEvVectorAccessComplete (ctx index : Nat) (s : State) : Host.Outcome State Fault Refusal :=
  .next (vectorAccessComplete ctx index s)

/-- An access in flight whose pool links are lost (R280, R387): loads fail, with their DLQ entry marked or as failed elements; stores and
the reductions that a held line can take join the lines that the device holds, and other reductions are dropped with a record. -/
def State.accessLost (s : State) (k : Nat) (a : Access) : State := s.performAccess k true a

/-- An uncorrectable error in what a context itself holds: its registers, latches, DLQ or checkpoint bank (R379). An open phase that
is not exposed is cancelled, and an exposed one ends the group. For a context in no phase the spec gives the error no effect
(DESIGN CHOICE, notes/assumptions/62.md). -/
def State.storageError (s : State) (k : Nat) : State :=
  if (s.ctx k).inOpenPhase || (s.ctx k).inExposedPhase then s.failedElement k .poison 0 else s

/-- A result with the bits of a soft error flipped: of element lane, in a vector row (R455). Status bits and bank bytes are no result. -/
def Landing.struck (lane : Nat) (bits : W64) : Landing → Landing
  | .scalar r x => .scalar r (x ^^^ bits)
  | .latchS l x => .latchS l (x ^^^ bits)
  | .kmask r m x => .kmask r m (x ^^^ bits)
  | .flags m x => .flags m (x ^^^ bits.truncate 16)
  | .vrow r k m x => .vrow r k m (x.setIfInBounds lane ((x[lane]?.getD 0) ^^^ bits.truncate 32))
  | .latchV l k x => .latchV l k (x.setIfInBounds lane ((x[lane]?.getD 0) ^^^ bits.truncate 32))
  | w => w
/-- The row of a vector result. -/
def Landing.rowNumber : Landing → Option Nat
  | .vrow _ k _ _ => some k
  | .latchV _ k _ => some k
  | _ => none
/-- A soft error in one unit of a distinct-unit set, slots SA, SB, VA, VB, VC, MA and MB, that ECC does not correct (R66, R455): it corrupts
one result that the unit is producing for a context, the i-th one in flight, in its latch and in the destination it writes, and
nothing else (DESIGN CHOICE, notes/assumptions/96.md). -/
def State.softError (s : State) (k i slot lane : Nat) (bits : W64) : State :=
  if slot < 8 && slot ≠ 5 then
    match ((s.ctx k).pending.filter fun p => p.slot = slot)[i]? with
    | some r =>
      s.updCtx k fun c => { c with pending := c.pending.map fun p =>
        if p.slot = slot && p.issued = r.issued && p.what.rowNumber = r.what.rowNumber then { p with what := p.what.struck lane bits }
        else p }
    | none => s
  else s

/-- ACCESS_FAILURE (R280, R379, R389, R455): an access in flight fails, by the loss of a pool link, or by uncorrectable data that its first
element finds, which poisons the line (a store meets none); or an error is found in what the context itself holds; or a unit's result
is corrupted with no error found.
(DESIGN CHOICE, notes/assumptions/62.md) -/
def accessFailure (k i : Nat) (what : AccessFault) (s : State) : State :=
  let without (a : Access) : State := s.updCtx k fun c => { c with accesses := c.accesses.filter fun x => x.id ≠ a.id }
  match what with
  | .storage => s.storageError k
  | .softError slot lane bits => s.softError k i slot lane bits
  | .linkLost => match (s.ctx k).accesses[i]? with | some a => (without a).accessLost k a | none => s
  | .badData =>
    match (s.ctx k).accesses[i]? with
    | some a =>
      let plain := match a.kind with | .store => true | .vstore _ => true | _ => false
      if plain then s
      else ((a.elements.take 1).foldl (fun s x => s.poisonLine (lineOf x.place.key)) (s.performFirst k i)).performFirst k 1
    | none => s
/-- ACCESS_FAILURE. -/
def execEvAccessFailure (ctx index : Nat) (what : AccessFault) (s : State) : Host.Outcome State Fault Refusal :=
  .next (accessFailure ctx index what s)

/-! ## Watches (R289) -/

/-- WATCH_FIRE (R289, R296, R448): a watch whose read has satisfied its condition, or whose region is lost, disarms, acquires
and sets its flag. (DEDUCED, notes/assumptions/51.md) -/
def watchFire (k i : Nat) (s : State) : State :=
  match (s.ctx k).watches[i]? with
  | none => s
  | some w =>
    if w.hit then
      let s := s.updCtx k fun c => { c with watches := c.watches.filter fun x => x.flag ≠ w.flag }
      let s :=
        if s.uncorrectable w.place.key || s.lostPlace w.place.key then s
        else
          let (lts, s) := s.stampLoad (s.ctx k).lts w.place.key
          s.updCtx k fun c => { c with lts := lts }
      let s := if 3 ≤ w.scope then s.acquire k else s
      s.setFlagFrom false k w.flag
    else s
/-- WATCH_FIRE. -/
def execEvWatchFire (ctx watch : Nat) (s : State) : Host.Outcome State Fault Refusal := .next (watchFire ctx watch s)

/-! ## Maintenance -/

/-- The first maintenance operation of a context that satisfies a test, and the rest. -/
def Ctx.takeMaintenance (c : Ctx) (p : Maintenance → Bool) : Option (Maintenance × Ctx) :=
  match findPlace p c.maintenance 0 with
  | some (i, m) => some (m, { c with maintenance := c.maintenance.eraseIdx i })
  | none => none

/-- TLB entries without those that a tlbinv names (R252). -/
def tlbinvEntries (mode slot : Nat) (a : W64) (tlb : List TlbEntry) : List TlbEntry :=
  tlb.filter fun e =>
    let covers := e.vpn = a.toNat / 2 ^ e.size
    !(match mode with
      | 0 => true
      | 1 => e.asid = slot
      | 2 => e.asid = slot && covers
      | _ => covers)

/-- TLB entries of the dies that satisfy a test invalidated. -/
def State.invalidateTlbs (s : State) (die : Nat → Bool) (f : List TlbEntry → List TlbEntry) : State :=
  { s with
    clusters := s.clusters.map fun c => (c.1, if die (dieOf c.1) then { c.2 with tlb := f c.2.tlb } else c.2)
    dies := s.dies.map fun d => (d.1, if die d.1 then { d.2 with tlb := f d.2.tlb } else d.2) }

/-- TLBINV_COMPLETE (R252): the covered TLBs lose the entries, and the flag is set. -/
def tlbinvComplete (k : Nat) (s : State) : State :=
  match (s.ctx k).takeMaintenance (fun m => match m with | .tlbinv _ _ _ _ _ => true | _ => false) with
  | some (.tlbinv mode slot a package flag, c) =>
    ((s.setCtx k c).invalidateTlbs (fun d => package || d = dieOf (clusterOf k)) (tlbinvEntries mode slot a)).setFlagFrom false k flag
  | _ => s
/-- TLBINV_COMPLETE. -/
def execEvTlbinvComplete (ctx : Nat) (s : State) : Host.Outcome State Fault Refusal := .next (tlbinvComplete ctx s)

/-- CACHEOP_COMPLETE (R290): every line of the range has been handled, its partials merged (R309), and the flag is set. (DEDUCED, notes/assumptions/42.md) -/
def cacheopComplete (k : Nat) (s : State) : State :=
  match (s.ctx k).takeMaintenance (fun m => match m with | .cacheop _ _ _ _ => true | _ => false) with
  | some (.cacheop op a b flag, c) =>
    let s := s.setCtx k c
    let lines := if op = 3 then [] else coverLines 64 a.toNat b.toNat
    let s := lines.foldl (fun s l =>
      match s.maintenancePlace k (l * 64) with
      | none => s
      | some p =>
        let line := lineOf p.key
        let s := s.mergeLine line
        if op = 1 then s.discardLine line else s.writeBack line) s
    let s := if op = 3 then s.dropCode k a.toNat b.toNat else s
    s.setFlagFrom false k flag
  | _ => s
/-- CACHEOP_COMPLETE. -/
def execEvCacheopComplete (ctx : Nat) (s : State) : Host.Outcome State Fault Refusal := .next (cacheopComplete ctx s)

/-! ## Bank switches (R253, R268) -/

/-- The bytes of a bank forgotten: they read 0 again. -/
def State.clearBank (s : State) (cluster bank : Nat) : State :=
  let s := { s with mem := memClear s.mem (bankKey cluster bank 0) (2 ^ 19) }
  s.updCluster cluster fun c => { c with haze := c.haze.filter fun h => h.bank ≠ bank }

/-- One bank takes a mode (R268 Table 2). -/
def State.switchBank (s : State) (cluster bank : Nat) (mode : BankMode) : State :=
  let old := s.bankMode cluster bank
  if old = mode then s
  else
    let s := s.clearBank cluster bank
    s.updCluster cluster fun c => { c with
      modes := c.modes.setIfInBounds bank mode
      haze := if old = .fifo && mode = .scratch then
          { bank := bank, tag := (s.free * 512 + cluster) * 16 + bank, values := c.wrote[bank]?.getD 0, known := [] } :: c.haze
        else c.haze }

/-- A bank given back by its group: it serves in CACHE mode, and nothing is left of what the group wrote to it (R20, R268). -/
def State.forgetBank (s : State) (cluster bank : Nat) : State :=
  (s.switchBank cluster bank .cache).updCluster cluster fun c => { c with wrote := c.wrote.setIfInBounds bank 0 }

/-- The switches of a cluster that nothing holds up, in order: the first of each bank that no command reserves. -/
def State.readySwitches (s : State) (cluster : Nat) : List BankSwitch :=
  ((s.cluster cluster).switches.filter fun x => !s.reserved cluster x.bank)

/-- BANK_SWITCH_COMPLETE (R253, R268, R270): the banks that bankmode names and no engine command reserves switch, in order; an
operation all of whose banks have switched sets its flag. -/
def bankSwitchComplete (cluster : Nat) (s : State) : State :=
  let ready := s.readySwitches cluster
  let s := ready.foldl (fun s x => s.switchBank cluster x.bank x.mode) s
  let s := s.updCluster cluster fun c => { c with switches := c.switches.filter fun x => !ready.contains x }
  let open_ (o : BankOp) : Bool := (s.cluster cluster).switches.any fun x => x.op = o.op
  let done := (s.cluster cluster).bankOps.filter fun o => !open_ o
  let s := s.updCluster cluster fun c => { c with bankOps := c.bankOps.filter open_ }
  done.foldl (fun s o => s.setFlagFrom false o.ctx o.flag) s
/-- BANK_SWITCH_COMPLETE. -/
def execEvBankSwitchComplete (cluster : Nat) (s : State) : Host.Outcome State Fault Refusal :=
  .next (bankSwitchComplete cluster s)

/-! ## Timestamps (R294, R298) -/

/-- LTS_ADVANCE (R294): the device raises a context's LTS by an amount. (DEDUCED, notes/assumptions/12.md) -/
def ltsAdvance (k amount : Nat) (s : State) : State :=
  s.updCtx k fun c => { c with lts := raisedStamp c.lts amount }
/-- LTS_ADVANCE. -/
def execEvLtsAdvance (ctx amount : Nat) (s : State) : Host.Outcome State Fault Refusal := .next (ltsAdvance ctx amount s)

/-- BACK_INVALIDATION (R298, R300, R316, R390, R428, R448): a line of the pool, or of host memory, goes to another agent. A line held
modified is written back and dropped; the line is stamped as a store at a new timestamp, but for a host line without CXL.cache,
which the device does not cache; the agent writes its bytes, or fails and leaves the line poisoned; and watches and overrunners
see it. (DESIGN CHOICE, notes/assumptions/35.md) -/
def backInvalidation (line : Nat) (bytes : Option (List Byte)) (s : State) : State :=
  let key := line * 64
  let host := decide (tierOf key = 3) && (apertureOf key).isNone
  if tierOf key = 2 || host then
    let s := (s.mergeLine line).writeBack line
    let s := if host && !s.cxlCache then s else (s.stampStore 0 key).2
    let s := match bytes with
      | some bs =>
        let whole := decide (64 ≤ bs.length)
        { s with mem := memPutBytes s.mem key (bs.take 64), poisoned := s.poisoned.filter fun l => l ≠ line || !whole }
      | none => s.poisonLine line
    s.noteWrite key
  else s
/-- BACK_INVALIDATION. (DESIGN CHOICE, notes/assumptions/35.md) -/
def execEvBackInvalidation (line : Nat) (bytes : Option (List Byte)) (s : State) : Host.Outcome State Fault Refusal :=
  .next (backInvalidation line bytes s)

end Sys2Proof.Machine
end

