-- ==== Sys2Proof/Machine/Image.lean ====
section
/-! DEFINITION. Context images (R256): their layout, ctxsave and ctxrest (R255), and CTX_IMAGE_COMPLETE. -/

namespace Sys2Proof.Machine

/-! ## The layout (R256 Table 9) -/

/-- n zero bytes. -/
def zeroBytes (n : Nat) : List Byte := List.replicate n 0
/-- The bytes of a row (R122). -/
def Row.bytes (r : Row) : List Byte := (r.toList.map fun w => toBytes 4 w.toNat).flatten
/-- The bytes of a vector register (R122). -/
def VReg.bytes (r : VReg) : List Byte := (r.toList.map Row.bytes).flatten
/-- A row from its bytes. -/
def rowOfBytes (bs : List Byte) (off : Nat) : Row :=
  Vector.ofFn fun c => BitVec.ofNat 32 (ofBytes ((bs.drop (off + 4 * c.val)).take 4))
/-- A vector register from its bytes. -/
def vregOfBytes (bs : List Byte) (off : Nat) : VReg := Vector.ofFn fun r => rowOfBytes bs (off + 256 * r.val)

/-- The latch rows that an image stores: those that do not read zero, as bits 16j + r. -/
def Latches.storedRows (l : Latches) : List Nat :=
  (List.range 96).filter fun i => (l.row (i / 16) (i % 16)) ≠ Row.zero

/-- The code of a context's state in an image. -/
def phaseCode : CtxPhase → Nat
  | .ready => 1 | .running => 1 | .blocked => 2 | .halted => 3 | .done => 4 | .free => 0

/-- The bytes of a DLQ entry in an image. -/
def DlqEntry.bytes (d : DlqEntry) : List Byte :=
  let flags := match d.fate with | .waiting => 9 | .ready => 1 | .poisoned => 3 | .lost => 5
  toBytes 8 d.value.toNat ++ toBytes 8 flags

/-- Byte 0x0007 of an image. -/
def Ctx.imageFlags (c : Ctx) : Nat :=
  let phs := match c.phaseRec with | none => 0 | some p => if p.exposed then 2 else 1
  (if c.rp then 1 else 0) + (if c.fpPending.isSome then 2 else 0) + 4 * phs + (if c.barrierWait.isSome then 16 else 0)

/-- The image of a context, with the latches and the record area given. (DEDUCED, notes/assumptions/49.md) -/
def State.imageBytes (s : State) (k : Nat) (lat : Latches) (records : List Byte) : List Byte :=
  let c := s.ctx k
  let rows := lat.storedRows
  let fp := match c.fpPending with | some (f, slot) => f.toNat + slot * 256 | none => 0
  toBytes 4 0x43585449 ++ toBytes 2 1 ++ toBytes 1 (phaseCode c.phase) ++ toBytes 1 c.imageFlags
    ++ toBytes 8 c.pc.toNat ++ toBytes 8 c.dictObj ++ toBytes 16 (rows.foldl (fun n i => n + 2 ^ i) 0) ++ toBytes 8 fp
    ++ zeroBytes 208
    ++ (tabulate (fun r => toBytes 8 (c.sreg r).toNat) 32 0).flatten
    ++ (tabulate (fun r => toBytes 8 (c.kreg r).toNat) 8 0).flatten
    ++ toBytes 8 c.flags.toNat
    ++ (tabulate (fun i => toBytes 8 (lat.scalar i).toNat) 5 0).flatten
    ++ zeroBytes 144
    ++ (tabulate (fun n => toBytes 8 (s.csrRead k n).toNat) 320 0).flatten
    ++ ((c.dlq.map DlqEntry.bytes).flatten ++ zeroBytes 256).take 256
    ++ (records ++ zeroBytes 2048).take 2048
    ++ zeroBytes 2560
    ++ (c.v.toList.map VReg.bytes).flatten
    ++ (rows.map fun i => Row.bytes (lat.row (i / 16) (i % 16))).flatten

/-- The latches that an image holds. -/
def imageLatches (bs : List Byte) : Latches :=
  let rows := fieldAt bs 0x18 16
  let place (i : Nat) : Nat := ((List.range i).filter fun j => rows.testBit j).length
  let row (i : Nat) : Row := if rows.testBit i then rowOfBytes bs (0x12000 + 256 * place i) else Row.zero
  { sc := Vector.ofFn fun i => BitVec.ofNat 64 (fieldAt bs (0x248 + 8 * i.val) 8)
    vec := Vector.ofFn fun j => Vector.ofFn fun r => row (16 * j.val + r.val) }

/-- The DLQ that an image holds: an entry not yet arrived goes on waiting for the access of the entry it stands for. -/
def imageDlq (old : List DlqEntry) (bs : List Byte) : List DlqEntry :=
  (List.range 16).filterMap fun i =>
    let flags := fieldAt bs (0xD00 + 16 * i + 8) 8
    let value := BitVec.ofNat 64 (fieldAt bs (0xD00 + 16 * i) 8)
    if !flags.testBit 0 then none
    else
      let fate : DlqFate :=
        if flags.testBit 1 then .poisoned else if flags.testBit 2 then .lost
        else if flags.testBit 3 && (old[i]?).any (fun d => d.fate = .waiting) then .waiting else .ready
      some { id := ((old[i]?).map DlqEntry.id).getD 0, value := value, fate := fate }

/-- The bundle that RP of an image stands for: the next one, or, in a handler, the one that trapped (R218, R260).
(DEDUCED, notes/assumptions/54.md) -/
def Ctx.meetsAt (c : Ctx) : BitVec 57 := if c.nesting = 0 then c.pc else c.tepc

/-- A context with the contents of an image, but for its state, its dictionary and its watches (R255, R416), with a wait record where the
image marks one. What an image does not hold (the ranges of its phase) stays as it stands, and goes where the image marks it absent. -/
def Ctx.withImage (c : Ctx) (bs : List Byte) (wait : Option BarrierWait) : Ctx :=
  let word (off : Nat) : W64 := BitVec.ofNat 64 (fieldAt bs off 8)
  let flags := fieldAt bs 7 1
  let phs := flags / 4 % 4
  let c := (tabulate id 320 0).foldl (fun (c : Ctx) n => c.csrWrite n (word (0x300 + 8 * n))) c
  let fp := (word 0x28).toNat
  let at' : BitVec 57 := (word 8).truncate 57
  let kept := c.rp && decide (c.pc = at')
  { c with
    pc := at'
    meetPc := if flags.testBit 0 && !kept then ({ c with pc := at' } : Ctx).meetsAt else c.meetPc
    s := Vector.ofFn fun r => word (0x100 + 8 * r.val)
    k := Vector.ofFn fun r => word (0x200 + 8 * r.val)
    fl := (word 0x240).truncate 16 ||| 1
    ba := Vector.ofFn fun i => word (0x300 + 8 * (0x10 + i.val))
    lts := laterOf c.lts (word (0x300 + 8 * 0x71))
    v := Vector.ofFn fun i => vregOfBytes bs (0x2000 + 4096 * i.val)
    rp := flags.testBit 0
    fpPending := if flags.testBit 1 then some (BitVec.ofNat 5 fp, fp / 256 % 16) else none
    phaseRec := if phs = 0 then none else c.phaseRec.map fun p => { p with exposed := p.exposed || decide (phs = 2) }
    barrierWait := if flags.testBit 4 then wait else none
    dlq := imageDlq c.dlq bs
    shadow := imageLatches bs
    pending := [] }

/-! ## Image accesses -/

/-- The place of a byte in the address space of a context, its walk made. -/
def State.imagePlace (s : State) (k : Nat) (use : PageUse) (va : W64) : Except Cause Place :=
  let region := s.regionOf k
  if 2 ^ 57 ≤ va.toNat then .error .accessFault
  else
    match s.translate (clusterOf k) (s.asidOf region) (s.ptbase region) use (!s.supervisor k) true va.toNat with
    | .place p => .ok p
    | .fault c => .error c
    | .walk => .error .pageFault

/-- The walk of a failed image access counted, where a PTE of it could not be read (R413). -/
def State.imageWalk (s : State) (k : Nat) (va : W64) : State :=
  s.countMiss (clusterOf k) (s.asidOf (s.regionOf k)) (s.ptbase (s.regionOf k)) va.toNat

/-- The bytes of an image written line by line in the address space of a context, as its own accesses (R255); the cause and the
address of the first that fails. -/
def State.writeImage (s : State) (k : Nat) : Nat → W64 → List Byte → Option (Cause × W64) × State
  | 0, _, _ => (none, s)
  | n + 1, va, bs =>
    if bs.isEmpty then (none, s)
    else
      match s.imagePlace k .store va with
      | .error c => (some (c, va), s.imageWalk k va)
      | .ok p => (s.writeFor k false p.nc (s.ctx k).nextAccess va p.key (bs.take 64)).writeImage k n (va + 64) (bs.drop 64)

/-- n lines of an image read in the address space of a context, as its own accesses (R255). -/
def State.readImage (s : State) (k : Nat) : Nat → W64 → Except (Cause × W64) (List Byte) × State
  | 0, _ => (.ok [], s)
  | n + 1, va =>
    match s.imagePlace k .load va with
    | .error c => (.error (c, va), s.imageWalk k va)
    | .ok p =>
      match s.readFor k 0 p.key 64 with
      | (none, s) => (.error (.poison, va), s)
      | (some v, s) =>
        match s.readImage k n (va + 64) with
        | (.ok bs, s) => (.ok (toBytes 64 v ++ bs), s)
        | (.error x, s) => (.error x, s)

/-- The lines of an image but for its latch rows. -/
def imageLines : Nat := 0x12000 / 64
/-- The lines of the latch rows of an image. -/
def latchLines (bs : List Byte) : Nat := 4 * popCount 96 (fieldAt bs 0x18 16)

/-- The record area of the image of a context (R256, R312): zero bytes where no watch is armed and it waits at no barrier, else bytes
that stand for the watches and the wait record; their coding is open (DESIGN CHOICE, notes/assumptions/40.md). -/
def State.imageArea (s : State) (c : Ctx) : List Byte × State :=
  if c.watches.isEmpty && c.barrierWait.isNone then ([], s)
  else
    let bs := tabulate (fun i => (s.openWord (2 ^ 159 + i)).truncate 8) 2048 0
    (bs, { s with imageRecords := (bs, c.watches, c.barrierWait) :: s.imageRecords })
/-- The watches and the wait record that the record area of an image stands for. -/
def State.areaRecords (s : State) (bs : List Byte) : List Watch × Option BarrierWait :=
  ((s.imageRecords.find? fun x => x.1 = (bs.drop 0xE00).take 2048).map Prod.snd).getD ([], none)
/-- The armed watches of a context loaded from an image, read anew (R289). The scratchpad of a saved image is judged when its group
resumes. -/
def State.setWatches (s : State) (k : Nat) (ws : List Watch) : State :=
  let s := ws.foldl (fun s w => s.mergeLine (lineOf w.place.key)) s
  s.updCtx k fun c => { c with watches := ws.map fun w => { w with hit := s.watchHolds w && !(w.spad && parked k) } }

/-! ## ctxsave, ctxrest (R255) -/

/-- The context at a position of the group of a context. -/
def State.mate (s : State) (k pos : Nat) : Option Nat := (s.groupOf k).bind fun g => g.keys[pos]?

/-- The traps of ctxsave and ctxrest: the target must be another context of the group in one of the states named. -/
def imageTrap (done : Bool) (f : FieldC) (e : Env) (s : State) : Option Trap :=
  let p := f.aux.toNat % 16
  let ok := match s.mate e.k p with
    | some j => j ≠ e.k && ((s.ctx j).phase = .halted || (done && (s.ctx j).phase = .done))
    | none => false
  if !ok then some (slotTrap 8 .accessFault (BitVec.ofNat 64 p))
  else
    let a := opaC f e s
    if a.toNat % 4096 ≠ 0 then some (slotTrap 8 .misaligned a) else none

/-- ctxsave (R255): it completes by CTX_IMAGE_COMPLETE. -/
def ctxsaveOp (f : FieldC) : SlotOp :=
  { plainC 0x28 f with
    privileged := true
    endsOverrun := fun _ _ => true
    trap := imageTrap true f
    effect := fun e s =>
      let target := (s.mate e.k (f.aux.toNat % 16)).getD e.k
      let a := opaC f e s
      s.updCtx e.k fun c => { c with maintenance := c.maintenance ++ [.ctxsave target a (f.aux.toNat / 32 % 16)] } }
/-- ctxsave (R255). -/
def execCtxsave (f : FieldC) (s : State) : Host.Outcome State Fault Refusal := .next (issueOps [ctxsaveOp f] s)

/-- ctxrest (R255): it completes by CTX_IMAGE_COMPLETE. -/
def ctxrestOp (f : FieldC) : SlotOp :=
  { plainC 0x29 f with
    privileged := true
    endsOverrun := fun _ _ => true
    trap := imageTrap false f
    effect := fun e s =>
      let target := (s.mate e.k (f.aux.toNat % 16)).getD e.k
      let a := opaC f e s
      s.updCtx e.k fun c => { c with
        maintenance := c.maintenance ++ [.ctxrest target a (f.aux.getLsbD 4) (f.aux.toNat / 32 % 16)] } }
/-- ctxrest (R255). -/
def execCtxrest (f : FieldC) (s : State) : Host.Outcome State Fault Refusal := .next (issueOps [ctxrestOp f] s)

/-- The record of an image access that failed (R255; DEDUCED, notes/assumptions/41.md). -/
def State.imageFails (s : State) (k : Nat) (cause : Cause) (va : W64) : State :=
  (s.publish (s.regionOf k) (s.ctx k).lts
    { s.recordOf 0 k with cause := causeCode cause, addr := va.toNat, detail := 15, ref := (s.ctx k).pc.toNat }).2

/-- The image of the target written (R255). -/
def State.saveContext (s : State) (k target : Nat) (a : W64) (flag : Nat) : State :=
  let s := (s.flush k).flush target
  let (area, s) := s.imageArea (s.ctx target)
  match s.writeImage k 1536 a (s.imageBytes target (s.ctx target).shadow area) with
  | (some (c, va), s) => s.imageFails k c va
  | (none, s) => s.setFlagFrom false k flag

/-- Whether a launch binding of a region counts as made in supervisor state (R258): Understory and security cores do. -/
def State.mayBindPriv (s : State) (core region : Nat) : Bool := decide (1024 ≤ core) || (s.eff 7 region).flags.getLsbD 2

/-- The target loaded from an image (R255): its loop buffer is empty (R232), and with GO = 1 its state becomes the image's, READY or
BLOCKED, where a BLOCKED one is judged anew at once (R34; DEDUCED, notes/assumptions/49.md). -/
def State.loadContext (s : State) (target : Nat) (bs : List Byte) (handle object : Nat)
    (records : List Watch × Option BarrierWait) (go : Bool) : State :=
  let keeps := decide (fieldAt bs 7 1 / 4 % 4 ≠ 0)
  let s := if keeps then s else s.dropBank target ((s.ctx target).phaseRec.bind PhaseRecord.bank)
  let s := s.updCtx target fun c =>
    { c.withImage bs records.2 with
      dictHandle := handle, dictObj := object, phase := .halted, rendezvousTrap := none, bpExempt := none
      loopBuf := none, loopLock := false }
  let s := s.setWatches target records.1
  let latches (s : State) : State := s.updCtx target fun c => { c with restored := some c.shadow }
  match go, fieldAt bs 6 1 with
  | true, 1 => (latches s).makeReady target
  | true, 2 => (latches s).updCtx target fun c => { c with phase := .blocked, block := some .restored }
  | _, _ => s

/-- The image read and loaded into the target (R255). (DEDUCED, notes/assumptions/49.md) -/
def State.restoreContext (s : State) (k target : Nat) (a : W64) (go : Bool) (flag : Nat) : State :=
  let s := (s.flush k).flush target
  match s.readImage k imageLines a with
  | (.error (c, va), s) => s.imageFails k c va
  | (.ok head, s) =>
    match s.readImage k (latchLines head) (a + 0x12000) with
    | (.error (c, va), s) => s.imageFails k c va
    | (.ok rows, s) =>
      let bs := head ++ rows
      let object := objectOf (BitVec.ofNat 64 (fieldAt bs 0x10 8))
      let region := s.regionOf k
      match s.bindObject (coreOf target) region object (some target) (s.supervisor k || s.mayBindPriv (coreOf target) region) with
      | (some (.ok h), s) => (s.loadContext target bs h object (s.areaRecords bs) go).setFlagFrom false k flag
      | (some (.error c), s) => s.imageFails k c (BitVec.ofNat 64 object)
      | (none, s) => s.imageFails k .illegalStream (BitVec.ofNat 64 object)

/-- CTX_IMAGE_COMPLETE (R255): the oldest ctxsave or ctxrest of a context finishes. A target that is no longer in the state that
the operation asks for fails it. -/
def ctxImageComplete (k : Nat) (s : State) : State :=
  match (s.ctx k).takeMaintenance (fun m => match m with | .ctxsave _ _ _ => true | .ctxrest _ _ _ _ => true | _ => false) with
  | some (.ctxsave target a flag, c) =>
    let s := s.setCtx k c
    if (s.ctx target).phase = .halted || (s.ctx target).phase = .done then s.saveContext k target a flag
    else s.imageFails k .accessFault a
  | some (.ctxrest target a go flag, c) =>
    let s := s.setCtx k c
    if (s.ctx target).phase = .halted then s.restoreContext k target a go flag else s.imageFails k .accessFault a
  | _ => s
/-- CTX_IMAGE_COMPLETE. -/
def execEvCtxImageComplete (ctx : Nat) (s : State) : Host.Outcome State Fault Refusal := .next (ctxImageComplete ctx s)

end Sys2Proof.Machine
end

