-- ==== Sys2Proof/Machine/Place.lean ====
section
/-! DEFINITION. Groups in their clusters: what a group takes and gives back (R18 to R21, R24, R25, R184, R268), budgets and ASID
slots (R396, R398, R403, R404), the binding of dictionaries at launch (R77, R79), placement, and the end of a group (R25,
R215, R245, R361, R376). -/

namespace Sys2Proof.Machine

/-! ## Device fields of region control blocks (R396) -/

/-- The tier-0 address of region control block k. -/
def State.rcbAddr (s : State) (k : Nat) : Nat := (s.bases[0]?.getD 0).toNat + 128 * k
/-- A count of contexts held changed for a region and its ancestors, and written to their blocks. -/
def State.bumpUsed (s : State) (region : Nat) (up : Bool) (n : Nat) : State :=
  (s.path region).foldl (fun s r =>
    let s := s.updRegion r fun x => { x with cused := if up then x.cused + n else x.cused - n }
    s.setTableWord (s.rcbAddr r + 0x48) 2 (s.region r).cused) s

/-- Whether one block is within its budget (R398). -/
def State.blockWithin (s : State) (r : Nat) : Bool :=
  let b := s.region r
  decide (b.cused ≤ (s.eff 1 r).cshare) && decide (b.qused ≤ (s.eff 3 r).qcnt)
    && decide (b.pused ≤ (s.eff 4 r).pcnt) && decide (b.hused ≤ (s.eff 2 r).hbmf)
/-- Whether a region and its ancestors are within their budgets (R363, R398). -/
def State.withinBudget (s : State) (r : Nat) : Bool := (s.path r).all s.blockWithin
/-- Whether n more contexts keep a region and its ancestors within their cluster budgets (R19, R398). -/
def State.roomFor (s : State) (r n : Nat) : Bool :=
  (s.path r).all fun x => decide ((s.region x).cused + n ≤ (s.eff 1 x).cshare)

/-! ## ASID slots (R403, R404) -/

/-- Whether a region uses an ASID slot: a group of it is placed or pre-empted, a lane owns one of its queues, or an operation of
it is held (R403). -/
def State.usesAsid (s : State) (i : Nat) : Bool :=
  let uses (region : Nat) : Bool := decide (s.slotHolding (s.ptbase region) = some i)
  (s.groups.any fun g => uses g.2.region) || (s.heldOps.any fun h => uses h.region)
    || (s.queues.any fun q => q.2.owner.isSome && uses (s.tableWord ((s.bases[4]?.getD 0).toNat + 64 * q.1 + 0x0A) 2))

/-- The slot to take for a new table root: a free one, else the least recently used one without users (R404). -/
def State.slotToTake (s : State) : Option Nat :=
  match (List.range 256).find? fun i => (mapGet? s.asids i).isNone with
  | some i => some i
  | none =>
    match s.asids.filter fun a => !s.usesAsid a.1 with
    | [] => none
    | a :: as => some ((as.foldl (fun (x y : Nat × AsidSlot) => if y.2.lastUse < x.2.lastUse then y else x) a).1)

/-- ASLOT of every valid block made to mirror the slot that holds its table root (R396, R403). -/
def State.syncAslots (s : State) : State :=
  (s.regions.map Prod.fst).foldl (fun s r =>
    let b := s.region r
    let slot := if b.valid then s.slotHolding (s.ptbase r) else none
    if b.aslot = slot then s
    else (s.updRegion r fun x => { x with aslot := slot }).setTableWord (s.rcbAddr r + 0x4E) 2 (slot.getD 0xFFFF)) s

/-- The handles of an address space released on a core, with their pages; a pinned one is never released, and takes the tag that the
address space has from now on (R79, R400). -/
def Core.releaseHandles (c : Core) (asid tag : Nat) (pinned : DictHandle → Bool) : Core :=
  let goes (d : DictHandle) : Bool := d.asid = asid && !pinned d
  let of (h : Nat) : Bool := match (c.handles[h]?).bind id with | some d => goes d | none => false
  let left (d : DictHandle) : Option DictHandle :=
    if goes d then none else if d.asid = asid then some { d with asid := tag } else some d
  { c with
    handles := c.handles.map fun h => h.bind left
    pages := c.pages.filter fun p => !of p.handle
    refillQueue := c.refillQueue.filter fun p => !of p.2.1 }

/-- What was cached under a tag of an address space forgotten, but for pinned dictionaries, which take another tag (R79, R232, R278,
R404). -/
def State.purgeAsid (s : State) (asid tag : Nat) : State :=
  let s := s.invalidateTlbs (fun _ => true) fun l => l.filter fun e => e.asid ≠ asid
  let pinned (d : DictHandle) : Bool := s.pinnedObject d.object d.asid
  let drop (c : Core) : Core := { c with icache := c.icache.filter fun l => l.asid ≠ asid }.releaseHandles asid tag pinned
  { s with cores := s.cores.map fun c => (c.1, drop c.2) }

/-- The slot of a region's address space used now (R404): its work starts or ends. -/
def State.touchAsid (s : State) (region : Nat) : State :=
  match s.asids.find? fun a => a.2.ptbase = s.ptbase region with
  | some (i, a) => { s with asids := mapSet s.asids i { a with lastUse := s.clk } }
  | none => s
/-- Whether a region's address space has a slot, or a slot to take (R404). -/
def State.mayHold (s : State) (region : Nat) : Bool := (s.slotHolding (s.ptbase region)).isSome || s.slotToTake.isSome
/-- A region given the ASID slot of its address space (R403, R404); none where every slot has users.
(DEDUCED, notes/assumptions/65.md) -/
def State.assignAsid (s : State) (region : Nat) : Option State :=
  let root := s.ptbase region
  match s.slotHolding root with
  | some _ => some (s.touchAsid region).syncAslots
  | none =>
    match s.slotToTake with
    | none => none
    | some i =>
      let held := mapGet? s.asids i
      let gen := (held.map AsidSlot.generation).getD 0
      let s := (s.purgeAsid i (256 + ((held.map AsidSlot.ptbase).getD 0).toNat)).purgeAsid (s.asidOf region) i
      some { s with asids := mapSet s.asids i { ptbase := root, generation := gen + 1, lastUse := s.clk } }.syncAslots

/-! ## What fits where (R19, R20) -/

/-- The hardware contexts of a cluster that no group holds. -/
def State.freeContexts (s : State) (cluster : Nat) : List Nat :=
  (List.range 16).filter fun h => (s.ctx (16 * cluster + h)).phase = .free
/-- The groups on a cluster. -/
def State.groupsOn (s : State) (cluster : Nat) : List (Nat × Group) := s.groups.filter fun g => g.2.cluster = some cluster
/-- The banks of a cluster that no group holds. (DESIGN CHOICE, notes/assumptions/68.md) -/
def State.freeBanks (s : State) (cluster : Nat) : List Nat :=
  let held := (s.groupsOn cluster).map fun g => g.2.banks
  (List.range 16).filter fun b => !held.any fun l => l.contains b
/-- Whether a declaration fits a cluster without some of its groups (R19). -/
def State.fitsWithout (s : State) (cluster : Nat) (d : Decl) (gone : List Nat) : Bool :=
  let gs := (s.groupsOn cluster).filter fun g => !gone.contains g.1
  let total (f : Decl → Nat) : Nat := (gs.map fun g => f g.2.decl).sum
  s.clusterReady cluster && decide (total Decl.n + d.n ≤ 16) && decide (total (fun x => x.b + x.q) + d.b + d.q ≤ 16)
    && decide (total Decl.barriers + d.barriers ≤ 8) && decide (total Decl.queues + d.queues ≤ 16)
    && decide (total Decl.latches + d.latches ≤ 4)
/-- Whether a declaration fits a cluster as it stands. A cluster that a group is being pre-empted from waits for the holder. -/
def State.fits (s : State) (cluster region : Nat) (d : Decl) : Bool :=
  s.fitsWithout cluster d [] &&
    (!((s.groupsOn cluster).any fun g => g.2.preempting) || decide (s.turnPath.getLast? = some region))
/-- The lowest-numbered cluster of a die that takes a declaration (R19). -/
def State.clusterFor (s : State) (die region : Nat) (d : Decl) : Option Nat :=
  if s.dieReady die then (tabulate id 32 (32 * die)).find? fun c => s.fits c region d else none

/-- Hardware contexts taken one at a time on the core with the fewest occupied contexts, ties to the lowest core, then to the
lowest context (R20). (DESIGN CHOICE, notes/assumptions/68.md) -/
def takeContexts : Nat → List Nat → List Nat
  | 0, _ => []
  | n + 1, free =>
    let freeOn (core : Nat) : Nat := (free.filter fun h => h / 4 = core).length
    let best := (List.range 4).foldl (fun b c => if freeOn b < freeOn c then c else b) 0
    match free.find? fun h => h / 4 = best with
    | some h => h :: takeContexts n (free.filter fun x => x ≠ h)
    | none => []

/-! ## Contexts of a group -/

/-- The dictionary object of a group bound for its contexts one after another (R79): the failure, or the handles are set. -/
def State.bindAll (s : State) (region object : Nat) : List Nat → Option Cause × State
  | [] => (none, s)
  | k :: ks =>
    match s.bindObject (coreOf k) region object (some k) (s.mayBindPriv (coreOf k) region) with
    | (some (.ok h), s) => (s.updCtx k fun c => { c with dictHandle := h, dictObj := object }).bindAll region object ks
    | (some (.error c), s) => (some c, s)
    | (none, s) => (some .illegalStream, s)

/-- A context at its launch (R21). -/
def Ctx.start (c : Ctx) (group pos : Nat) (entry gidx gcount args : W64) (bas : Vector W64 16) (lts : W64) (clk : Nat) : Ctx :=
  { Ctx.launch with
    phase := .ready, group := some group, pos := pos, pc := entry.truncate 57
    s := (((Vector.replicate 32 (0 : W64)).setIfInBounds 0 gidx).setIfInBounds 1 gcount).setIfInBounds 2 args
    dictHandle := c.dictHandle, dictObj := c.dictObj, ba := bas, lts := lts, placedAt := clk }

/-- The contexts of a group given up: they are FREE, and what their cores hold of them goes (R25, R232, R254). -/
def State.freeContext (s : State) (k : Nat) : State :=
  let core := coreOf k
  let s := s.setCtx k Ctx.launch
  s.updCore core fun c =>
    let running := c.running = some k
    let release (b : CheckpointBank) : CheckpointBank := if b.owner = some k then CheckpointBank.empty else b
    let unpin (l : CodeLine) : CodeLine := { l with pins := l.pins.filter (· ≠ k) }
    { c with
      running := if running then none else c.running
      lat := if running then Latches.zero else c.lat
      bundle := if running then none else c.bundle
      walked := if running then [] else c.walked
      walking := if running then [] else c.walking
      conflictPaid := if running then [] else c.conflictPaid
      fetchFaults := if running then [] else c.fetchFaults
      refillFault := if running then none else c.refillFault
      freeze := if running then none else c.freeze
      nextIssue := if running then c.lt + 2 else c.nextIssue
      banks := c.banks.map release
      icache := c.icache.map unpin }

/-- The cells of a tile forgotten: it reads 0 (R184). -/
def State.clearTile (s : State) (cluster tile : Nat) : State :=
  { s with mem := memClear s.mem (tileKey cluster tile 0) (2 ^ 15) }
/-- The tiles of some hardware contexts of a cluster cleared. -/
def State.clearTiles (s : State) (cluster : Nat) (hs : List Nat) : State :=
  hs.foldl (fun s h => (s.clearTile cluster (2 * h)).clearTile cluster (2 * h + 1)) s

/-- What a group holds of its cluster given up (R25, R184, R202, R268, R270): contexts, banks, tiles, stationary latches,
reservations, and the switches of its banks. -/
def State.vacate (s : State) (g : Nat) : State :=
  match s.group? g with
  | none => s
  | some x =>
    match x.cluster with
    | none => s
    | some c =>
      let s := x.keys.foldl State.freeContext s
      let s := s.clearTiles c x.contexts
      let s := s.updCluster c fun y => { y with
        switches := y.switches.filter fun w => !x.banks.contains w.bank
        bankOps := y.bankOps.filter fun o => !x.keys.contains o.ctx
        reservations := y.reservations.filter fun r => r.group ≠ g
        latchOwner := y.latchOwner.map fun o => if o = some g then none else o }
      let s := x.banks.foldl (fun s b => s.forgetBank c b) s
      s.bumpUsed x.region false x.decl.n

/-! ## The end of a group -/

/-- Held operations of a group cancelled with it (R342, R373). -/
def State.cancelHeld (s : State) (g : Nat) : State :=
  let mine := s.heldOps.filter fun h => h.cmd.group = some g
  let s := { s with heldOps := s.heldOps.filter fun h => h.cmd.group ≠ some g }
  mine.foldl (fun s h => if h.cmd.copy then s.cancelCopy h.cmd else s) s

/-- Groups of a command ended: what is left of it (R351). -/
def State.groupsEnded (s : State) (command n : Nat) : State := s.updCommand command fun c => { c with left := c.left - n }
/-- The completion of a group's command follows every access of the group's contexts, which have joined its engine commands
(R292, R296, R351). -/
def State.raiseCommand (s : State) (x : Group) : State :=
  s.updCommand x.command fun c => { c with lts := x.keys.foldl (fun (t : W64) k => laterOf t (s.ctx k).lts) c.lts }

/-- A group ends: its resources are freed, its reservation of a continuation entry too, and its command has one less (R25). -/
def State.endGroup (s : State) (g : Nat) (faulted : Bool) : State :=
  match s.group? g with
  | none => s
  | some x =>
    let s := ((s.cancelHeld g).raiseCommand x).touchAsid x.region
    let s := s.traceGroup g 4 (if faulted then 1 else 0)
    let s := match x.cluster with
      | some c => if x.contReserved then s.releaseCont (dieOf c) x.region else s
      | none => s
    let s := s.vacate g
    let s := { s with groups := mapErase s.groups g }
    s.groupsEnded x.command 1

/-- Whether an engine command of a group has yet to complete or to fault. -/
def State.engineRuns (s : State) (g : Nat) : Bool := s.engine.any fun e => e.2.group = some g

/-- The continuation that a group asks for: the request of its lowest-positioned context that made one (R245). -/
def State.contOf (s : State) (g : Group) : Option (BitVec 57 × W64) := g.keys.findSome? fun k => (s.ctx k).contReq

/-- The 64 bytes of a CONTINUE packet (R349 Table 5): its header carries the release scope and the signal index of the command that
it descends from (R351; DESIGN CHOICE, notes/assumptions/48.md). -/
def continuePacket (entry args : W64) (g : Nat) (x : Group) (c : Command) : List Byte :=
  toBytes 8 (7 + 2 ^ 11 * c.rel + 2 ^ 32 * (c.sigidx % 2 ^ 32)) ++ toBytes 8 entry.toNat ++ toBytes 8 args.toNat ++ toBytes 4 x.g
    ++ toBytes 4 x.gcount ++ toBytes 4 g ++ toBytes 4 c.queue ++ toBytes 8 c.seq ++ toBytes 16 0

/-- A packet made by the device enters the continuation queue reserved for a region (R24, R361): it is written to the queue's ring,
body and header in one line, then counted in WRSEEN, and an IDLE queue becomes PENDING (R346). -/
def State.pushCont (s : State) (die region : Nat) (packet : List Byte) : State :=
  match (s.die die).contQueue region with
  | none => s
  | some q =>
    let n := contNumber die q.number
    let idx := s.writeIndex n
    let s := s.updDie die fun d => d.updCont region fun q => { q with reserved := q.reserved - 1, waiting := q.waiting + 1 }
    let s := (s.deviceWrite region 0 (BitVec.ofNat 64 (s.slotAddr n idx)) packet).2
    let s := s.setQcb n 0x20 8 (idx + 1)
    if s.queueState n = 1 then s.setQueueState n 2 else s

/-- GROUP_END (R25, R215, R245, R361): the contexts of a group are all DONE and its engine commands have finished. A requested
continuation becomes a CONTINUE packet and keeps the group's resources, its contexts staying DONE until the continuation launches
them (DEDUCED, notes/assumptions/91.md); otherwise they are freed. -/
def groupEnd (g : Nat) (s : State) : State :=
  match s.group? g with
  | none => s
  | some x =>
    if x.fault.isSome || x.kept || x.preempting || x.cluster.isNone || s.engineRuns g
        || !(x.keys.all fun k => (s.ctx k).phase = .done) then s
    else
      let cancelled := ((mapGet? s.commands x.command).map Command.cancelled).getD false
      match s.contOf x, x.cluster with
      | some (entry, arg), some c =>
        if cancelled then s.endGroup g false
        else
          let s := (s.cancelHeld g).raiseCommand x
          let s := s.traceGroup g 4 0
          let s := match mapGet? s.commands x.command with
            | some cmd => s.pushCont (dieOf c) x.region (continuePacket (entry.zeroExtend 64) arg g x cmd)
            | none => s
          s.updGroup g fun y => { y with kept := true, contReserved := false }
      | _, _ => s.endGroup g false
/-- GROUP_END. -/
def execEvGroupEnd (group : Nat) (s : State) : Host.Outcome State Fault Refusal := .next (groupEnd group s)

/-! ## Placement (R19 to R21) -/

/-- The work of a command that is never placed given up: its ranges go, and it has nothing left to place (R23, R77). -/
def State.dropRanges (s : State) (command : Nat) : State :=
  let strip (d : Die) : Die := { d with ranges := d.ranges.filter fun r => r.command ≠ command }
  let s : State := { s with dies := s.dies.map fun d => (d.1, strip d.2) }
  s.updCommand command fun c => { c with left := c.left - c.unplaced, unplaced := 0 }

/-- The record of a refused dictionary header (R77, R368): SRC 7. -/
def State.recordRefused (s : State) (command : Nat) (cause : Cause) (object : Nat) : State :=
  match mapGet? s.commands command with
  | none => s
  | some c =>
    (s.publish c.region c.lts
      { FaultRecord.blank 7 with
        cause := causeCode cause, queue := c.queue, seq := c.seq, addr := object
        detail := if cause = .illegalStream then 5 else 0 }).2

/-- A group at its placement. -/
def Group.placed (command : Nat) (c : Command) (g cluster : Nat) (contexts banks : List Nat) (clk : Nat) : Group :=
  let d := c.decl
  { command := command, region := c.region, g := g, gcount := c.gcount, decl := d, dictObj := c.dictObj, bas := c.bas
    cluster := some cluster, contexts := contexts, banks := banks
    barriers := List.replicate d.barriers Barrier.clear, queues := List.replicate d.queues NamedQueue.fresh
    streams := List.replicate d.q Stream.fresh, latches := List.replicate d.latches RendezvousLatch.clear
    records := List.replicate 6 LatchRecord.empty, contReserved := false, fault := none, preempting := false, saved := none
    kept := false, placedAt := clk }

/-- The banks of a group switched to their declared modes (R20, R268). -/
def State.declareBanks (s : State) (cluster : Nat) (d : Decl) (banks : List Nat) : State :=
  (banks.mapIdx fun i b => (i, b)).foldl (fun s x => s.switchBank cluster x.2 (if x.1 < d.b then .scratch else .fifo)) s

/-- The contexts of a group started at their launch state, each waiting from now on (R21, R28). -/
def State.startContexts (s : State) (g : Nat) (keys : List Nat) (entry gidx gcount args : W64) (bas : Vector W64 16) (lts : W64) :
    State :=
  (keys.mapIdx fun p k => (p, k)).foldl (fun s x =>
    (s.updCtx x.2 fun c => c.start g x.1 entry gidx gcount args bas lts s.clk).makeReady x.2) s

/-- Group g of a command placed on a cluster (R19 to R21): its dictionary is bound, and where that fails the command ends with a
record (R77). -/
def State.placeOn (s : State) (command : Nat) (c : Command) (g cluster : Nat) : State :=
  let contexts := takeContexts c.decl.n (s.freeContexts cluster)
  let banks := (s.freeBanks cluster).take (c.decl.b + c.decl.q)
  let keys := contexts.map fun h => 16 * cluster + h
  let n := s.nextGroup
  match s.bindAll c.region (objectOf c.dictObj) keys with
  | (some cause, s) =>
    let s := keys.foldl (fun s k => s.setCtx k Ctx.launch) s
    (s.recordRefused command cause (objectOf c.dictObj)).dropRanges command
  | (none, s) =>
    let s := s.clearTiles cluster contexts
    let s := s.declareBanks cluster c.decl banks
    let s := { s with
      nextGroup := n + 1, groups := mapSet s.groups n (Group.placed command c g cluster contexts banks s.clk) }
    let s := s.startContexts n keys c.entry (BitVec.ofNat 64 g) (BitVec.ofNat 64 c.gcount) c.args c.bas c.lts
    let s := s.updCommand command fun x => { x with unplaced := x.unplaced - 1 }
    (s.bumpUsed c.region true c.decl.n).traceGroup n 3 0

/-! ## CONTINUE (R24, R361) -/

/-- The launch of a continuation into the resources that GROUP of a CONTINUE packet names (R24, R361), its contexts at the values of
the packet (R117); where its command was cancelled they are freed. A named group that keeps nothing any more is passed over. -/
def State.launchCont (s : State) (bs : List Byte) (lts : W64) : State :=
  let word (off : Nat) : W64 := BitVec.ofNat 64 (fieldAt bs off 8)
  let n := fieldAt bs 0x20 4
  let gidx := fieldAt bs 0x18 4
  let gcount := fieldAt bs 0x1C 4
  match s.group? n with
  | none => s
  | some x =>
    match mapGet? s.commands x.command with
    | none => s
    | some c =>
      if !x.kept then s
      else if c.cancelled then s.endGroup n false
      else
        match s.bindAll x.region (objectOf x.dictObj) x.keys with
        | (some cause, s) => (s.recordRefused x.command cause (objectOf x.dictObj)).endGroup n false
        | (none, s) =>
          let s := s.updGroup n fun y => { y with
            kept := false, contReserved := false, fault := none, g := gidx, gcount := gcount
            barriers := y.barriers.map fun b => { b with count := 0, arrived := 0, lts := 0 } }
          (s.startContexts n x.keys (word 8) (BitVec.ofNat 64 gidx) (BitVec.ofNat 64 gcount) (word 0x10)
            (Vector.replicate 16 0) (laterOf c.lts lts)).traceGroup n 3 0

end Sys2Proof.Machine
end

