-- ==== Sys2Proof/Machine/Region.lean ====
section
/-! DEFINITION. The region scheduler (R363 to R366, R404) and the distributors (R19, R22, R23): readiness, turns and sub-turns, the
order of placements, pre-emption for the holder, placing and stealing. -/

namespace Sys2Proof.Machine

/-! ## Readiness (R363) -/

/-- A range that still holds groups. -/
def GroupRange.live (r : GroupRange) : Bool := decide (r.next < r.stop)
/-- The region of a command. -/
def State.commandRegion (s : State) (n : Nat) : Nat := ((mapGet? s.commands n).map Command.region).getD 0
/-- The pre-empted groups of a region, in order of their handles. -/
def State.savedGroups (s : State) (region : Nat) : List (Nat × Group) :=
  s.groups.filter fun g => g.2.region = region && g.2.saved.isSome && g.2.cluster.isNone
/-- The groups of a region that wait for a cluster, each with its declaration and the clusters it may take: those of the die
that holds it, or every one for a pre-empted group. -/
def State.waitingGroups (s : State) (region : Nat) : List (Decl × List Nat) :=
  (s.savedGroups region).map (fun g => (g.2.decl, List.range 256))
    ++ (s.dies.map fun d => (d.2.ranges.filter fun r => r.live && s.commandRegion r.command = region).filterMap fun r =>
      (mapGet? s.commands r.command).map fun c => (c.decl, tabulate id 32 (32 * d.1))).flatten
/-- Whether a declaration fits a cluster that holds no other group. -/
def Decl.fitsEmpty (d : Decl) : Bool :=
  decide (d.n ≤ 16) && decide (d.b + d.q ≤ 16) && decide (d.barriers ≤ 8) && decide (d.queues ≤ 16) && decide (d.latches ≤ 4)
/-- Whether the own work of a region is ready (R363): a group of it waits whose declaration fits some ready cluster with every other
group removed, and the budgets hold. -/
def State.ownReady (s : State) (r : Nat) : Bool :=
  ((s.waitingGroups r).any fun w => w.1.fitsEmpty) && (List.range 256).any s.clusterReady && s.withinBudget r

/-- A region put in its place among its siblings: descending priority, then ascending index (R363). -/
def State.insertChild (s : State) (r : Nat) : List Nat → List Nat
  | [] => [r]
  | x :: xs => if s.prio x < s.prio r then r :: x :: xs else x :: s.insertChild r xs
/-- The valid children of a node in the order of its rotation. -/
def State.children (s : State) (p : Nat) : List Nat :=
  ((s.regions.filter fun r => r.2.valid && r.2.parent = p && r.1 ≠ p).map Prod.fst).foldl (fun l r => s.insertChild r l) []

/-- Whether a node is ready: it or a descendant is (R363). -/
def State.nodeReady (s : State) : Nat → Nat → Bool
  | 0, r => s.ownReady r
  | n + 1, r => s.ownReady r || (s.children r).any (s.nodeReady n)

/-- The members of a node's rotation: its own work first, then its ready children (R364). -/
def State.members (s : State) (p : Nat) : List Nat :=
  (if s.ownReady p then [p] else []) ++ (s.children p).filter (s.nodeReady 9)

/-- The place of a member in its node's rotation, as a number that rises along it. -/
def State.memberRank (s : State) (p m : Nat) : Nat := if m = p then 0 else (8 - s.prio m) * 65536 + m
/-- The member that follows a node's cursor in rotation. -/
def State.nextMember (s : State) (p : Nat) : Option Nat :=
  let ms := s.members p
  match (s.region p).cursor with
  | none => ms.head?
  | some c =>
    match ms.find? fun m => decide (s.memberRank p c < s.memberRank p m) with
    | some m => some m
    | none => ms.head?

/-! ## Turns (R364) -/

/-- What is left of a member's turn, in sevenths of a ns. -/
def State.leftOf (s : State) (p m : Nat) : Nat := if m = p then (s.region p).ownDeficit else (s.region m).deficit
/-- What is left of a member's turn, set. -/
def State.setLeft (s : State) (p m n : Nat) : State :=
  if m = p then s.updRegion p fun r => { r with ownDeficit := n } else s.updRegion m fun r => { r with deficit := n }

/-- The length of a new turn of a member of p, of which p's own turn lasts total: its quantum at the root, its share below. -/
def State.turnLength (s : State) (p m total : Nat) : Nat :=
  let sum := ((s.members p).map s.quantumNs).sum
  if p = 0 then 7 * s.quantumNs m else total * s.quantumNs m / max sum 1

/-- The path of sub-turns continued below a node whose turn lasts total: the member under way goes on, or the next one in
rotation starts. -/
def State.descend (s : State) : Nat → Nat → Nat → State
  | 0, _, _ => s
  | n + 1, p, total =>
    let ms := s.members p
    let kept := match (s.region p).cursor with
      | some m => if ms.contains m && decide (s.leftOf p m ≠ 0) then some m else none
      | none => none
    match kept <|> s.nextMember p with
    | none => s
    | some m =>
      let s :=
        if kept.isSome then s
        else
          let len := s.turnLength p m total
          let s := s.setLeft p m len
          if m = p then s else s.updRegion m fun r => { r with turnLen := len }
      let s := s.updRegion p fun r => { r with cursor := some m }
      let s := { s with turnPath := s.turnPath ++ [m] }
      if m = p then s else s.descend n m (s.region m).turnLen

/-- The members of the turn path, each with its node. -/
def turnPairs : Nat → List Nat → List (Nat × Nat)
  | _, [] => []
  | p, m :: ms => (p, m) :: turnPairs m ms

/-- The time that the turns of the path have run since they were last charged, in sevenths of a ns. -/
def State.turnElapsed (s : State) : Nat := (s.clk - s.turnSince) * 10

/-- The first turn of the path that is over: its counter has reached zero, or its member is no longer ready; its depth and its
member. With no path, the root's first turn is to start. (DEDUCED, notes/assumptions/66.md) -/
def State.turnOver (s : State) : Option (Nat × Nat) :=
  if s.turnPath.isEmpty then (if (s.members 0).isEmpty then none else some (0, 0))
  else
    (findPlace (fun x : Nat × Nat => decide (s.leftOf x.1 x.2 ≤ s.turnElapsed) || !(s.members x.1).contains x.2)
      (turnPairs 0 s.turnPath) 0).map fun x => (x.1, x.2.2)

/-- The counters of the path charged with the time they ran; that of a member that is no longer ready becomes zero. -/
def State.chargeTurns (s : State) : State :=
  let e := s.turnElapsed
  let s := (turnPairs 0 s.turnPath).foldl (fun s x =>
    s.setLeft x.1 x.2 (if (s.members x.1).contains x.2 then s.leftOf x.1 x.2 - e else 0)) s
  { s with turnSince := s.clk }

/-- The regions off the path of turns that are not ready any more and still have something left of a turn: their own, or that of their
own work. -/
def State.idleTurns (s : State) : List Nat :=
  let own (r : Nat × Region) : Bool := r.2.ownDeficit ≠ 0 && s.turnPath.getLast? ≠ some r.1 && !s.ownReady r.1
  let turn (r : Nat × Region) : Bool := r.2.deficit ≠ 0 && !s.turnPath.contains r.1 && !s.nodeReady 9 r.1
  (s.regions.filter fun r => own r || turn r).map Prod.fst
/-- A node that is not ready has its counter set to zero (R363). -/
def clearIdle (s : State) : State :=
  s.idleTurns.foldl (fun s r => s.updRegion r fun x =>
    { x with
      ownDeficit := if s.turnPath.getLast? ≠ some r && !s.ownReady r then 0 else x.ownDeficit
      deficit := if !s.turnPath.contains r && !s.nodeReady 9 r then 0 else x.deficit }) s

/-- The region whose whole path holds turns (R364). -/
def State.holder (s : State) : Option Nat := s.turnPath.getLast?

/-! ## Pre-emption for the holder (R365) -/

/-- Whether group a is pre-empted before group b: lower priority, then higher region index, then later placement. -/
def State.victimBefore (s : State) (a b : Nat × Group) : Bool :=
  let pa := s.prio a.2.region
  let pb := s.prio b.2.region
  if pa ≠ pb then decide (pa < pb)
  else if a.2.region ≠ b.2.region then decide (b.2.region < a.2.region)
  else if a.2.placedAt ≠ b.2.placedAt then decide (b.2.placedAt < a.2.placedAt)
  else decide (b.1 < a.1)
/-- A group put in its place among the victims. -/
def State.insertVictim (s : State) (g : Nat × Group) : List (Nat × Group) → List (Nat × Group)
  | [] => [g]
  | x :: xs => if s.victimBefore g x then g :: x :: xs else x :: s.insertVictim g xs
/-- The groups of a cluster that the holder may have pre-empted, in order. -/
def State.victims (s : State) (cluster holder : Nat) : List (Nat × Group) :=
  ((s.groupsOn cluster).filter fun g => g.2.region ≠ holder && g.2.fault.isNone && !g.2.kept).foldl
    (fun l g => s.insertVictim g l) []

/-- The groups to pre-empt on a cluster, in order, until a declaration fits; none where it never does. -/
def State.victimsFor (s : State) (cluster : Nat) (d : Decl) : List (Nat × Group) → List Nat → Option (List Nat)
  | [], gone => if s.fitsWithout cluster d gone then some gone else none
  | g :: gs, gone => if s.fitsWithout cluster d gone then some gone else s.victimsFor cluster d gs (gone ++ [g.1])

/-- The contexts that a list of groups holds. -/
def State.contextsOf (s : State) (gs : List Nat) : Nat := (gs.map fun g => ((s.group? g).map fun x => x.decl.n).getD 0).sum

/-- The groups that make room for a declaration of the holder: on the cluster on which the fewest contexts must be freed. -/
def State.roomByPreemption (s : State) (holder : Nat) (d : Decl) (clusters : List Nat) : List Nat :=
  let options := clusters.filterMap fun c => s.victimsFor c d (s.victims c holder) []
  match options with
  | [] => []
  | x :: xs => xs.foldl (fun best y => if s.contextsOf y < s.contextsOf best then y else best) x

/-- The groups that use one ASID slot, in the order of R365, for a holder that no slot is left for: the slot of the group that comes
first in that order (R404). -/
def State.slotVictims (s : State) (holder : Nat) : List Nat :=
  if s.mayHold holder then []
  else
    let slot (x : Nat × Group) : Option Nat := s.slotHolding (s.ptbase x.2.region)
    let others := s.groups.filter fun g => g.2.region ≠ holder && g.2.cluster.isSome && g.2.fault.isNone && !g.2.kept
    match others.foldl (fun l g => s.insertVictim g l) [] with
    | [] => []
    | g :: gs => ((g :: gs).filter fun x => slot x = slot g).map Prod.fst

/-- At the start of a turn: where the holder has a group that no ready cluster can take, groups of other regions are to be
pre-empted (R365, R404). -/
def State.preemptForHolder (s : State) : State :=
  match s.holder with
  | none => s
  | some h =>
    let stuck := (s.waitingGroups h).find? fun w => !(w.2.any fun c => s.fitsWithout c w.1 [])
    let out := (match stuck with | some w => s.roomByPreemption h w.1 w.2 | none => []) ++ s.slotVictims h
    out.foldl (fun s g => s.updGroup g fun x => { x with preempting := true }) s

/-- TURN_END (R364): the first turn of the path that is over ends, and the next one in rotation starts.
(DEDUCED, notes/assumptions/66.md) -/
def turnEnd (region : Nat) (s : State) : State :=
  match s.turnOver with
  | some (i, m) =>
    if m ≠ region then s
    else
      let s := s.chargeTurns
      let above := s.turnPath.take i
      let p := above.getLast?.getD 0
      let s := { s with turnPath := above }
      (s.descend 10 p (s.region p).turnLen).preemptForHolder
  | none => s
/-- TURN_END. -/
def execEvTurnEnd (region : Nat) (s : State) : Host.Outcome State Fault Refusal := .next (turnEnd region s)

/-! ## Placing (R19, R365) -/

/-- The regions with ready work below a node, in rotation order from the members that hold or held the turns. -/
def State.regionOrder (s : State) : Nat → Nat → List Nat
  | 0, _ => []
  | n + 1, p =>
    let ms := s.members p
    let start := match (s.region p).cursor with
      | some c => if ms.contains c then some c else s.nextMember p
      | none => ms.head?
    let turned := match start with
      | some m => ms.dropWhile (· ≠ m) ++ ms.takeWhile (· ≠ m)
      | none => ms
    (turned.map fun m => if m = p then [p] else s.regionOrder n m).flatten

/-- Whether every access of a pre-empted group has completed (R33). -/
def State.imagesReady (s : State) (g n : Nat) : Bool := (List.range n).all fun p => (s.ctx (parkKey g p)).accesses.isEmpty

/-- What a distributor places next. -/
inductive Placement where
  | resume (group cluster : Nat)
  | fresh (command g cluster : Nat)

/-- The first work of a region that a die can take now: a pre-empted group, then the groups of its ranges in order. A pre-empted group
that had reserved a continuation entry gave it up with its cluster, and takes one of the die that it resumes on, so that a die whose
queue is full cannot take it (DESIGN CHOICE, notes/assumptions/92.md). -/
def State.placementOf (s : State) (die region : Nat) : Option Placement :=
  let saved := (s.savedGroups region).findSome? fun g =>
    if s.imagesReady g.1 g.2.decl.n && s.roomFor region g.2.decl.n && g.2.fault.isNone
        && (!g.2.contReserved || (s.die die).contFree region) then
      (s.clusterFor die region g.2.decl).map fun c => Placement.resume g.1 c
    else none
  let fresh : Option Placement :=
    ((s.die die).ranges.find? fun r => r.live && s.commandRegion r.command = region).bind fun r =>
      (mapGet? s.commands r.command).bind fun c =>
        if s.roomFor region c.decl.n then
          (s.clusterFor die region c.decl).map fun cl => Placement.fresh r.command (r.first + r.next * r.stride) cl
        else none
  saved <|> fresh

/-- Whether a continuation of a die waits to be served: a queue in ERROR holds nothing up. -/
def State.contWaits (s : State) (die : Nat) : Bool :=
  (s.die die).conts.any fun q => q.waiting ≠ 0 && s.queueState (contNumber die q.number) ≠ 5
/-- What a distributor places next: the holder's work first, then that of the other ready regions in rotation order (R365). A die
serves its continuation queues first (R24). -/
def State.nextPlacement (s : State) (die : Nat) : Option Placement :=
  if !s.dieReady die || s.contWaits die then none
  else
    (s.regionOrder 10 0).findSome? fun r =>
      if s.mayHold r then s.placementOf die r else none

/-- The range of a command on a die moved past the group it has just placed; an empty range goes. -/
def State.advanceRange (s : State) (die command : Nat) : State :=
  let rec step : List GroupRange → List GroupRange
    | [] => []
    | r :: rs => if r.command = command && r.live then { r with next := r.next + 1 } :: rs else r :: step rs
  s.updDie die fun d => { d with ranges := (step d.ranges).filter GroupRange.live }

/-- GROUP_PLACE (R19): the distributor of a die places its next group, all or none. -/
def groupPlace (die : Nat) (s : State) : State :=
  match s.nextPlacement die with
  | some (.fresh command g cluster) =>
    match mapGet? s.commands command with
    | some c =>
      match s.assignAsid c.region with
      | some s => (s.advanceRange die command).placeOn command c g cluster
      | none => s
    | none => s
  | _ => s
/-- GROUP_PLACE. -/
def execEvGroupPlace (die : Nat) (s : State) : Host.Outcome State Fault Refusal := .next (groupPlace die s)

/-! ## Stealing (R22) -/

/-- The groups of a range not yet placed. -/
def GroupRange.rem (r : GroupRange) : Nat := r.stop - r.next
/-- The place of the range of a command that a thief probes: the victim's last with two or more groups. -/
def Die.stealable (d : Die) (command : Nat) : Option (Nat × GroupRange) :=
  ((d.ranges.mapIdx fun i r => (i, r)).filter fun x => x.2.command = command && decide (2 ≤ x.2.rem)).getLast?

/-- The probe of a thief for a command: the first victim in ascending cyclic order, with the place of its range. The dies that take part
are those ready now, one that became ready after the command started among them (DESIGN CHOICE, notes/assumptions/90.md). -/
def State.stealFrom (s : State) (thief command : Nat) : Option (Nat × Nat × GroupRange) :=
  let dies := s.readyDies
  let n := dies.length
  match findPlace (fun d => d = thief) dies 0 with
  | none => none
  | some (i, _) =>
    (List.range (n - 1)).findSome? fun j =>
      let v := dies.getD ((i + j + 1) % n) thief
      ((s.die v).stealable command).map fun x => (v, x.1, x.2)

/-- The first command of which a die holds nothing and another holds enough to give. (DEDUCED, notes/assumptions/84.md) -/
def State.stealTarget (s : State) (die : Nat) : Option (Nat × Nat × Nat × GroupRange) :=
  if !s.dieReady die then none
  else
    s.commands.findSome? fun c =>
      if c.2.unplaced = 0 || ((s.die die).ranges.any fun r => r.command = c.1 && r.live) then none
      else (s.stealFrom die c.1).map fun x => (c.1, x)

/-- A range put among those of a die, in the order in which their commands started. -/
def Die.insertRange (d : Die) (r : GroupRange) : Die :=
  let before (x : GroupRange) : Bool := decide (x.command ≤ r.command)
  { d with ranges := d.ranges.takeWhile before ++ r :: d.ranges.dropWhile before }
/-- STEAL (R22): the distributor of a die that has run dry of a command takes the upper part of another's range, which stands where its
own stood. (DEDUCED, notes/assumptions/84.md) -/
def steal (die : Nat) (s : State) : State :=
  match s.stealTarget die with
  | none => s
  | some (_, v, i, r) =>
    let keep := (r.rem + 1) / 2
    let s := s.updDie v fun d => { d with ranges := setPlace d.ranges i { r with stop := r.next + keep } }
    s.updDie die fun d => d.insertRange { r with next := r.next + keep }
/-- STEAL. -/
def execEvSteal (die : Nat) (s : State) : Host.Outcome State Fault Refusal := .next (steal die s)

end Sys2Proof.Machine
end

