-- ==== Sys2Proof/Machine/Preempt.lean ====
section
/-! DEFINITION. Groups stopped from outside: pre-emption and resumption (R32 to R35, R382), the contained fault of a group (R376), and
what fault control does with held operations (R373). -/

namespace Sys2Proof.Machine

/-! ## Held operations (R373) -/

/-- A held operation runs again from its recorded position (R215, R342). -/
def State.resumeHeld (s : State) (h : HeldOp) : State :=
  let s := { s with heldOps := s.heldOps.filter fun x => x ≠ h }
  (s.updCommand h.cmd.command fun x => { x with rerun := true }).reenter h.cmd
/-- A held operation is cancelled (R340, R373). -/
def State.cancelHeldOp (s : State) (h : HeldOp) : State :=
  let s := { s with heldOps := s.heldOps.filter fun x => x ≠ h }.touchAsid h.region
  if h.cmd.copy then s.cancelCopy h.cmd else s
/-- The order written for a held operation acted on: 1 RESUME, 2 CANCEL, 3 RELEASE. -/
def State.actOnHeld (s : State) (h : HeldOp) (order : Nat) : State :=
  if order = 1 then s.resumeHeld h else if order = 0 then s else s.cancelHeldOp h

/-- Whether the group of a held operation is pre-empted. -/
def State.heldAway (s : State) (h : HeldOp) : Bool :=
  match h.cmd.group.bind s.group? with | some g => g.cluster.isNone | none => false
/-- A write to the FQCTL of a region (R373): it acts on the operation whose record has this index in the region's fault queue, at
once, or at its resumption while its group is pre-empted. -/
def faultControl (region ref order : Nat) (s : State) : State :=
  match s.heldOps.find? fun h => h.fqRegion = region && h.index % 2 ^ 32 = ref % 2 ^ 32 && h.order = 0 with
  | none => s
  | some h =>
    if s.heldAway h then
      let mark (x : HeldOp) : HeldOp := if x = h then { x with order := order } else x
      { s with heldOps := s.heldOps.map mark }
    else s.actOnHeld h order
/-- FAULT_RESUME (R373). -/
def execEvFaultResume (region ref : Nat) (s : State) : Host.Outcome State Fault Refusal := .next (faultControl region ref 1 s)
/-- FAULT_CANCEL (R373). -/
def execEvFaultCancel (region ref : Nat) (s : State) : Host.Outcome State Fault Refusal := .next (faultControl region ref 2 s)
/-- FAULT_RELEASE (R373). -/
def execEvFaultRelease (region ref : Nat) (s : State) : Host.Outcome State Fault Refusal := .next (faultControl region ref 3 s)

/-! ## Pre-emption (R32, R33, R35) -/

/-- Whether a context of a group that is being pre-empted can be captured: it stands at a bundle boundary with nothing in
flight in its cluster (R32 steps 1 and 2). (DEDUCED, notes/assumptions/69.md) -/
def State.capturable (s : State) (k : Nat) : Bool :=
  let c := s.ctx k
  s.drained k && !s.frozen k && (c.drain = .none || c.drain = .exit) && c.maintenance.isEmpty

/-- The queue events that pops of a context have yet to deliver are delivered. -/
def State.deliverAll (s : State) (k : Nat) : State :=
  let events := (s.ctx k).pending.filter Pending.isNotify
  events.foldl (fun s p => match p.what with | .notify j f => s.setFlagEvent j f | _ => s)
    (s.updCtx k fun c => { c with pending := c.pending.filter fun p => !p.isNotify })

/-- Every result of some contexts that is still to land lands, queue events among them included. -/
def State.landAll (s : State) (ks : List Nat) : State :=
  ks.foldl (fun s k => s.landDue k ((s.ctx k).pending.foldl (fun n p => max n p.due) 0)) (ks.foldl State.deliverAll s)

/-- The overrun of a context rolls back (R317). -/
def State.endOverrun (s : State) (k : Nat) : State :=
  if (s.ctx k).overrun.isSome then overrunRollback k (s.updCtx k fun c => { c with drain := .rollback }) else s

/-- What pre-emption does to a context before its image is taken (R35, R379): its overrun rolls back, and an open phase is
cancelled. -/
def State.unwind (s : State) (k : Nat) : State :=
  let phase := (s.ctx k).phase
  let s := s.endOverrun k
  let s :=
    match (s.ctx k).phaseRec with
    | some p =>
      match p.exposed, p.bank with
      | false, some b => ((s.flush k).rollPhase k p b).refetchPhase k p
      | _, _ => s
    | none => s
  if phase = .halted then s.updCtx k fun c => { c with phase := .halted, block := none } else s

/-- The image of a context taken (R32 steps 3 and 4): it moves to its parked number, and its latches stand as its next bundle would
have read them. A debugger's HALT that waited for it acts at this bundle boundary (R416). -/
def State.park (s : State) (g pos k : Nat) : State :=
  let core := s.core (coreOf k)
  let running := core.running = some k
  let c := s.ctx k
  let c : Ctx := { c with
    phase := if c.phase = .running then .ready else c.phase
    restored := if running then some core.lat else c.restored
    firstIssue := none, loopBuf := none, loopLock := false }
  s.setCtx (parkKey g pos) (if c.haltReq && c.phase ≠ .done then
    { c with phase := .halted, block := none, shadow := c.restored.getD Latches.zero, restored := none, haltReq := false }
  else { c with haltReq := false })

/-- A started copy command of a group runs on to the end of its chunk of 4,096 bytes (R32, R341). -/
def State.finishChunk (s : State) (id : Nat) (c : EngineCmd) : State :=
  match c.desc with
  | some d =>
    if c.started && !s.waitsTile id c && decide (c.position % 4096 ≠ 0) then
      s.runCopy id ((4096 - c.position % 4096) / max d.size 1)
    else s
  | none => s

/-- The saved contents of a bank (R32 step 5). -/
def State.saveBank (s : State) (cluster j b : Nat) : SavedBank :=
  { localBank := j, mode := s.bankMode cluster b
    haze := (s.cluster cluster).haze.find? fun h => h.bank = b
    wrote := ((s.cluster cluster).wrote[b]?).getD 0
    bytes := memSlice s.mem (bankKey cluster b 0) (2 ^ 19) }

/-- The saved contents of a group's tiles, by local byte offset. -/
def State.saveTiles (s : State) (cluster : Nat) (contexts : List Nat) : List (Nat × Byte) :=
  ((contexts.mapIdx fun p h => (p, h)).map fun x =>
    (memSlice s.mem (tileKey cluster (2 * x.2) 0) (2 ^ 16)).map fun b => (x.1 * 2 ^ 16 + b.1, b.2)).flatten

/-- An engine command as it is saved: a copy keeps its position, a Canopy command its finished units. -/
def EngineCmd.stopped (c : EngineCmd) : EngineCmd :=
  if c.copy then { c with resumed := c.resumed || c.started } else { c with started := false, entries := [] }

/-- A group captured and its cluster's resources freed (R32 to R35); its rendezvous latches are cleared (R206 Table 13, R221), and
what it has in the stationary latches spills (R202). -/
def State.captureGroup (s : State) (g : Nat) (x : Group) (cluster : Nat) : State :=
  let s := s.landAll x.keys
  let s := x.keys.foldl State.unwind s
  let s := (s.engine.filter fun e => e.2.group = some g && e.2.copy).foldl (fun s e => s.finishChunk e.1 e.2) s
  let s := s.landAll x.keys
  let mine := s.engine.filter fun e => e.2.group = some g
  let s := mine.foldl (fun s e => s.dropEngine e.1) s
  let saved : SavedGroup :=
    { cluster := cluster
      banks := x.banks.mapIdx fun j b => s.saveBank cluster j b
      tiles := s.saveTiles cluster x.contexts
      commands := mine.map fun e => e.2.stopped }
  let s := (x.keys.mapIdx fun p k => (p, k)).foldl (fun s y => s.park g y.1 y.2) s
  let s := ((s.traceGroup g 5 0).spillLatches cluster g).vacate g
  let s := if x.contReserved then s.releaseCont (dieOf cluster) x.region else s
  s.updGroup g fun y => { y with
    cluster := none, banks := [], saved := some saved, preempting := false
    latches := y.latches.map fun _ => RendezvousLatch.clear }

/-- The context of a group whose phase a pre-emption would cancel for the fifth time in a row (R381). -/
def State.cancelledOut (s : State) (x : Group) : Option Nat :=
  x.keys.find? fun k => (s.ctx k).inOpenPhase && decide (4 ≤ (s.ctx k).cancels)
/-- A trap cause that the spec leaves open (DESIGN CHOICE, notes/assumptions/66.md). -/
def State.openCause (s : State) (tag : Nat) : Cause :=
  let all : List Cause := [.illegalStream, .illegalCw, .scheduleFault, .privilege, .formatDiverge, .partialMask, .misaligned,
    .pageFault, .accessFault, .poison, .checkMismatch, .software, .svc, .fpTrap, .poolRegionLost, .queueProtocol, .breakpoint,
    .rendezvousTimeout]
  all.getD (s.openNat tag % 18) .poison

/-- PREEMPT (R32, R365): a placed group is stopped at its next bundle boundaries. Once it stands there with its cluster's work done,
it is captured; where that would cancel a phase for the fifth time in a row, the group ends instead, with a cause that the spec does
not name (R381; DESIGN CHOICE, notes/assumptions/66.md). (DEDUCED, notes/assumptions/54.md)
(DEDUCED, notes/assumptions/69.md) -/
def preempt (g : Nat) (s : State) : State :=
  match s.group? g with
  | none => s
  | some x =>
    match x.cluster with
    | none => s
    | some c =>
      if x.fault.isSome || x.kept then s
      else if x.keys.all s.capturable && !((s.cluster c).switches.any fun w => x.banks.contains w.bank) then
        match s.cancelledOut x with
        | some k =>
          ((s.updGroup g fun y => { y with preempting := false }).faultGroup k (s.openCause (2 ^ 59 + k)) 15 0
            ((s.ctx k).pc.zeroExtend 64)).count (ctrRerun (dieOf c % 8)) 1
        | none => s.captureGroup g x c
      else s.updGroup g fun y => { y with preempting := true }
/-- PREEMPT. -/
def execEvPreempt (group : Nat) (s : State) : Host.Outcome State Fault Refusal := .next (preempt group s)

/-- PENDING_ACCESS_COMPLETE (R33): the oldest access of a position of a pre-empted group is performed, and its value or its flag
goes to the saved image. -/
def pendingAccessComplete (g pos : Nat) (s : State) : State := s.performFirst (parkKey g pos) 1
/-- PENDING_ACCESS_COMPLETE. -/
def execEvPendingAccessComplete (group pos : Nat) (s : State) : Host.Outcome State Fault Refusal :=
  .next (pendingAccessComplete group pos s)

/-! ## Resumption (R34) -/

/-- An engine command of a group that ends by a fault: a copy command is cancelled, a Canopy command discarded (R376 step 4). -/
def State.endCommand (s : State) (c : EngineCmd) : State := if c.copy then s.cancelCopy c else s

/-- The dictionaries of a parked group's contexts bound on the cores of their new hardware contexts, from their saved object
addresses (R34, R77, R79): the cause and the object of the first that fails. -/
def State.rebind (s : State) (g region : Nat) : List (Nat × Nat) → Option (Cause × Nat) × State
  | [] => (none, s)
  | (pos, k) :: rest =>
    let object := (s.ctx (parkKey g pos)).dictObj
    match s.bindObject (coreOf k) region object (some k) (s.mayBindPriv (coreOf k) region) with
    | (some (.ok h), s) => (s.setCtx k { Ctx.launch with phase := .halted, dictHandle := h, dictObj := object }).rebind g region rest
    | (some (.error c), s) => (some (c, object), s)
    | (none, s) => (some (.illegalStream, object), s)

/-- A watch of a resumed context: a scratchpad watch stands where its address now lies, and each watch is read anew. -/
def State.rearm (s : State) (k : Nat) (w : Watch) : Watch :=
  let w := if w.spad then
    match s.spadCheck k w.size w.va with | .bank _ key => { w with place := { w.place with key := key } } | .fault _ => w
    else w
  { w with hit := w.hit || s.watchHolds w }

/-- An exposed phase of a resumed context takes a checkpoint bank of its new core for the phases that follow it, if one is free. -/
def State.retakeBank (s : State) (k : Nat) : State :=
  match (s.ctx k).phaseRec.bind PhaseRecord.bank with
  | none => s
  | some _ =>
    let b := s.freeBank (coreOf k)
    let s := s.updCtx k fun c => { c with phaseRec := c.phaseRec.map fun p => { p with bank := b } }
    match b with
    | some b => s.takeBank k b CheckpointBank.empty.snapshot
    | none => s

/-- A parked context comes to its new hardware context, for which its dictionary is bound (R34). A member of a partial rendezvous
reissues its bundle (R35). -/
def State.unpark (s : State) (g pos k : Nat) : State :=
  let c := s.ctx (parkKey g pos)
  let handle := (s.ctx k).dictHandle
  let s := { s with ctxs := mapErase s.ctxs (parkKey g pos) }
  let s := (s.setCtx k { c with placedAt := s.clk, dictHandle := handle }).retakeBank k
  let s := c.watches.foldl (fun s w => s.mergeLine (lineOf w.place.key)) s
  let s := s.updCtx k fun c => { c with watches := c.watches.map (s.rearm k) }
  match c.phase, c.block with
  | .ready, _ => s.makeReady k
  | .blocked, some (.rendezvous _) => s.makeReady k
  | _, _ => s

/-- A saved bank put back. -/
def State.restoreBank (s : State) (cluster b : Nat) (x : SavedBank) : State :=
  let s := s.switchBank cluster b x.mode
  let s := { s with mem := memRestore s.mem (bankKey cluster b 0) x.bytes }
  s.updCluster cluster fun c =>
    let rest := c.haze.filter fun h => h.bank ≠ b
    { c with
      wrote := c.wrote.setIfInBounds b x.wrote
      haze := match x.haze with | some h => { h with bank := b } :: rest | none => rest }

/-- A command of a group on its new cluster. -/
def State.rehome (s : State) (cluster : Nat) (c : EngineCmd) : EngineCmd :=
  { c with cluster := cluster, core := coreOf (s.issuerOf c), asid := s.asidOf c.region }

/-- The held operations of a resumed group: those that an order was written for while it was away run again or end (R373). -/
def State.settleHeld (s : State) (g cluster : Nat) : State :=
  let mine (h : HeldOp) : Bool := h.cmd.group = some g
  let moved (h : HeldOp) : HeldOp := if mine h then { h with cmd := s.rehome cluster h.cmd } else h
  let s := { s with heldOps := s.heldOps.map moved }
  (s.heldOps.filter fun h => mine h && decide (h.order ≠ 0)).foldl (fun s h => s.actOnHeld h h.order) s

/-- The parked contexts of a group given up. -/
def State.dropParked (s : State) (g n : Nat) : State :=
  (List.range n).foldl (fun s p => { s with ctxs := mapErase s.ctxs (parkKey g p) }) s

/-- The contexts of a cluster that a group's contexts will take, by position. -/
def State.newKeys (s : State) (x : Group) (cluster : Nat) : List (Nat × Nat) :=
  (takeContexts x.decl.n (s.freeContexts cluster)).mapIdx fun p h => (p, 16 * cluster + h)

/-- The resumption of a group whose dictionary header is refused or cannot be read: its placement stops, the group goes, and its
command ends with a record (R77). (DEDUCED, notes/assumptions/69.md) -/
def State.refuseResumption (s : State) (g : Nat) (x : Group) (v : SavedGroup) (keys : List (Nat × Nat)) (cause : Cause)
    (object : Nat) : State :=
  let s := keys.foldl (fun s y => s.setCtx y.2 Ctx.launch) s
  let s := (s.recordRefused x.command cause object).dropRanges x.command
  let s := v.commands.foldl State.endCommand s
  (s.endGroup g true).dropParked g x.decl.n

/-- A pre-empted group put on a cluster, its dictionaries bound (R34). -/
def State.resumeOn (s : State) (g : Nat) (x : Group) (v : SavedGroup) (cluster : Nat) (contexts : List Nat) : State :=
  let banks := (s.freeBanks cluster).take (x.decl.b + x.decl.q)
  let s := s.updGroup g fun y => { y with
    cluster := some cluster, contexts := contexts, banks := banks, saved := none, placedAt := s.clk }
  let s := (v.banks.foldl (fun s b => s.restoreBank cluster (banks.getD b.localBank 0) b) s)
  let s := s.clearTiles cluster contexts
  let s := (contexts.mapIdx fun p h => (p, h)).foldl (fun (s : State) y =>
    let part := v.tiles.filter fun b => b.1 / 2 ^ 16 = y.1
    { s with mem := memRestore s.mem (tileKey cluster (2 * y.2) 0) (part.map fun b => (b.1 % 2 ^ 16, b.2)) }) s
  let s := (contexts.mapIdx fun p h => (p, h)).foldl (fun s y => s.unpark g y.1 (16 * cluster + y.2)) s
  let s := s.bumpUsed x.region true x.decl.n
  let s := if x.contReserved then s.reserveCont (dieOf cluster) x.region else s
  let s := v.commands.foldl (fun s c => s.reenter (s.rehome cluster c)) s
  (s.settleHeld g cluster).traceGroup g 6 0

/-- RESUMPTION (R34, R365): a pre-empted group whose pending accesses have completed takes a cluster of a die.
(DEDUCED, notes/assumptions/54.md) -/
def resumption (g die : Nat) (s : State) : State :=
  match s.nextPlacement die with
  | some (.resume g' cluster) =>
    if g' ≠ g then s
    else
      match s.group? g with
      | none => s
      | some x =>
        match x.saved, s.assignAsid x.region with
        | some v, some s =>
          let keys := s.newKeys x cluster
          match s.rebind g x.region keys with
          | (some (cause, object), s) => s.refuseResumption g x v keys cause object
          | (none, s) => s.resumeOn g x v cluster (keys.map fun y => y.2 % 16)
        | _, _ => s
  | _ => s
/-- RESUMPTION. -/
def execEvResumption (group die : Nat) (s : State) : Host.Outcome State Fault Refusal := .next (resumption group die s)

/-! ## Contained faults (R376) -/

/-- The record of a contained fault (R368, SRC 0). -/
def State.recordFault (s : State) (g : Nat) (x : Group) (f : GroupFault) : State :=
  let c := s.ctx (s.keyAt g f.pos)
  let cmd := mapGet? s.commands x.command
  (s.publish x.region c.lts
    { FaultRecord.blank 0 with
      cause := causeCode f.cause, exp := f.exposed, queue := (cmd.map Command.queue).getD 0
      seq := (cmd.map Command.seq).getD 0, addr := f.tval.toNat, detail := f.slot, engine := s.engineAt (s.keyAt g f.pos)
      ref := f.tepc.toNat }).2

/-- The contexts of a group, placed or parked. -/
def State.memberKeys (s : State) (g : Nat) (x : Group) : List Nat := (List.range x.decl.n).map fun p => s.keyAt g p

/-- Whether every context of a faulted group has stopped with its work drained, and none of its accesses is held by replay. -/
def State.stopped (s : State) (g : Nat) (x : Group) : Bool :=
  (s.memberKeys g x).all fun k => (s.drained k || x.cluster.isNone) && !((s.ctx k).accesses.any (s.accessHeld k))

/-- CONTAINED_FAULT (R376): a group that a fault ends has stopped: its stores are performed, its overrun rolls back, its phases are
dropped, its copy commands cancelled, its record written and its resources freed. -/
def containedFault (g : Nat) (s : State) : State :=
  match s.group? g with
  | none => s
  | some x =>
    match x.fault with
    | none => s
    | some f =>
      if !s.stopped g x then s
      else
        let keys := s.memberKeys g x
        let s := keys.foldl State.endOverrun (keys.foldl State.flush s)
        let mine := s.engine.filter fun e => e.2.group = some g
        let s := mine.foldl (fun s e => (s.dropEngine e.1).endCommand e.2) s
        let s := ((x.saved.map SavedGroup.commands).getD []).foldl State.endCommand s
        let s := s.recordFault g x f
        let s := s.endGroup g true
        if x.cluster.isNone then s.dropParked g x.decl.n else s
/-- CONTAINED_FAULT. -/
def execEvContainedFault (group : Nat) (s : State) : Host.Outcome State Fault Refusal := .next (containedFault group s)

end Sys2Proof.Machine
end

