-- ==== Sys2Proof/Machine/Launch.lean ====
section
/-! DEFINITION. Queues and their control blocks (R344 to R346, R353), packets and their checks (R347 to R354), the serve of a head
packet (R352, R358 to R360, R453), and the completion of a command (R351). -/

namespace Sys2Proof.Machine

/-! ## Queue states (R353) -/

/-- QUSED of a region and its ancestors changed by one (R396). -/
def State.bumpQueues (s : State) (region : Nat) (up : Bool) : State :=
  (s.path region).foldl (fun s r =>
    let s := s.updRegion r fun x => { x with qused := if up then x.qused + 1 else x.qused - 1 }
    s.setTableWord (s.rcbAddr r + 0x4A) 2 (s.region r).qused) s

/-- A queue given up by its lane (R359 and the release rows of R353 Table 6); a continuation queue that is now empty may be freed. -/
def State.releaseQueue (s : State) (q : Nat) : State :=
  let s := (s.updHold q fun h => h.released none).touchAsid (s.queueRegion q)
  let s := s.setQueueState q (if (s.hold q).held < s.writeIndex q then 2 else 1)
  if isCont q then s.pruneConts (contDie q) else s

/-- The Understory core that parses a queue (R355). -/
def understoryOf (q : Nat) : Nat := if isCont q then contDie q else q % 8
/-- ENGINE of a record about a queue (R355, R368 SRC 3): the context that served the packet; where none has, context 0 of its core
(DESIGN CHOICE, notes/assumptions/67.md). -/
def serveEngine (q : Nat) (ctx : Option Nat) : Nat :=
  match ctx with
  | some k => engineOf k
  | none => understoryOf q

/-- A queue enters ERROR (R353, R354): ERRIDX is set, its lane releases it, and the record is written.
(DEDUCED, notes/assumptions/70.md) -/
def State.queueError (s : State) (q idx errIdx sub : Nat) (ctx : Option Nat) : State :=
  let s := s.updHold q fun h => { h.released none with waitFrom := none }
  let s := (s.setQueueState q 5).setQcb q 0x28 8 errIdx
  (s.publish (s.queueRegion q) ((ctx.map fun k => (s.ctx k).lts).getD 0)
    { FaultRecord.blank 3 with
      cause := causeCode .queueProtocol, queue := q, seq := idx, addr := s.slotAddr q idx, detail := sub
      engine := serveEngine q ctx, ref := errIdx }).2

/-! ## The notify register (R346, R353) -/

/-- A queue waits BLOCKED, released by its lane (R353, R359). -/
def State.blockQueue (s : State) (q : Nat) (b : Option QueueBlock) : State :=
  (s.updHold q fun h => h.released b).setQueueState q 4
/-- A queue waits BLOCKED for its debugger (R417); what its head has already passed stays. -/
def State.stopQueue (s : State) (q : Nat) : State := s.blockQueue q (s.hold q).blocked
/-- The commands of a queue that still run. -/
def State.running (s : State) (q : Nat) : Bool := s.commands.any fun c => c.2.queue = q
/-- Whether a debugger holds a queue at a command boundary (R417). -/
def State.heldByDebugger (s : State) (q : Nat) : Bool := (s.hold q).stopped && (s.hold q).steps = 0
/-- A STOPPED record of a queue that a debugger holds, once no command of it runs (R417): not while it is DISABLED or in ERROR. -/
def State.recordStopped (s : State) (q : Nat) : State :=
  if s.heldByDebugger q && s.queueState q ≠ 0 && s.queueState q ≠ 5 && !s.running q then
    s.trace (s.queueRegion q) 10 0 { queue := q, seq := 0, engine := 0, pos := 0, gidx := 0 } (BitVec.ofNat 64 (s.hold q).held)
  else s
/-- The hold of a debugger applied to a queue that is neither DISABLED nor in ERROR: it is BLOCKED (R417). -/
def State.applyHold (s : State) (q : Nat) : State :=
  if s.heldByDebugger q && s.queueState q ≠ 0 && s.queueState q ≠ 5 then (s.stopQueue q).recordStopped q else s

/-- The outcome of a read of RDADDR at ENABLE or RESUME (R344, R454). -/
def State.readIndex (s : State) (q : Nat) : Except Cause Nat × State :=
  match s.deviceRead (s.queueRegion q) 0 (BitVec.ofNat 64 (s.qcb q 0x10 8)) 8 with
  | (.ok (v, _), s) => (.ok v, s)
  | (.error c, s) => (.error c, s)

/-- A queue takes its read index from memory and the state that follows, and a debugger's hold applies (R417); where the read fails it
is in ERROR with subcode 6. -/
def State.takeIndex (s : State) (q next : Nat) : State :=
  match s.readIndex q with
  | (.ok v, s) =>
    let s := s.updHold q fun h => { h.released none with held := v, waitFrom := none }
    (s.setQueueState q (if next = 1 && decide (v < s.writeIndex q) then 2 else next)).applyHold q
  | (.error _, s) => s.queueError q (s.hold q).held (s.hold q).held 6 none

/-- Whether one more queue that is not DISABLED keeps a region and its ancestors within QCNT (R398). -/
def State.queueRoom (s : State) (region : Nat) : Bool :=
  (s.path region).all fun r => decide ((s.region r).qused + 1 ≤ (s.eff 3 r).qcnt)

/-- QUEUE_RESUME (R353, R454). -/
def queueResume (q : Nat) (s : State) : State := if !isCont q && s.queueState q = 5 then s.takeIndex q 2 else s
/-- QUEUE_RESUME. -/
def execEvQueueResume (queue : Nat) (s : State) : Host.Outcome State Fault Refusal := .next (queueResume queue s)

/-- QUEUE_ENABLE (R353, R398): ignored where it would break QCNT. -/
def queueEnable (q : Nat) (s : State) : State :=
  if !isCont q && s.queueState q = 0 && s.queueRoom (s.queueRegion q) then
    (s.bumpQueues (s.queueRegion q) true).takeIndex q 1
  else s
/-- QUEUE_ENABLE. -/
def execEvQueueEnable (queue : Nat) (s : State) : Host.Outcome State Fault Refusal := .next (queueEnable queue s)

/-- QUEUE_DISABLE (R353). -/
def queueDisable (q : Nat) (s : State) : State :=
  if !isCont q && s.queueState q ≠ 0 then
    let s := s.updHold q fun h => { h.released none with waitFrom := none }
    (s.setQueueState q 0).bumpQueues (s.queueRegion q) false
  else s
/-- QUEUE_DISABLE. -/
def execEvQueueDisable (queue : Nat) (s : State) : Host.Outcome State Fault Refusal := .next (queueDisable queue s)

/-- NOTIFY (R346): a write of the notify register of a user queue, a notify or a command. -/
def notify (q : Nat) (w : W64) (s : State) : State :=
  if isCont q then s
  else if w.getLsbD 63 then
    if (w.truncate 63 : BitVec 63).toNat / 4 ≠ 0 then s
    else match w.toNat % 4 with
      | 1 => queueResume q s
      | 2 => queueEnable q s
      | 3 => queueDisable q s
      | _ => s
  else
    let s := s.setQcb q 0x20 8 (max (s.qcb q 0x20 8) w.toNat)
    if s.queueState q = 1 && decide ((s.hold q).held < s.writeIndex q) then s.setQueueState q 2 else s
/-- NOTIFY. -/
def execEvNotify (queue : Nat) (value : BitVec 64) (s : State) : Host.Outcome State Fault Refusal := .next (notify queue value s)

/-! ## Packets (R347 to R349) -/

/-- TYPE of a header. -/
def headerType (h : Nat) : Nat := h % 16
/-- ACQ of a header. -/
def headerAcq (h : Nat) : Nat := h / 2 ^ 8 % 8
/-- REL of a header. -/
def headerRel (h : Nat) : Nat := h / 2 ^ 11 % 8
/-- SIGIDX of a header. -/
def headerSig (h : Nat) : Nat := h / 2 ^ 32 % 2 ^ 32
/-- A scope code of a header: 0 none, 2 DEV, 3 POOL, 4 SYS. -/
def scopeCode (n : Nat) : Bool := n = 0 || n = 2 || n = 3 || n = 4

/-- Steps 2 to 4 of R354 on a header that is not empty: the subcode of the first check it fails. -/
def headerError (cont : Bool) (h : Nat) : Option Nat :=
  if 9 ≤ headerType h then some 1
  else if h / 2 ^ 4 % 16 ≠ 0 || h / 2 ^ 15 % 2 ^ 17 ≠ 0 || !scopeCode (headerAcq h) || !scopeCode (headerRel h) then some 2
  else if cont ≠ (headerType h = 7) then some 3
  else none

/-- Whether n bytes at an offset are zero. -/
def zeroField (bs : List Byte) (off n : Nat) : Bool := fieldAt bs off n = 0

/-- A group declaration as a DECL word carries it (R349). -/
def declOf (w : Nat) : Decl :=
  { n := w % 16 + 1, b := w / 2 ^ 4 % 32, q := w / 2 ^ 9 % 32, barriers := w / 2 ^ 14 % 16, queues := w / 2 ^ 18 % 32
    latches := w / 2 ^ 23 % 8 }
/-- Whether a DECL word is well formed (R349). -/
def declValid (w : Nat) : Bool :=
  let d := declOf w
  decide (d.b + d.q ≤ 16) && decide (d.barriers ≤ 8) && decide (d.queues ≤ 16) && decide (d.latches ≤ 4)
    && (d.queues = 0 || d.q ≠ 0) && w / 2 ^ 26 = 0

/-- Step 7 of R354: whether the body of a packet of 64 bytes is well formed (R349, R354 Table 7 subcode 5). -/
def bodyValid (type : Nat) (bs : List Byte) : Bool :=
  match type with
  | 1 => decide (fieldAt bs 0x0A 1 ≤ 16) && zeroField bs 0x0B 1 && !zeroField bs 0x0C 4 && fieldAt bs 0x10 8 % 8 = 0
      && zeroField bs 0x20 16
  | 2 => fieldAt bs 0x10 8 % 128 = 0 && !zeroField bs 0x20 4 && declValid (fieldAt bs 0x24 4) && zeroField bs 0x28 24
  | 3 => fieldAt bs 0x08 8 % 64 = 0 && zeroField bs 0x10 48
  | 4 => decide (fieldAt bs 0x0C 1 ≤ 1) && zeroField bs 0x0D 3 && zeroField bs 0x18 40
  | 5 => decide (fieldAt bs 0x0C 1 ≤ 3) && zeroField bs 0x0D 3 && zeroField bs 0x20 32
  | 6 => zeroField bs 0x28 24
  | 7 => !zeroField bs 0x1C 4 && zeroField bs 0x30 16
  | 8 => fieldAt bs 8 8 % 64 = 0 && decide (1 ≤ fieldAt bs 0x10 1) && decide (fieldAt bs 0x10 1 ≤ 20) && zeroField bs 0x11 7
  | _ => false

/-- n bytes of a queue's ring read at its scope; the ring must lie in tier 0 or tier 3 (R344, R348, R354). -/
def State.ringRead (s : State) (region : Nat) (lts : W64) (va n : Nat) : Except Cause (Nat × W64) × State :=
  match s.deviceWalk region .load (BitVec.ofNat 64 va) with
  | .error c => (.error c, s)
  | .ok p =>
    if tierOf p.key = 0 || tierOf p.key = 3 then s.deviceRead region lts (BitVec.ofNat 64 va) n else (.error .accessFault, s)

/-- The timestamp after an acquire of the device at a scope: no smaller than that of any access performed so far, since a line's lease
covers its loads and its write timestamp its stores (R292, R293); and beyond the device above every back-invalidation received
(R299, R300, R351). -/
def State.acquireStamp (s : State) (acq : Nat) (lts : W64) : W64 :=
  if acq = 0 then lts
  else
    let t := s.stamps.foldl (fun (t : W64) e => laterOf (laterOf t e.2.1) e.2.2) lts
    if acq ≤ 2 then t else nextStamp t s.newestFar
/-- The scope of the ring that a region's virtual address lies in: 2 DEV for tier 0, 4 SYS for tier 3 (R348). -/
def State.ringScope (s : State) (region va : Nat) : Nat :=
  match s.deviceWalk region .load (BitVec.ofNat 64 va) with
  | .ok p => if tierOf p.key = 3 then 4 else 2
  | .error _ => 2

/-- The header at a packet index of a queue, read as an acquire at the ring's scope (R348): its word, or a failed read. -/
def State.headerAt (s : State) (q : Nat) (lts : W64) (idx : Nat) : Except Cause (Nat × W64) × State :=
  let scope := s.ringScope (s.queueRegion q) (s.slotAddr q idx)
  match s.ringRead (s.queueRegion q) lts (s.slotAddr q idx) 8 with
  | (.ok (h, lts), s) => (.ok (h, s.acquireStamp scope lts), s)
  | x => x

/-- Whether the head packet of a queue waits by its BAR bit for earlier packets (R354 step 5). -/
def State.barHeld (s : State) (q h : Nat) : Bool := h.testBit 14 && s.running q

/-- The address of signal word i of a queue. -/
def State.signalAddr (s : State) (q i : Nat) : W64 := BitVec.ofNat 64 (s.qcb q 0x18 8 + 8 * i)
/-- A signal word of a queue read. -/
def State.signalWord (s : State) (q : Nat) (lts : W64) (i : Nat) : Except Cause (Nat × W64) × State :=
  s.deviceRead (s.queueRegion q) lts (s.signalAddr q i) 8

/-- The words that a WAIT or BARRIER-AND tests, each with its value read, and the timestamp after the reads; none where a read
fails. -/
def State.testedWords (s : State) (q : Nat) (lts : W64) : List Nat → Option (List Nat) × W64 × State
  | [] => (some [], lts, s)
  | i :: is =>
    match s.signalWord q lts i with
    | (.error _, s) => (none, lts, s)
    | (.ok (v, lts), s) =>
      let (vs, lts, s) := s.testedWords q lts is
      (vs.map (v :: ·), lts, s)

/-- The signal indices that a WAIT or BARRIER-AND names. -/
def testedIndices (type : Nat) (bs : List Byte) : List Nat :=
  if type = 5 then [fieldAt bs 8 4]
  else if type = 6 then (tabulate (fun j => fieldAt bs (8 + 4 * j) 4) 6 0).filter (· ≠ 0)
  else []
/-- Whether a WAIT or BARRIER-AND passes on the values of its words (R352). -/
def passes (type : Nat) (bs : List Byte) (vs : List Nat) : Bool :=
  if type = 5 then vs.all fun x => waitCond (fieldAt bs 0x0C 1) x (fieldAt bs 0x10 8) else vs.all (· = 0)
/-- TIMEOUT of a WAIT or BARRIER-AND. -/
def timeoutOf (type : Nat) (bs : List Byte) : Nat := fieldAt bs (if type = 5 then 0x18 else 0x20) 8
/-- What a queue waits for whose WAIT or BARRIER-AND has not passed (R352): its watch is armed on the places of the words. -/
def State.blockOf (s : State) (q type : Nat) (bs : List Byte) : QueueBlock :=
  let key (i : Nat) : Option Nat :=
    match s.deviceWalk (s.queueRegion q) .load (s.signalAddr q i) with
    | .ok p => some p.key
    | .error _ => none
  .words ((testedIndices type bs).filterMap key) (if type = 5 then fieldAt bs 0x0C 1 else 0)
    (BitVec.ofNat 64 (if type = 5 then fieldAt bs 0x10 8 else 0)) (timeoutOf type bs) false
/-- Whether an evaluation of the WAIT or BARRIER-AND at the head of a queue has passed after a write to its words (R352); one that has
passed lets the packet pass (DEDUCED, notes/assumptions/25.md). -/
def QueueHold.passed (h : QueueHold) : Bool :=
  match h.blocked with
  | some (.words _ _ _ _ p) => p
  | _ => false

/-! ## Completion (R351) -/

/-- A signal word changed by an atomic of the device at a scope, where Table 3 of R302 puts it; none where it cannot be accessed. -/
def State.signalAtomic (s : State) (region scope : Nat) (lts : W64) (va : W64) (op : Nat) (x : W64) : Option W64 × State :=
  match s.deviceWalk region .update va with
  | .error _ => (none, s.walkFailed region va)
  | .ok p =>
    let (lts, s) := s.stampWalk lts (s.ptbase region) va.toNat
    let r := s.atomicAt lts p.key 8 op x 0
    match r.value with
    | some _ => (some r.lts, r.state.through (farAtomic scope p) p.key)
    | none => (none, r.state)

/-- The completion steps of a packet (R351): its signal word falls by one, at REL scope or at DEV scope; where that fails a record is
written. The timestamp that follows stands first. -/
def State.completePacket (s : State) (q region seq sigidx rel : Nat) (lts : W64) (ctx : Option Nat) : W64 × State :=
  if sigidx = 0 then (lts, s)
  else
    let va := s.signalAddr q sigidx
    match s.signalAtomic region (max rel 2) lts va 0 (BitVec.allOnes 64) with
    | (some lts, s) => (lts, s)
    | (none, s) =>
      (lts, (s.publish region lts
        { FaultRecord.blank 3 with
          cause := causeCode .queueProtocol, queue := q, seq := seq, addr := va.toNat, detail := 9
          engine := serveEngine q ctx, ref := seq }).2)

/-- Whether the work of a command has ended (R351). -/
def State.commandDone (s : State) (n : Nat) : Bool :=
  match mapGet? s.commands n with
  | some c =>
    c.left = 0 && !(s.engine.any fun e => e.2.command = n) && !(s.heldOps.any fun h => h.cmd.command = n)
      && !(s.groups.any fun g => g.2.command = n)
  | none => false

/-- COMMAND_COMPLETE (R351, R417, R422). -/
def commandComplete (n : Nat) (s : State) : State :=
  match mapGet? s.commands n with
  | none => s
  | some c =>
    if !s.commandDone n then s
    else
      let s := (s.completePacket c.queue c.region c.seq c.sigidx c.rel c.lts c.server).2
      let t := mapGet? s.traces c.region
      let logs := (t.map TraceService.logs).getD false
      let incomplete := c.incomplete || (t.map TraceService.logFull).getD false
      let flags := (if c.rerun then 1 else 0) + (if incomplete then 2 else 0)
      let s := s.trace c.region 2 flags (s.commandName n) (if logs then c.hash else 0)
      let s := { s with commands := mapErase s.commands n }
      s.recordStopped c.queue
/-- COMMAND_COMPLETE. -/
def execEvCommandComplete (command : Nat) (s : State) : Host.Outcome State Fault Refusal := .next (commandComplete command s)

/-! ## Launches (R22, R357) -/

/-- The ordinal of a new command of a queue (R420), counted. -/
def State.takeOrdinal (s : State) (region q : Nat) : Nat × State :=
  match mapGet? s.traces region with
  | none => (0, s)
  | some t =>
    let n := mapGet t.ordinals 0 q
    (n, { s with traces := mapSet s.traces region { t with ordinals := mapSet t.ordinals q (n + 1) } })

/-- A command started: it is entered in the table of running commands, and its CMDSTART record is written. -/
def State.startCommand (s : State) (c : Command) : State :=
  let (ord, s) := s.takeOrdinal c.region c.queue
  let n := s.nextCommand
  let s := { s with nextCommand := n + 1, commands := mapSet s.commands n { c with ordinal := ord } }
  s.trace c.region 1 0 (s.commandName n) (BitVec.ofNat 64 c.type)

/-- What a launch gives its command. -/
structure LaunchSpec where
  queue : Nat
  seq : Nat
  server : Option Nat
  type : Nat
  region : Nat
  header : Nat
  entry : W64
  dictObj : W64
  args : W64
  gcount : Nat
  decl : Decl
  bas : Vector W64 16
  lts : W64

/-- The command of a launch. -/
def LaunchSpec.command (x : LaunchSpec) : Command :=
  { queue := x.queue, seq := x.seq, server := x.server, type := x.type, region := x.region, entry := x.entry
    dictObj := x.dictObj, args := x.args, gcount := x.gcount, decl := x.decl, bas := x.bas, left := x.gcount, unplaced := x.gcount, rel := headerRel x.header
    sigidx := headerSig x.header, hash := 0, rerun := false, incomplete := false, ordinal := 0, lts := x.lts
    cancelled := false }

/-- The share of a grid of g groups that the i-th of n ready dies takes: groups i, i + n, … (R22). -/
def gridShare (command g n i : Nat) : GroupRange :=
  { command := command, first := i, stride := n, next := 0, stop := (g + n - 1 - i) / max n 1 }

/-- A launch submitted to the distributors (R22, R357). Where no die is ready its groups are lost, and the command ends with a
record (R23, R384). -/
def State.submit (s : State) (x : LaunchSpec) : State :=
  let n := s.nextCommand
  let s := s.startCommand x.command
  let dies := s.readyDies
  if dies.isEmpty then
    let s := s.updCommand n fun c => { c with left := 0, unplaced := 0 }
    (s.publish x.region x.lts
      { FaultRecord.blank 6 with cause := causeCode .poison, queue := x.queue, seq := x.seq }).2
  else
    (dies.mapIdx fun i d => (i, d)).foldl (fun s y =>
      let r := gridShare n x.gcount dies.length y.1
      if r.live then s.updDie y.2 fun d => { d with ranges := d.ranges ++ [r] } else s) s

/-! ## The serve of a packet -/

/-- What the action of a packet comes to: taken, waiting, or failed with a subcode; and the timestamp after the accesses that the serve
has made (R453). -/
inductive Act where
  | done (lts : W64) (s : State)
  | wait (b : QueueBlock) (lts : W64) (s : State)
  | fail (sub : Nat) (lts : W64) (s : State)

/-- The buffer addresses of an INVOKE read from BAADDR (R360 step 4), and the timestamp after the reads; none where one fails. -/
def State.readBas (s : State) (region : Nat) (lts : W64) : Nat → Nat → Option (List W64) × W64 × State
  | 0, _ => (some [], lts, s)
  | n + 1, va =>
    match s.deviceRead region lts (BitVec.ofNat 64 va) 8 with
    | (.error _, s) => (none, lts, s)
    | (.ok (v, lts), s) =>
      let (vs, lts, s) := s.readBas region lts n (va + 8)
      (vs.map (BitVec.ofNat 64 v :: ·), lts, s)

/-- Sixteen buffer addresses from a list, 0 above it. -/
def basOf (l : List W64) : Vector W64 16 := Vector.ofFn fun i => l.getD i.val 0

/-- The residency check of an INVOKE (R360 steps 1 to 3): the slot it may use. -/
def State.residencyFor (s : State) (region slot nba : Nat) : Option Residency :=
  if 4096 ≤ slot then none
  else
    (mapGet? s.residency slot).bind fun r =>
      if r.valid && r.pinned && (s.path region).contains r.owner && r.nba = nba then some r else none

/-- The serve of an INVOKE (R360). -/
def State.serveInvoke (s : State) (q idx h : Nat) (bs : List Byte) (lts : W64) (ctx : Option Nat) : Act :=
  let region := s.queueRegion q
  let nba := fieldAt bs 0x0A 1
  let va := fieldAt bs 0x10 8
  let (bas, lts, s) := if nba ≤ 16 && va % 8 = 0 then s.readBas region lts nba va else (some [], lts, s)
  match bas with
  | none => .fail 6 lts s
  | some bas =>
    if !bodyValid 1 bs then .fail 5 lts s
    else
      match s.residencyFor region (fieldAt bs 8 2) nba with
      | none => .fail 4 lts s
      | some r => .done lts (s.submit
          { queue := q, seq := idx, server := ctx, type := 1, region := region, header := h, entry := r.entry, dictObj := r.dictObj
            args := BitVec.ofNat 64 (fieldAt bs 0x18 8), gcount := fieldAt bs 0x0C 4, decl := declOf r.decl, bas := basOf bas
            lts := s.acquireStamp (headerAcq h) lts })

/-- The launch that a packet in DISPATCH layout asks for. -/
def dispatchSpec (q idx region : Nat) (bs : List Byte) (bas : List W64) (lts : W64) (ctx : Option Nat) : LaunchSpec :=
  { queue := q, seq := idx, server := ctx, type := headerType (fieldAt bs 0 8), region := region, header := fieldAt bs 0 8
    entry := BitVec.ofNat 64 (fieldAt bs 8 8), dictObj := BitVec.ofNat 64 (fieldAt bs 0x10 8)
    args := BitVec.ofNat 64 (fieldAt bs 0x18 8), gcount := fieldAt bs 0x20 4, decl := declOf (fieldAt bs 0x24 4)
    bas := basOf bas, lts := lts }

/-- The clusters that may run a COPY packet: the ready ones of the lowest-numbered ready compute die (R350). -/
def State.copyClusters (s : State) : List Nat :=
  match s.readyDies with
  | d :: _ => (tabulate id 32 (32 * d)).filter s.clusterReady
  | [] => []

/-- The serve of a COPY packet (R350): one copy command on a cluster, the one asked for where it may be chosen. -/
def State.serveCopy (s : State) (q idx h cluster : Nat) (bs : List Byte) (lts : W64) (ctx : Option Nat) : State :=
  let region := s.queueRegion q
  let n := s.nextCommand
  let lts := s.acquireStamp (headerAcq h) lts
  let x : LaunchSpec :=
    { queue := q, seq := idx, server := ctx, type := 3, region := region, header := h, entry := 0, dictObj := 0, args := 0, gcount := 1
      decl := declOf 0, bas := basOf [], lts := lts }
  let s := s.startCommand { x.command with unplaced := 0 }
  let cs := s.copyClusters
  match (if cs.contains cluster then some cluster else cs.head?) with
  | none =>
    let s := s.updCommand n fun c => { c with left := 0 }
    (s.publish region lts { FaultRecord.blank 6 with cause := causeCode .poison, queue := q, seq := idx }).2
  | some c =>
    s.reenter
      { s.commandOf 0 with
        copy := true, uf := 0x10, group := none, pos := 0, cluster := c, core := 4 * c, region := region, command := n
        operand := BitVec.ofNat 64 (fieldAt bs 8 8), lts := lts, asid := s.asidOf region, user := false, phase := none
        packet := true }

/-- The serve of a SIGNAL (R352): its atomic comes after the packet's acquire (R351). -/
def State.serveSignal (s : State) (q h : Nat) (bs : List Byte) (lts : W64) : Act :=
  let region := s.queueRegion q
  let va := s.signalAddr q (fieldAt bs 8 4)
  match s.signalWord q lts (fieldAt bs 8 4), s.deviceWalk region .update va with
  | (.ok (_, lts), s), .ok _ =>
    if !bodyValid 4 bs then .fail 5 lts s
    else
      let op := if fieldAt bs 0x0C 1 = 0 then 8 else 0
      match s.signalAtomic region (max (headerRel h) 2) (s.acquireStamp (headerAcq h) lts) va op
          (BitVec.ofNat 64 (fieldAt bs 0x10 8)) with
      | (some lts, s) => .done lts s
      | (none, s) => .fail 6 lts s
  | (_, s), _ => .fail 6 lts s

/-- The serve of a WAIT or BARRIER-AND (R352). -/
def State.serveTest (s : State) (q type : Nat) (bs : List Byte) (lts : W64) : Act :=
  match s.testedWords q lts (testedIndices type bs) with
  | (none, lts, s) => .fail 6 lts s
  | (some vs, lts, s) =>
    if !bodyValid type bs then .fail 5 lts s
    else if passes type bs vs || (s.hold q).passed then .done lts s
    else .wait (s.blockOf q type bs) lts (s.updHold q fun h => { h with waitFrom := some (h.waitFrom.getD s.clk) })

/-- The action of a packet whose body has been read (R349, R350, R352, R360, R361, R362). -/
def State.packetAct (s : State) (q idx h cluster : Nat) (bs : List Byte) (lts : W64) (ctx : Option Nat) : Act :=
  let complete (a : Act) : Act :=
    match a with
    | .done lts s =>
      let (lts, s) :=
        s.completePacket q (s.queueRegion q) idx (headerSig h) (headerRel h) (s.acquireStamp (headerAcq h) lts) ctx
      .done lts s
    | a => a
  match headerType h with
  | 1 => s.serveInvoke q idx h bs lts ctx
  | 2 =>
    if bodyValid 2 bs then
      .done lts (s.submit (dispatchSpec q idx (s.queueRegion q) bs [] (s.acquireStamp (headerAcq h) lts) ctx))
    else .fail 5 lts s
  | 3 => if bodyValid 3 bs then .done lts (s.serveCopy q idx h cluster bs lts ctx) else .fail 5 lts s
  | 4 => complete (s.serveSignal q h bs lts)
  | 5 => complete (s.serveTest q 5 bs lts)
  | 6 => complete (s.serveTest q 6 bs lts)
  | 7 => if bodyValid 7 bs then .done lts (s.launchCont bs (s.acquireStamp (headerAcq h) lts)) else .fail 5 lts s
  | 8 => if bodyValid 8 bs then complete (.done lts s) else .fail 5 lts s
  | _ => .fail 1 lts s

/-- What a serve of a head packet comes to (R452 Table 2): CONS, KIND, SUB, the timestamp after its accesses (R453), the machine. -/
structure Served where
  consumed : Bool
  kind : Nat
  sub : Nat
  lts : W64
  state : State

/-- A packet has been consumed: the held read index advances (R358). (DEDUCED, notes/assumptions/70.md) -/
def State.consume (s : State) (q : Nat) : State :=
  let s := s.updHold q fun h => { h with
    held := h.held + 1, rank := none, served := h.served + 1, empty := 0, blocked := none, waitFrom := none
    steps := if h.stopped then h.steps - 1 else h.steps }
  if isCont q then
    let step (c : ContQueue) : ContQueue := if c.number = (q - 65536) % 256 then { c with waiting := c.waiting - 1 } else c
    s.updDie (contDie q) fun d => { d with conts := d.conts.map step }
  else s

/-- The serve of the head packet of a queue, up to and with its action (R354, R358, R453 steps 1 to 3). -/
def State.serveHead (s : State) (q cluster : Nat) (ctx : Option Nat) : Served :=
  let lts := (ctx.map fun k => (s.ctx k).lts).getD 0
  let idx := (s.hold q).held
  let fail (sub : Nat) (lts : W64) (s : State) : Served :=
    { consumed := false, kind := 3, sub := sub, lts := lts, state := s.queueError q idx idx sub ctx }
  let held (lts : W64) (s : State) : Served := { consumed := false, kind := 2, sub := 0, lts := lts, state := s }
  if s.heldByDebugger q then held lts (s.stopQueue q)
  else
    match s.headerAt q lts idx with
    | (.error _, s) => fail 6 lts s
    | (.ok (h, lts), s) =>
      if headerType h = 0 then
        { consumed := false, kind := 1, sub := 0, lts := lts, state := s.updHold q fun h => { h with empty := h.empty + 1 } }
      else
        match headerError (isCont q) h with
        | some sub => fail sub lts s
        | none =>
          if s.barHeld q h then held lts (s.blockQueue q (some .bar))
          else
            match s.ringRead (s.queueRegion q) lts (s.slotAddr q idx) 64 with
            | (.error _, s) => fail 6 lts s
            | (.ok (w, lts), s) =>
              match s.packetAct q idx h cluster (toBytes 64 w) lts ctx with
              | .fail sub lts s => fail sub lts s
              | .wait b lts s => held lts (s.blockQueue q (some b))
              | .done lts s => { consumed := true, kind := 0, sub := 0, lts := lts, state := s.consume q }

/-- The consuming stores of a packet (R358): its header reads zero, then the read index word follows; none where one fails. -/
def State.consumingStores (s : State) (q idx : Nat) : Option State × State :=
  let region := s.queueRegion q
  match s.deviceWrite region 0 (BitVec.ofNat 64 (s.slotAddr q idx)) (toBytes 8 0) with
  | (.error _, s) => (none, s)
  | (.ok lts, s) =>
    match s.deviceWrite region lts (BitVec.ofNat 64 (s.qcb q 0x10 8)) (toBytes 8 (idx + 1)) with
    | (.error _, s) => (none, s)
    | (.ok _, s) => (some s, s)

/-! ## Claims and releases (R355, R356, R359) -/

/-- The queues of an Understory core that are PENDING, in ascending number: user queues, then continuation queues. One whose address
space finds no ASID slot waits (R404). -/
def State.pendingQueues (s : State) (u : Nat) : List Nat :=
  let free (q : Nat) : Bool := s.queueState q = 2 && (s.hold q).owner.isNone && s.mayHold (s.queueRegion q)
  ((s.queues.map Prod.fst).filter fun q => !isCont q && q % 8 = u && free q)
    ++ ((List.range 256).filter fun j => (s.die u).conts.any fun c => c.number = j).filterMap fun j =>
      if free (contNumber u j) then some (contNumber u j) else none
/-- The PENDING queues of an Understory core in the order of UCLAIM: cyclically after the last one claimed (R356). -/
def State.claimOrder (s : State) (u : Nat) : List Nat :=
  let qs := s.pendingQueues u
  let last := (s.core (1024 + u)).claimed
  (qs.filter fun q => decide (last ≤ q)) ++ qs.filter fun q => decide (q < last)
/-- The lowest lane of an Understory context that owns no queue. -/
def State.freeLane (s : State) (k : Nat) : Option Nat :=
  (List.range 64).find? fun l => !s.queues.any fun q => q.2.owner = some k && q.2.lane = l
/-- A PENDING queue claimed by an Understory context, for a lane of it (R353, R355, R356); its region's address space takes an ASID slot
(R403, R404). -/
def State.claim (s : State) (q k lane : Nat) : State :=
  let s := (s.assignAsid (s.queueRegion q)).getD s
  let s := s.updCore (coreOf k) fun c => { c with claimed := q + 1 }
  let s := s.updHold q fun h => { h with owner := some k, server := some k, lane := lane, rank := none, served := 0, empty := 0 }
  s.setQueueState q 3
/-- The release cases of R359 after a serve: eight served, or a head that reads empty at the end or for the fourth time. -/
def State.mustRelease (s : State) (q : Nat) : Bool :=
  let h := s.hold q
  h.owner.isSome && (decide (8 ≤ h.served) || (decide (1 ≤ h.empty) && decide (s.writeIndex q ≤ h.held)) || decide (4 ≤ h.empty))
/-- A queue released where R359 asks for it. -/
def State.settleQueue (s : State) (q : Nat) : State := if s.mustRelease q then s.releaseQueue q else s
/-- What follows the serve of a packet that is consumed: the release cases, and a debugger's hold that its step has ended (R359,
R417). -/
def State.settleServed (s : State) (q : Nat) : State := (s.settleQueue q).applyHold q

/-! ## The firmware of the Understory (R358, R359) -/

/-- The serve of the head packet of a queue by the firmware of the context that owns it: its action, the consuming stores, and the
release cases (R358, R359). (DESIGN CHOICE, notes/assumptions/67.md) -/
def State.serveByFirmware (s : State) (q cluster k : Nat) : State :=
  let idx := (s.hold q).held
  let r := s.serveHead q cluster (some k)
  if r.consumed then
    match r.state.consumingStores q idx with
    | (some s, _) => s.settleServed q
    | (none, s) => s.queueError q idx (idx + 1) 6 (some k)
  else r.state.settleQueue q

/-- The two contexts of the Understory core of a queue. -/
def serversOf (q : Nat) : List Nat := [4096 + 2 * understoryOf q, 4097 + 2 * understoryOf q]
/-- The header at the head of a queue that the firmware may serve now, as it stands: one that is PENDING, or ACTIVE in a lane of its
core. -/
def State.headToServe (s : State) (q : Nat) : Option Nat :=
  let owned := match (s.hold q).owner with
    | some k => s.queueState q = 3 && (serversOf q).contains k
    | none => s.queueState q = 2
  if owned then
    match (s.headerAt q 0 (s.hold q).held).1 with
    | .ok (h, _) => some h
    | .error _ => none
  else none
/-- A queue in a lane: the one that owns it, or the first free one of a context of its core, which of the two is open (R355).
(DESIGN CHOICE, notes/assumptions/67.md) -/
def State.inLane (s : State) (q : Nat) : Option (Nat × State) :=
  match (s.hold q).owner with
  | some k => some (k, s)
  | none =>
    let ks := if s.openBool q then (serversOf q).reverse else serversOf q
    ks.findSome? fun k => (s.freeLane k).map fun l => (k, s.claim q k l)

/-- The packet of one type at the head of a queue is served. -/
def servePacket (type q cluster : Nat) (s : State) : State :=
  match s.headToServe q with
  | some h =>
    if headerType h ≠ type then s
    else
      match s.inLane q with
      | some (k, s) => s.serveByFirmware q cluster k
      | none => s
  | none => s

/-- INVOKE (R360). -/
def execEvInvoke (queue : Nat) (s : State) : Host.Outcome State Fault Refusal := .next (servePacket 1 queue 0 s)
/-- DISPATCH (R349). -/
def execEvDispatch (queue : Nat) (s : State) : Host.Outcome State Fault Refusal := .next (servePacket 2 queue 0 s)
/-- COPY_PACKET (R350). -/
def execEvCopyPacket (queue cluster : Nat) (s : State) : Host.Outcome State Fault Refusal := .next (servePacket 3 queue cluster s)
/-- SIGNAL_PACKET (R352). -/
def execEvSignalPacket (queue : Nat) (s : State) : Host.Outcome State Fault Refusal := .next (servePacket 4 queue 0 s)
/-- WAIT_PACKET (R352). -/
def execEvWaitPacket (queue : Nat) (s : State) : Host.Outcome State Fault Refusal := .next (servePacket 5 queue 0 s)
/-- BARRIER_AND (R352). -/
def execEvBarrierAnd (queue : Nat) (s : State) : Host.Outcome State Fault Refusal := .next (servePacket 6 queue 0 s)
/-- ADAPTER_HINT (R362): the prefetch changes no result. -/
def execEvAdapterHint (queue : Nat) (s : State) : Host.Outcome State Fault Refusal := .next (servePacket 8 queue 0 s)

/-- CONTINUE (R24, R361): the head of a die's first continuation queue that holds a packet is served; one that an Understory lane
owns, or that is in ERROR, waits. -/
def State.contToServe (s : State) (die : Nat) : Option Nat :=
  ((s.die die).conts.map fun q => contNumber die q.number).find? fun q => (s.headToServe q).any fun h => headerType h = 7
/-- CONTINUE (R24, R361). -/
def continueNext (die : Nat) (s : State) : State :=
  match s.contToServe die with
  | none => s
  | some q => servePacket 7 q 0 s
/-- CONTINUE. -/
def execEvContinue (die : Nat) (s : State) : Host.Outcome State Fault Refusal := .next (continueNext die s)

/-- The place of a type in the order of a round (R358). -/
def serveRank (type : Nat) : Nat :=
  match type with
  | 4 => 0 | 5 => 1 | 6 => 2 | 3 => 3 | 8 => 4 | 7 => 5 | 1 => 6 | 2 => 7 | _ => 8

/-- Whether the firmware of an Understory core runs: the core is ready, and no context of it runs other code (R439). -/
def State.firmwareRuns (s : State) (u : Nat) : Bool :=
  s.readyBit 0 (46 + u) && (s.ctx (4096 + 2 * u)).phase = .free && (s.ctx (4097 + 2 * u)).phase = .free
/-- The queues that the lanes of an Understory context own, in ascending lane. -/
def State.laneQueues (s : State) (k : Nat) : List Nat :=
  let mine := s.queues.filter fun q => q.2.owner = some k
  ((List.range 64).map fun l => (mine.filter fun q => q.2.lane = l).map Prod.fst).flatten

/-- The PENDING queues of an Understory core claimed for the free lanes of its contexts, in the order of UCLAIM: each goes to a context
that has a free lane (R355, R359; DESIGN CHOICE, notes/assumptions/67.md). -/
def State.claimAll (s : State) (u : Nat) : State :=
  (s.claimOrder u).foldl (fun s q => ((s.inLane q).map Prod.snd).getD s) s
/-- A lane reads its head packet (R358 step 1, R359): its place in the round, or one more empty read. -/
def State.readHead (s : State) (q : Nat) : State :=
  let rank (s : State) (r : Nat) : State := s.updHold q fun h => { h with rank := some r }
  if s.heldByDebugger q then rank s 8
  else
    match s.headerAt q 0 (s.hold q).held with
    | (.error _, s) => rank s 8
    | (.ok (h, _), s) =>
      if headerType h = 0 then (s.updHold q fun h => { h with empty := h.empty + 1 }).settleQueue q
      else rank s (serveRank (headerType h))
/-- A round of an Understory context begins: free lanes claim, and every lane reads its head. -/
def State.beginRound (s : State) (k : Nat) : State :=
  let s := s.claimAll (coreOf k - 1024)
  let s := (s.laneQueues k).foldl State.readHead s
  { s with rounds := mapSet s.rounds k s.clk }

/-- The queue that an Understory context serves next in its round: by type, then by lane (R358 step 2). -/
def State.nextServed (s : State) (k : Nat) : Option Nat :=
  (List.range 9).findSome? fun r => (s.laneQueues k).find? fun q => (s.hold q).rank = some r
/-- Whether a round of an Understory context is to begin: the last one is over, it began in an earlier cycle, and there is a queue to
claim or to read (DESIGN CHOICE, notes/assumptions/67.md). -/
def State.roundDue (s : State) (k : Nat) : Bool :=
  mapGet? s.rounds k ≠ some s.clk && (!(s.laneQueues k).isEmpty || !(s.pendingQueues (coreOf k - 1024)).isEmpty)
/-- Whether the firmware of an Understory context has something to do now. -/
def State.firmwareDue (s : State) (k : Nat) : Bool :=
  s.firmwareRuns (coreOf k - 1024) && ((s.nextServed k).isSome || s.roundDue k)
/-- What the firmware of an Understory context does next: it serves a packet of its round, or begins the next one. Which cluster a COPY
packet goes to is open (R350). -/
def firmwareStep (k : Nat) (s : State) : State :=
  match s.nextServed k with
  | some q => s.serveByFirmware q (s.openNat q % 256) k
  | none => s.beginRound k

/-! ## BLOCKED queues (R352, R353) -/

/-- Whether the condition that a BLOCKED queue waits for does not hold yet. Words that cannot be read any more end the wait: the serve
then finds them so (R354 step 6). -/
def State.stillBlocked (s : State) (q : Nat) : Bool :=
  s.heldByDebugger q
    || match (s.hold q).blocked with
      | none => false
      | some .bar => s.running q
      | some (.words keys _ _ _ passed) => !passed && !keys.any s.uncorrectable

/-- QUEUE_UNBLOCK (R353): the condition that a BLOCKED queue waits for holds. -/
def queueUnblock (q : Nat) (s : State) : State :=
  if !isCont q && s.queueState q = 4 && !s.stillBlocked q then s.setQueueState q 2 else s
/-- QUEUE_UNBLOCK. -/
def execEvQueueUnblock (queue : Nat) (s : State) : Host.Outcome State Fault Refusal := .next (queueUnblock queue s)

/-- Whether the time of a WAIT or BARRIER-AND at the head of a BLOCKED queue is over without its having passed. -/
def State.waitOver (s : State) (q : Nat) : Bool :=
  !isCont q && s.queueState q = 4
    && match (s.hold q).waitFrom, (s.hold q).blocked with
      | some t, some (.words _ _ _ timeout passed) => !passed && timeout ≠ 0 && expired t timeout s.clk
      | _, _ => false
/-- WAIT_TIMEOUT (R352, R354 subcode 7). -/
def waitTimeout (q : Nat) (s : State) : State :=
  if s.waitOver q then s.queueError q (s.hold q).held (s.hold q).held 7 (s.hold q).server else s
/-- WAIT_TIMEOUT. -/
def execEvWaitTimeout (queue : Nat) (s : State) : Host.Outcome State Fault Refusal := .next (waitTimeout queue s)

/-! ## Claims and serves of an Understory context (R356, R359, R452, R453) -/

/-- UCLAIM (R356): the next PENDING queue of the core's share is claimed, for the lowest free lane of the context; the value that the
csrr returns. A context whose 64 lanes all own a queue has no lane for another one and claims none (R355; DESIGN CHOICE,
notes/assumptions/67.md). -/
def State.uclaim (s : State) (k : Nat) : W64 × State :=
  match s.claimOrder (coreOf k - 1024), s.freeLane k with
  | q :: _, some l => (BitVec.ofNat 64 q, s.claim q k l)
  | _, _ => (BitVec.allOnes 64, s)

/-- URET (R356): a queue that the context owns is released. -/
def State.uret (s : State) (k : Nat) (q : W64) : State :=
  if (s.hold q.toNat).owner = some k then s.releaseQueue q.toNat else s

/-- One serve by USERVE (R453): the outcome of Table 2 of R452, and the machine. Later accesses of the context follow those of the
serve. -/
def State.userve (s : State) (k : Nat) : BitVec 8 × State :=
  let q := (s.ctx k).uqsel.toNat
  if (s.hold q).owner ≠ some k then (2, s)
  else
    let r := s.serveHead q 0 (some k)
    let s := if r.consumed then r.state.settleServed q else r.state.settleQueue q
    let s := s.updCtx k fun c => { c with lts := laterOf c.lts r.lts }
    let rel := (s.hold q).owner ≠ some k
    (BitVec.ofNat 8 ((if r.consumed then 1 else 0) + (if rel then 2 else 0) + 4 * r.kind + 16 * r.sub), s)

/-- The n bytes of a launch block read line by line (R356, R357); the cause and the failing address. fuel bounds the lines. -/
def State.launchBlock (s : State) (k : Nat) : Nat → W64 → Nat → Except (Cause × W64) (List Byte) × State
  | 0, _, _ => (.ok [], s)
  | fuel + 1, va, n =>
    if n = 0 then (.ok [], s)
    else
      let m := min n (64 - va.toNat % 64)
      match s.deviceRead (s.regionOf k) (s.ctx k).lts va m with
      | (.error c, s) => (.error (c, va), s)
      | (.ok (w, lts), s) =>
        let s := s.updCtx k fun c => { c with lts := laterOf c.lts lts }
        match s.launchBlock k fuel (va + BitVec.ofNat 64 m) (n - m) with
        | (.ok bs, s) => (.ok (toBytes m w ++ bs), s)
        | (.error x, s) => (.error x, s)

/-- A launch block submitted to the distributors (R357). -/
def State.ulaunch (s : State) (k : Nat) (bs : List Byte) : State :=
  let h := fieldAt bs 0 8
  let q := fieldAt bs 192 4
  if headerType h = 7 then s.launchCont bs (s.acquireStamp (headerAcq h) (s.ctx k).lts)
  else
    s.submit (dispatchSpec q (fieldAt bs 200 8) (s.queueRegion q) bs
      (tabulate (fun i => BitVec.ofNat 64 (fieldAt bs (64 + 8 * i) 8)) 16 0)
      (s.acquireStamp (headerAcq h) (s.ctx k).lts) (some k))

end Sys2Proof.Machine
end

