-- ==== Sys2Proof/Machine/Csr.lean ====
section
/-! DEFINITION. The meanings of csrr, csrw, csrs and csrc (R250, R263), and of the CSR accesses that are deeds of their own: UCLAIM,
URET, ULAUNCH (R356, R357) and USERVE (R452, R453). -/

namespace Sys2Proof.Machine

/-- UHEAD (R452): the address of the head slot of a selected queue that the context owns. -/
def State.headAddress (s : State) (k q : Nat) : W64 :=
  if (s.hold q).owner = some k then BitVec.ofNat 64 (s.slotAddr q (s.hold q).held % 2 ^ 57) else 0

/-- The value of a CSR that a bundle of cycle t reads (R250, R356, R452). -/
def csrValue (n : Nat) (e : Env) (s : State) : W64 :=
  let q := (s.readCsr e.k e.t 40 0x204).toNat
  match n with
  | 0x200 => s.bases[4]?.getD 0
  | 0x205 => s.headAddress e.k q
  | 0x206 => BitVec.ofNat 64 (s.hold q).held
  | 0x207 => BitVec.ofNat 64 (s.qcb q 0x10 8 % 2 ^ 57)
  | _ => s.readCsr e.k e.t 41 n

/-- The read half of a CSR access: the old value; that of UCLAIM claims a queue (R356). -/
def csrOld (n : Nat) (e : Env) (s : State) : W64 × State :=
  if n = 0x201 then (s.flush e.k).uclaim e.k else (csrValue n e s, s)

/-- The write half of a CSR access: the new value takes effect at t + 3, or the deed of the CSR takes place (R250, R356, R453). -/
def csrStore (n : Nat) (x : W64) (e : Env) (s : State) : State :=
  match n with
  | 0x202 => (s.flush e.k).uret e.k x
  | 0x203 =>
    match (s.flush e.k).launchBlock e.k 5 x 256 with
    | (.ok bs, s) => s.ulaunch e.k bs
    | (.error _, s) => s
  | 0x208 =>
    let (outcome, s) := (s.flush e.k).userve e.k
    putC (e.t + 3) (.csr 0x208 (outcome.zeroExtend 64)) e s
  | _ => putC (e.t + 3) (.csr n x) e s

/-- The trap of a write of ULAUNCH whose block cannot be read (R356). -/
def launchTrap (n : Nat) (x : W64) (e : Env) (s : State) : Option Trap :=
  if n = 0x203 then
    match ((s.flush e.k).launchBlock e.k 5 x 256).1 with
    | .error (c, va) => some (slotTrap 8 c va)
    | .ok _ => none
  else none

/-- A CSR access (R250): new gives the written value from the old one and the operand, none for csrr. -/
def csrOp (uf : Nat) (new : Option (W64 → W64 → W64)) (f : FieldC) : SlotOp :=
  let n := f.aux.toNat % 4096
  { plainC uf f with
    privileged := decide (0x100 ≤ n)
    writes := fun e _ => if f.ws then [] else writesOf (e.t + 3) (.scalar f.dst.toNat 0)
    trap := fun e s =>
      match new with
      | some g => launchTrap n (g (csrValue n e s) (opaC f e s)) e s
      | none => none
    effect := fun e s =>
      let a := opaC f e s
      let (old, s) := csrOld n e s
      let s := if f.ws then s else putC (e.t + 3) (.scalar f.dst.toNat old) e s
      match new with
      | some g => csrStore n (g old a) e s
      | none => s }

/-- csrr (R250). -/
def csrrOp (f : FieldC) : SlotOp := csrOp 0x20 none f
/-- csrr (R250). -/
def execCsrr (f : FieldC) (s : State) : Host.Outcome State Fault Refusal := .next (issueOps [csrrOp f] s)
/-- csrw (R250). -/
def csrwOp (f : FieldC) : SlotOp := csrOp 0x21 (some fun _ a => a) f
/-- csrw (R250). -/
def execCsrw (f : FieldC) (s : State) : Host.Outcome State Fault Refusal := .next (issueOps [csrwOp f] s)
/-- csrs (R250). (DEDUCED, notes/assumptions/37.md) -/
def csrsOp (f : FieldC) : SlotOp := csrOp 0x22 (some fun old a => old ||| a) f
/-- csrs (R250). -/
def execCsrs (f : FieldC) (s : State) : Host.Outcome State Fault Refusal := .next (issueOps [csrsOp f] s)
/-- csrc (R250). (DEDUCED, notes/assumptions/37.md) -/
def csrcOp (f : FieldC) : SlotOp := csrOp 0x23 (some fun old a => old &&& ~~~a) f
/-- csrc (R250). -/
def execCsrc (f : FieldC) (s : State) : Host.Outcome State Fault Refusal := .next (issueOps [csrcOp f] s)

/-- UCLAIM, a csrr of 0x201 (R356). -/
def uclaimOp (f : FieldC) : SlotOp := csrOp 0x20 none f
/-- UCLAIM (R356). -/
def execUclaim (f : FieldC) (s : State) : Host.Outcome State Fault Refusal := .next (issueOps [uclaimOp f] s)
/-- URET, a csrw of 0x202 (R356). -/
def uretOp (f : FieldC) : SlotOp := csrOp 0x21 (some fun _ a => a) f
/-- URET (R356). -/
def execUret (f : FieldC) (s : State) : Host.Outcome State Fault Refusal := .next (issueOps [uretOp f] s)
/-- ULAUNCH, a csrw of 0x203 (R356, R357). -/
def ulaunchOp (f : FieldC) : SlotOp := csrOp 0x21 (some fun _ a => a) f
/-- ULAUNCH (R356, R357). -/
def execUlaunch (f : FieldC) (s : State) : Host.Outcome State Fault Refusal := .next (issueOps [ulaunchOp f] s)
/-- USERVE, a csrw of 0x208 (R453). -/
def userveOp (f : FieldC) : SlotOp := csrOp 0x21 (some fun _ a => a) f
/-- USERVE (R453). -/
def execUserve (f : FieldC) (s : State) : Host.Outcome State Fault Refusal := .next (issueOps [userveOp f] s)

end Sys2Proof.Machine
end

