-- ==== Sys2Proof/Machine/Scalar.lean ====
section
/-! DEFINITION. The meanings of the S class (R103 to R120). -/

namespace Sys2Proof.Machine

/-- What an S-class operation computes: its result, its VSTAT bits, and the write of its destination where WS = 0. -/
structure ScalarResult where
  value : W64
  status : BitVec 8
  dest : Option Landing

/-- A result with no status. -/
def plainResult (f : FieldS) (x : W64) : ScalarResult :=
  { value := x, status := 0, dest := if f.ws then none else some (.scalar f.dst.toNat x) }

/-- The effect of R103: the slot latch is readable at t + L, the destination at t + L + 1, and status bits at t + L + 1
(R100). -/
def scalarEffect (u : SlotS) (lat : Nat) (r : ScalarResult) (e : Env) (s : State) : State :=
  let put (due : Nat) (w : Landing) (s : State) : State :=
    s.addPending e.k { due := due, issued := e.t, slot := u.index, contested := 0, what := w }
  let s := put (e.t + lat) (.latchS u.index r.value) s
  let s := match r.dest with | some w => put (e.t + lat + 1) w s | none => s
  if r.status = 0 then s else put (e.t + lat + 1) (.status u.index r.status) s

/-- An S-class operation of a unit function, latency and occupancy, with its result as a function of what it reads at t
(R103). -/
def scalarOp (u : SlotS) (f : FieldS) (uf lat occ : Nat) (res : Env → State → ScalarResult) : SlotOp :=
  { slot := u.index, uf := uf, pf := f.pf, pn := f.pn, occ := occ
    writes := fun e s => ((res e s).dest.map (writesOf (e.t + lat + 1))).getD []
    effect := fun e s => scalarEffect u lat (res e s) e s }

/-- The value of OPA of an S-class operation. -/
def opaS (u : SlotS) (f : FieldS) (e : Env) (s : State) : W64 := scalarOperand s e u.index 0 f.opa
/-- The value of OPB of an S-class operation. -/
def opbS (u : SlotS) (f : FieldS) (e : Env) (s : State) : W64 := scalarOperand s e u.index 1 f.opb

/-- An operation of two sources. -/
def binaryS (u : SlotS) (f : FieldS) (uf lat : Nat) (fn : W64 → W64 → W64) : SlotOp :=
  scalarOp u f uf lat 1 fun e s => plainResult f (fn (opaS u f e s) (opbS u f e s))
/-- An operation of one source. -/
def unaryS (u : SlotS) (f : FieldS) (uf lat : Nat) (fn : W64 → W64) : SlotOp :=
  scalarOp u f uf lat 1 fun e s => plainResult f (fn (opaS u f e s))
/-- A division of w-bit operands (R108). -/
def divisionS (u : SlotS) (f : FieldS) (uf w : Nat) (signed : Bool) (fn : W64 → W64 → W64) : SlotOp :=
  scalarOp u f uf 20 20 fun e s =>
    let a := opaS u f e s
    let b := opbS u f e s
    let int (x : W64) : Int := if signed then signedOf w x.toNat else (x.toNat % 2 ^ w : Nat)
    { plainResult f (fn a b) with status := divStatus signed w (int a) (int b) }

/-! The functions of R104 to R112. -/

/-- The result of addw (R105). -/
def addwS (a b : W64) : W64 := sext32 (low32 a + low32 b)
/-- The result of subw (R105). -/
def subwS (a b : W64) : W64 := sext32 (low32 a - low32 b)
/-- A shift amount: b[5:0] (R106). -/
def shiftAmount (b : W64) : Nat := b.toNat % 64
/-- mulh (R107). -/
def mulhS (a b : W64) : W64 := BitVec.ofInt 64 (a.toInt * b.toInt / 2 ^ 64)
/-- mulhu (R107). -/
def mulhuS (a b : W64) : W64 := BitVec.ofNat 64 (a.toNat * b.toNat / 2 ^ 64)
/-- mulw (R107). -/
def mulwS (a b : W64) : W64 := sext32 (low32 a * low32 b)
/-- The signed quotient of R108 at a width, with its corners. -/
def quotient {w : Nat} (a b : BitVec w) : BitVec w := if b = 0 then BitVec.allOnes w else BitVec.ofInt w (a.toInt.tdiv b.toInt)
/-- The signed remainder of R108 at a width, with its corners. -/
def remainder {w : Nat} (a b : BitVec w) : BitVec w := if b = 0 then a else BitVec.ofInt w (a.toInt.tmod b.toInt)
/-- divu (R108). -/
def divuS (a b : W64) : W64 := if b = 0 then BitVec.allOnes 64 else a / b
/-- remu (R108). -/
def remuS (a b : W64) : W64 := if b = 0 then a else a % b
/-- divw (R108). -/
def divwS (a b : W64) : W64 := sext32 (quotient (low32 a) (low32 b))
/-- remw (R108). -/
def remwS (a b : W64) : W64 := sext32 (remainder (low32 a) (low32 b))
/-- clz (R109). -/
def clzS (a : W64) : W64 := BitVec.ofNat 64 (leadingZeros 64 a.toNat)
/-- ctz (R109). -/
def ctzS (a : W64) : W64 := BitVec.ofNat 64 (trailingZeros 64 a.toNat)
/-- popc (R109). -/
def popcS (a : W64) : W64 := BitVec.ofNat 64 (popCount 64 a.toNat)
/-- bswap (R109). -/
def bswapS (a : W64) : W64 := BitVec.ofNat 64 (ofBytes (toBytes 8 a.toNat).reverse)
/-- sext from bit p (R110). -/
def sextS (p : Nat) (a : W64) : W64 := BitVec.ofNat 64 (wrapInt 64 (signedOf (p + 1) a.toNat))
/-- zext from bit p (R110). -/
def zextS (p : Nat) (a : W64) : W64 := BitVec.ofNat 64 (a.toNat % 2 ^ (p + 1))
/-- pack of n low bits (R111). -/
def packS (n : Nat) (a b : W64) : W64 := (b <<< n) ||| BitVec.ofNat 64 (a.toNat % 2 ^ n)

/-- An item of ident (R117 Table 10, R356, R438) of a context, of group size, index and count as the group holds them. The
group size of a context that has no group is open. (DESIGN CHOICE, notes/assumptions/38.md) -/
def identItem (s : State) (k item : Nat) : W64 :=
  let n : Nat :=
    if k < 4096 then
      let g := s.groupOf k
      match item with
      | 0 => (s.ctx k).pos
      | 1 => (g.map fun g => g.decl.n).getD 1
      | 2 => (g.map Group.g).getD 0
      | 3 => (g.map Group.gcount).getD 1
      | 4 => clusterOf k % 32
      | 5 => dieOf (clusterOf k)
      | 6 => coreOf k % 4
      | 7 => k % 4
      | 8 => k
      | _ => s.regionOf k
    else
      let die := clusterOf k - 256
      match item with
      | 0 => (s.ctx k).pos
      | 1 => (s.openWord (2 ^ 157 + k)).toNat
      | 3 => 1
      | 5 => die
      | 6 => if k < 4112 then (k - 4096) / 2 % 4 else 4
      | 7 => k % 2
      | 8 => k
      | _ => 0
  BitVec.ofNat 64 n

/-! The operations. -/

/-- add (R104). -/
def addOp (u : SlotS) (f : FieldS) : SlotOp :=
  binaryS u f 0x01 1 (· + ·)
/-- add (R104). -/
def execAdd (u : SlotS) (f : FieldS) (s : State) : Host.Outcome State Fault Refusal := .next (issueOps [addOp u f] s)

/-- sub (R104). -/
def subOp (u : SlotS) (f : FieldS) : SlotOp :=
  binaryS u f 0x02 1 (· - ·)
/-- sub (R104). -/
def execSub (u : SlotS) (f : FieldS) (s : State) : Host.Outcome State Fault Refusal := .next (issueOps [subOp u f] s)

/-- addw (R105). -/
def addwOp (u : SlotS) (f : FieldS) : SlotOp :=
  binaryS u f 0x03 1 addwS
/-- addw (R105). -/
def execAddw (u : SlotS) (f : FieldS) (s : State) : Host.Outcome State Fault Refusal := .next (issueOps [addwOp u f] s)

/-- subw (R105). -/
def subwOp (u : SlotS) (f : FieldS) : SlotOp :=
  binaryS u f 0x04 1 subwS
/-- subw (R105). -/
def execSubw (u : SlotS) (f : FieldS) (s : State) : Host.Outcome State Fault Refusal := .next (issueOps [subwOp u f] s)

/-- and (R104). -/
def andOp (u : SlotS) (f : FieldS) : SlotOp :=
  binaryS u f 0x05 1 (· &&& ·)
/-- and (R104). -/
def execAnd (u : SlotS) (f : FieldS) (s : State) : Host.Outcome State Fault Refusal := .next (issueOps [andOp u f] s)

/-- or (R104). -/
def orOp (u : SlotS) (f : FieldS) : SlotOp :=
  binaryS u f 0x06 1 (· ||| ·)
/-- or (R104). -/
def execOr (u : SlotS) (f : FieldS) (s : State) : Host.Outcome State Fault Refusal := .next (issueOps [orOp u f] s)

/-- xor (R104). -/
def xorOp (u : SlotS) (f : FieldS) : SlotOp :=
  binaryS u f 0x07 1 (· ^^^ ·)
/-- xor (R104). -/
def execXor (u : SlotS) (f : FieldS) (s : State) : Host.Outcome State Fault Refusal := .next (issueOps [xorOp u f] s)

/-- andn (R104). -/
def andnOp (u : SlotS) (f : FieldS) : SlotOp :=
  binaryS u f 0x08 1 fun a b => a &&& ~~~b
/-- andn (R104). -/
def execAndn (u : SlotS) (f : FieldS) (s : State) : Host.Outcome State Fault Refusal := .next (issueOps [andnOp u f] s)

/-- orn (R104). -/
def ornOp (u : SlotS) (f : FieldS) : SlotOp :=
  binaryS u f 0x09 1 fun a b => a ||| ~~~b
/-- orn (R104). -/
def execOrn (u : SlotS) (f : FieldS) (s : State) : Host.Outcome State Fault Refusal := .next (issueOps [ornOp u f] s)

/-- xnor (R104). -/
def xnorOp (u : SlotS) (f : FieldS) : SlotOp :=
  binaryS u f 0x0A 1 fun a b => ~~~(a ^^^ b)
/-- xnor (R104). -/
def execXnor (u : SlotS) (f : FieldS) (s : State) : Host.Outcome State Fault Refusal := .next (issueOps [xnorOp u f] s)

/-- shl (R106). -/
def shlOp (u : SlotS) (f : FieldS) : SlotOp :=
  binaryS u f 0x0B 1 fun a b => a <<< shiftAmount b
/-- shl (R106). -/
def execShl (u : SlotS) (f : FieldS) (s : State) : Host.Outcome State Fault Refusal := .next (issueOps [shlOp u f] s)

/-- shr (R106). -/
def shrOp (u : SlotS) (f : FieldS) : SlotOp :=
  binaryS u f 0x0C 1 fun a b => a >>> shiftAmount b
/-- shr (R106). -/
def execShr (u : SlotS) (f : FieldS) (s : State) : Host.Outcome State Fault Refusal := .next (issueOps [shrOp u f] s)

/-- sar (R106). -/
def sarOp (u : SlotS) (f : FieldS) : SlotOp :=
  binaryS u f 0x0D 1 fun a b => a.sshiftRight (shiftAmount b)
/-- sar (R106). -/
def execSar (u : SlotS) (f : FieldS) (s : State) : Host.Outcome State Fault Refusal := .next (issueOps [sarOp u f] s)

/-- rotl (R106). -/
def rotlOp (u : SlotS) (f : FieldS) : SlotOp :=
  binaryS u f 0x0E 1 fun a b => a.rotateLeft (shiftAmount b)
/-- rotl (R106). -/
def execRotl (u : SlotS) (f : FieldS) (s : State) : Host.Outcome State Fault Refusal := .next (issueOps [rotlOp u f] s)

/-- rotr (R106). -/
def rotrOp (u : SlotS) (f : FieldS) : SlotOp :=
  binaryS u f 0x0F 1 fun a b => a.rotateRight (shiftAmount b)
/-- rotr (R106). -/
def execRotr (u : SlotS) (f : FieldS) (s : State) : Host.Outcome State Fault Refusal := .next (issueOps [rotrOp u f] s)

/-- mul (R107). -/
def mulOp (u : SlotS) (f : FieldS) : SlotOp :=
  binaryS u f 0x10 3 (· * ·)
/-- mul (R107). -/
def execMul (u : SlotS) (f : FieldS) (s : State) : Host.Outcome State Fault Refusal := .next (issueOps [mulOp u f] s)

/-- mulh (R107). -/
def mulhOp (u : SlotS) (f : FieldS) : SlotOp :=
  binaryS u f 0x11 3 mulhS
/-- mulh (R107). -/
def execMulh (u : SlotS) (f : FieldS) (s : State) : Host.Outcome State Fault Refusal := .next (issueOps [mulhOp u f] s)

/-- mulhu (R107). -/
def mulhuOp (u : SlotS) (f : FieldS) : SlotOp :=
  binaryS u f 0x12 3 mulhuS
/-- mulhu (R107). -/
def execMulhu (u : SlotS) (f : FieldS) (s : State) : Host.Outcome State Fault Refusal := .next (issueOps [mulhuOp u f] s)

/-- mulw (R107). -/
def mulwOp (u : SlotS) (f : FieldS) : SlotOp :=
  binaryS u f 0x13 3 mulwS
/-- mulw (R107). -/
def execMulw (u : SlotS) (f : FieldS) (s : State) : Host.Outcome State Fault Refusal := .next (issueOps [mulwOp u f] s)

/-- div (R108). -/
def divOp (u : SlotS) (f : FieldS) : SlotOp :=
  divisionS u f 0x14 64 true quotient
/-- div (R108). -/
def execDiv (u : SlotS) (f : FieldS) (s : State) : Host.Outcome State Fault Refusal := .next (issueOps [divOp u f] s)

/-- divu (R108). -/
def divuOp (u : SlotS) (f : FieldS) : SlotOp :=
  divisionS u f 0x15 64 false divuS
/-- divu (R108). -/
def execDivu (u : SlotS) (f : FieldS) (s : State) : Host.Outcome State Fault Refusal := .next (issueOps [divuOp u f] s)

/-- rem (R108). -/
def remOp (u : SlotS) (f : FieldS) : SlotOp :=
  divisionS u f 0x16 64 true remainder
/-- rem (R108). -/
def execRem (u : SlotS) (f : FieldS) (s : State) : Host.Outcome State Fault Refusal := .next (issueOps [remOp u f] s)

/-- remu (R108). -/
def remuOp (u : SlotS) (f : FieldS) : SlotOp :=
  divisionS u f 0x17 64 false remuS
/-- remu (R108). -/
def execRemu (u : SlotS) (f : FieldS) (s : State) : Host.Outcome State Fault Refusal := .next (issueOps [remuOp u f] s)

/-- divw (R108). -/
def divwOp (u : SlotS) (f : FieldS) : SlotOp :=
  divisionS u f 0x18 32 true divwS
/-- divw (R108). -/
def execDivw (u : SlotS) (f : FieldS) (s : State) : Host.Outcome State Fault Refusal := .next (issueOps [divwOp u f] s)

/-- remw (R108). -/
def remwOp (u : SlotS) (f : FieldS) : SlotOp :=
  divisionS u f 0x19 32 true remwS
/-- remw (R108). -/
def execRemw (u : SlotS) (f : FieldS) (s : State) : Host.Outcome State Fault Refusal := .next (issueOps [remwOp u f] s)

/-- min (R104). -/
def minOp (u : SlotS) (f : FieldS) : SlotOp :=
  binaryS u f 0x1A 1 fun a b => if a.slt b then a else b
/-- min (R104). -/
def execMin (u : SlotS) (f : FieldS) (s : State) : Host.Outcome State Fault Refusal := .next (issueOps [minOp u f] s)

/-- max (R104). -/
def maxOp (u : SlotS) (f : FieldS) : SlotOp :=
  binaryS u f 0x1B 1 fun a b => if b.slt a then a else b
/-- max (R104). -/
def execMax (u : SlotS) (f : FieldS) (s : State) : Host.Outcome State Fault Refusal := .next (issueOps [maxOp u f] s)

/-- minu (R104). -/
def minuOp (u : SlotS) (f : FieldS) : SlotOp :=
  binaryS u f 0x1C 1 fun a b => if a.ult b then a else b
/-- minu (R104). -/
def execMinu (u : SlotS) (f : FieldS) (s : State) : Host.Outcome State Fault Refusal := .next (issueOps [minuOp u f] s)

/-- maxu (R104). -/
def maxuOp (u : SlotS) (f : FieldS) : SlotOp :=
  binaryS u f 0x1D 1 fun a b => if b.ult a then a else b
/-- maxu (R104). -/
def execMaxu (u : SlotS) (f : FieldS) (s : State) : Host.Outcome State Fault Refusal := .next (issueOps [maxuOp u f] s)

/-- clz (R109). -/
def clzOp (u : SlotS) (f : FieldS) : SlotOp :=
  unaryS u f 0x1E 2 clzS
/-- clz (R109). -/
def execClz (u : SlotS) (f : FieldS) (s : State) : Host.Outcome State Fault Refusal := .next (issueOps [clzOp u f] s)

/-- ctz (R109). -/
def ctzOp (u : SlotS) (f : FieldS) : SlotOp :=
  unaryS u f 0x1F 2 ctzS
/-- ctz (R109). -/
def execCtz (u : SlotS) (f : FieldS) (s : State) : Host.Outcome State Fault Refusal := .next (issueOps [ctzOp u f] s)

/-- popc (R109). -/
def popcOp (u : SlotS) (f : FieldS) : SlotOp :=
  unaryS u f 0x20 2 popcS
/-- popc (R109). -/
def execPopc (u : SlotS) (f : FieldS) (s : State) : Host.Outcome State Fault Refusal := .next (issueOps [popcOp u f] s)

/-- bswap (R109). -/
def bswapOp (u : SlotS) (f : FieldS) : SlotOp :=
  unaryS u f 0x21 2 bswapS
/-- bswap (R109). -/
def execBswap (u : SlotS) (f : FieldS) (s : State) : Host.Outcome State Fault Refusal := .next (issueOps [bswapOp u f] s)

/-- sext (R110). -/
def sextOp (u : SlotS) (f : FieldS) : SlotOp :=
  unaryS u f 0x22 1 (sextS (f.aux.toNat % 64))
/-- sext (R110). -/
def execSext (u : SlotS) (f : FieldS) (s : State) : Host.Outcome State Fault Refusal := .next (issueOps [sextOp u f] s)

/-- zext (R110). -/
def zextOp (u : SlotS) (f : FieldS) : SlotOp :=
  unaryS u f 0x23 1 (zextS (f.aux.toNat % 64))
/-- zext (R110). -/
def execZext (u : SlotS) (f : FieldS) (s : State) : Host.Outcome State Fault Refusal := .next (issueOps [zextOp u f] s)

/-- mov (R111). -/
def movOp (u : SlotS) (f : FieldS) : SlotOp :=
  unaryS u f 0x24 1 id
/-- mov (R111). -/
def execMov (u : SlotS) (f : FieldS) (s : State) : Host.Outcome State Fault Refusal := .next (issueOps [movOp u f] s)

/-- pack (R111). -/
def packOp (u : SlotS) (f : FieldS) : SlotOp :=
  binaryS u f 0x25 1 (packS (f.aux.toNat % 64))
/-- pack (R111). -/
def execPack (u : SlotS) (f : FieldS) (s : State) : Host.Outcome State Fault Refusal := .next (issueOps [packOp u f] s)

/-- sel (R113). -/
def selOp (u : SlotS) (f : FieldS) : SlotOp :=
  scalarOp u f 0x26 1 1 fun e s =>
    let n := f.aux.toNat % 16
    let flag := n = 0 || (s.readFlags e.k e.t (u.index * 4 + 2)).getLsbD n
    plainResult f (if flag then opaS u f e s else opbS u f e s)
/-- sel (R113). -/
def execSel (u : SlotS) (f : FieldS) (s : State) : Host.Outcome State Fault Refusal := .next (issueOps [selOp u f] s)

/-- cmp (R114). -/
def cmpOp (u : SlotS) (f : FieldS) : SlotOp :=
  scalarOp u f 0x27 1 1 fun e s =>
    let r := compare (f.aux.toNat % 16) (f.aux.getLsbD 4) (opaS u f e s) (opbS u f e s)
    let m := flagMask (f.dst.toNat % 16)
    { value := ofFlag 64 r, status := 0, dest := if f.ws then none else some (.flags m (if r then m else 0)) }
/-- cmp (R114). -/
def execCmp (u : SlotS) (f : FieldS) (s : State) : Host.Outcome State Fault Refusal := .next (issueOps [cmpOp u f] s)

/-- lea (R112). -/
def leaOp (u : SlotS) (f : FieldS) : SlotOp :=
  binaryS u f 0x28 1 fun a b => a + (b <<< (f.aux.toNat % 8))
/-- lea (R112). -/
def execLea (u : SlotS) (f : FieldS) (s : State) : Host.Outcome State Fault Refusal := .next (issueOps [leaOp u f] s)

/-- flset (R115). -/
def flsetOp (u : SlotS) (f : FieldS) : SlotOp :=
  scalarOp u f 0x29 1 1 fun e s =>
    let b := opbS u f e s
    let new := flsetValue (s.readFlags e.k e.t (u.index * 4 + 2)) (opaS u f e s) b
    { value := new.zeroExtend 64, status := 0, dest := if f.ws then none else some (.flags (b.truncate 16) new) }
/-- flset (R115). -/
def execFlset (u : SlotS) (f : FieldS) (s : State) : Host.Outcome State Fault Refusal := .next (issueOps [flsetOp u f] s)

/-- flget (R116). -/
def flgetOp (u : SlotS) (f : FieldS) : SlotOp :=
  scalarOp u f 0x2A 1 1 fun e s => plainResult f ((s.readFlags e.k e.t (u.index * 4 + 2)).zeroExtend 64)
/-- flget (R116). -/
def execFlget (u : SlotS) (f : FieldS) (s : State) : Host.Outcome State Fault Refusal := .next (issueOps [flgetOp u f] s)

/-- ident (R117). -/
def identOp (u : SlotS) (f : FieldS) : SlotOp :=
  scalarOp u f 0x2B 1 1 fun e s => plainResult f (identItem s e.k (f.aux.toNat % 16))
/-- ident (R117). -/
def execIdent (u : SlotS) (f : FieldS) (s : State) : Host.Outcome State Fault Refusal := .next (issueOps [identOp u f] s)

/-- vget (R118). -/
def vgetOp (u : SlotS) (f : FieldS) : SlotOp :=
  scalarOp u f 0x2C 3 1 fun e s =>
    let i := (opbS u f e s).toNat % 1024
    let row := sourceRow s e.k e.t (u.index * 4) (vectorOperand s e u.index 0 0 f.opa) (i / 64)
    let w := laneOf row (i % 64)
    plainResult f (if f.aux.getLsbD 0 then sext32 w else zext32 w)
/-- vget (R118). -/
def execVget (u : SlotS) (f : FieldS) (s : State) : Host.Outcome State Fault Refusal := .next (issueOps [vgetOp u f] s)

/-- kget (R119). -/
def kgetOp (u : SlotS) (f : FieldS) : SlotOp :=
  scalarOp u f 0x2D 1 1 fun e s => plainResult f (s.readK e.k e.t (u.index * 4) (f.aux.toNat % 8))
/-- kget (R119). -/
def execKget (u : SlotS) (f : FieldS) (s : State) : Host.Outcome State Fault Refusal := .next (issueOps [kgetOp u f] s)

/-- kset (R120). -/
def ksetOp (u : SlotS) (f : FieldS) : SlotOp :=
  scalarOp u f 0x2E 1 1 fun e s =>
    let a := opaS u f e s
    { value := a, status := 0, dest := if f.ws then none else some (.kmask (f.dst.toNat % 8) (BitVec.allOnes 64) a) }
/-- kset (R120). -/
def execKset (u : SlotS) (f : FieldS) (s : State) : Host.Outcome State Fault Refusal := .next (issueOps [ksetOp u f] s)

end Sys2Proof.Machine
end

