-- ==== Sys2Proof/Machine/Special.lean ====
section
/-! DEFINITION. The meanings of the F class (R164 to R180). -/

namespace Sys2Proof.Machine

/-- The fields of an F-class operation in vector mode (R47): AUX[7:4] is RB and AUX[3:0] is RN. -/
def fieldsF (f : FieldF) : VectorFields :=
  { slot := 5, ws := f.ws, dst := f.dst.toNat % 16, opa := f.opa, opb := f.opb, opc := 0, rb := f.aux.toNat / 16 % 16
    rn := f.aux.toNat % 16, ks := 0, kaux := 0 }

/-- An F-class operation: in vector mode the pipelines run it; in scalar mode its result lands in FN.l at t + L and in its
register at t + L + 1 (R165). keccak occupies one cycle. -/
def functionOp (i : Instr) (uf lat : Nat) (f : FieldF) (fn : Env → State → W64 → W64 → W64 × Status) : SlotOp :=
  if vmF f then vectorOp i uf f.pf f.pn ((fieldsF f).rn + 1) (fieldsF f)
  else
    { slot := 5, uf := uf, pf := f.pf, pn := f.pn
      writes := fun e _ => if f.ws then [] else writesOf (e.t + lat + 1) (.scalar f.dst.toNat 0)
      effect := fun e s =>
        let (x, st) := fn e s (scalarOperand s e 5 0 f.opa) (scalarOperand s e 5 1 f.opb)
        let put (due : Nat) (w : Landing) (s : State) : State :=
          s.addPending e.k { due := due, issued := e.t, slot := 5, contested := 0, what := w }
        let s := put (e.t + lat) (.latchS 2 x) s
        let s := if f.ws then s else put (e.t + lat + 1) (.scalar f.dst.toNat x) s
        if st = 0 then s else put (e.t + lat + 1) (.status 5 st) s }

/-- An elementary function of FRM and a[31:0], zero-extended (R169). -/
def elementaryF (i : Instr) (uf lat : Nat) (f : FieldF) (fn : Nat → W32 → W32 × Status) : SlotOp :=
  functionOp i uf lat f fun e s a _ =>
    let (x, st) := fn (s.readCsr e.k e.t 20 0x003).toNat (low32 a)
    (zext32 x, st)
/-- An integer function of both sources. -/
def integerF (i : Instr) (uf lat : Nat) (f : FieldF) (fn : Nat → Nat → Nat) : SlotOp :=
  functionOp i uf lat f fun _ _ a b => (BitVec.ofNat 64 (fn a.toNat b.toNat), 0)

/-- rcp (R169). -/
def rcpOp (f : FieldF) : SlotOp := elementaryF (.rcp f) 0x01 6 f fnRcp
/-- rcp (R169). -/
def execRcp (f : FieldF) (s : State) : Host.Outcome State Fault Refusal := .next (issueOps [rcpOp f] s)

/-- rsq (R169). -/
def rsqOp (f : FieldF) : SlotOp := elementaryF (.rsq f) 0x02 6 f (fun _ => fnRsq)
/-- rsq (R169). -/
def execRsq (f : FieldF) (s : State) : Host.Outcome State Fault Refusal := .next (issueOps [rsqOp f] s)

/-- sqrt (R169). -/
def sqrtOp (f : FieldF) : SlotOp := elementaryF (.sqrt f) 0x03 6 f fnSqrt
/-- sqrt (R169). -/
def execSqrt (f : FieldF) (s : State) : Host.Outcome State Fault Refusal := .next (issueOps [sqrtOp f] s)

/-- exp2 (R169). -/
def exp2Op (f : FieldF) : SlotOp := elementaryF (.exp2 f) 0x04 8 f (fun _ => fnExp2)
/-- exp2 (R169). -/
def execExp2 (f : FieldF) (s : State) : Host.Outcome State Fault Refusal := .next (issueOps [exp2Op f] s)

/-- log2 (R169). -/
def log2Op (f : FieldF) : SlotOp := elementaryF (.log2 f) 0x05 8 f (fun _ => fnLog2)
/-- log2 (R169). -/
def execLog2 (f : FieldF) (s : State) : Host.Outcome State Fault Refusal := .next (issueOps [log2Op f] s)

/-- sinp (R169). -/
def sinpOp (f : FieldF) : SlotOp := elementaryF (.sinp f) 0x06 10 f (fun _ => fnSinp)
/-- sinp (R169). -/
def execSinp (f : FieldF) (s : State) : Host.Outcome State Fault Refusal := .next (issueOps [sinpOp f] s)

/-- cosp (R169). -/
def cospOp (f : FieldF) : SlotOp := elementaryF (.cosp f) 0x07 10 f (fun _ => fnCosp)
/-- cosp (R169). -/
def execCosp (f : FieldF) (s : State) : Host.Outcome State Fault Refusal := .next (issueOps [cospOp f] s)

/-- tanh (R169). -/
def tanhOp (f : FieldF) : SlotOp := elementaryF (.tanh f) 0x08 10 f (fun _ => fnTanh)
/-- tanh (R169). -/
def execTanh (f : FieldF) (s : State) : Host.Outcome State Fault Refusal := .next (issueOps [tanhOp f] s)

/-- sigm (R169). -/
def sigmOp (f : FieldF) : SlotOp := elementaryF (.sigm f) 0x09 10 f (fun _ => fnSigm)
/-- sigm (R169). -/
def execSigm (f : FieldF) (s : State) : Host.Outcome State Fault Refusal := .next (issueOps [sigmOp f] s)

/-- bnet (R174). -/
def bnetOp (f : FieldF) : SlotOp :=
  functionOp (.bnet f) 0x10 2 f fun e s a _ =>
    (BitVec.ofNat 64 (bnet (patEntry (patWords s e.k e.t (.bnet f)) (f.aux.toNat % 8)) 64 a.toNat), 0)
/-- bnet (R174). -/
def execBnet (f : FieldF) (s : State) : Host.Outcome State Fault Refusal := .next (issueOps [bnetOp f] s)

/-- pdep (R176). -/
def pdepOp (f : FieldF) : SlotOp := integerF (.pdep f) 0x11 3 f (fun a b => pdepFrom a b 64 0 0)
/-- pdep (R176). -/
def execPdep (f : FieldF) (s : State) : Host.Outcome State Fault Refusal := .next (issueOps [pdepOp f] s)

/-- pext (R176). -/
def pextOp (f : FieldF) : SlotOp := integerF (.pext f) 0x12 3 f (fun a b => pextFrom a b 64 0 0)
/-- pext (R176). -/
def execPext (f : FieldF) (s : State) : Host.Outcome State Fault Refusal := .next (issueOps [pextOp f] s)

/-- bperm (R177). -/
def bpermOp (f : FieldF) : SlotOp := integerF (.bperm f) 0x13 3 f (bpermBytes 64)
/-- bperm (R177). -/
def execBperm (f : FieldF) (s : State) : Host.Outcome State Fault Refusal := .next (issueOps [bpermOp f] s)

/-- gfmm (R178). -/
def gfmmOp (f : FieldF) : SlotOp := functionOp (.gfmm f) 0x14 3 f fun _ _ a b => (gfmmScalar (f.aux.toNat % 8) a b, 0)
/-- gfmm (R178). -/
def execGfmm (f : FieldF) (s : State) : Host.Outcome State Fault Refusal := .next (issueOps [gfmmOp f] s)

/-- keccak (R180). -/
def keccakOp (f : FieldF) : SlotOp := functionOp (.keccak f) 0x15 4 f fun _ _ _ _ => (0, 0)
/-- keccak (R180). -/
def execKeccak (f : FieldF) (s : State) : Host.Outcome State Fault Refusal := .next (issueOps [keccakOp f] s)

/-- crcc (R179). -/
def crccOp (f : FieldF) : SlotOp :=
  integerF (.crcc f) 0x16 3 f fun a b =>
    crcBytes (if f.aux.getLsbD 2 then 0xEDB88320 else 0x82F63B78) (2 ^ (f.aux.toNat % 4)) (a % 2 ^ 32) b
/-- crcc (R179). -/
def execCrcc (f : FieldF) (s : State) : Host.Outcome State Fault Refusal := .next (issueOps [crccOp f] s)

end Sys2Proof.Machine
end

