-- ==== Sys2Proof/Machine/Vector.lean ====
section
/-! DEFINITION. The meanings of the V class (R129 to R163). -/

namespace Sys2Proof.Machine

/-- The fields of a V-class operation. kaux is the mask register that its AUX names. -/
def fieldsV (u : SlotV) (f : FieldV) (kaux : Nat) : VectorFields :=
  { slot := u.index, ws := f.ws, dst := f.dst.toNat, opa := f.opa, opb := f.opb, opc := f.opc, rb := f.rb.toNat
    rn := f.rn.toNat, ks := f.ks, kaux := kaux }
/-- A V-class operation that occupies its slot for its window (R59 Table 9). -/
def windowOp (i : Instr) (uf : Nat) (u : SlotV) (f : FieldV) : SlotOp :=
  vectorOp i uf f.pf f.pn (f.rn.toNat + 1) (fieldsV u f 0)
/-- A division: eight cycles a row (R138). -/
def divisionV (i : Instr) (uf : Nat) (u : SlotV) (f : FieldV) : SlotOp :=
  vectorOp i uf f.pf f.pn (8 * (f.rn.toNat + 1)) (fieldsV u f 0)
/-- A column-axis operation: sixteen cycles (R160). -/
def columnOp (i : Instr) (uf : Nat) (u : SlotV) (f : FieldV) : SlotOp := vectorOp i uf f.pf f.pn 16 (fieldsV u f 0)

/-- vadd (R134). -/
def vaddOp (u : SlotV) (f : FieldV) : SlotOp := windowOp (.vadd u f) 0x01 u f
/-- vadd (R134). -/
def execVadd (u : SlotV) (f : FieldV) (s : State) : Host.Outcome State Fault Refusal := .next (issueOps [vaddOp u f] s)

/-- vsub (R134). -/
def vsubOp (u : SlotV) (f : FieldV) : SlotOp := windowOp (.vsub u f) 0x02 u f
/-- vsub (R134). -/
def execVsub (u : SlotV) (f : FieldV) (s : State) : Host.Outcome State Fault Refusal := .next (issueOps [vsubOp u f] s)

/-- vmul (R134). -/
def vmulOp (u : SlotV) (f : FieldV) : SlotOp := windowOp (.vmul u f) 0x03 u f
/-- vmul (R134). -/
def execVmul (u : SlotV) (f : FieldV) (s : State) : Host.Outcome State Fault Refusal := .next (issueOps [vmulOp u f] s)

/-- vmulh (R134). -/
def vmulhOp (u : SlotV) (f : FieldV) : SlotOp := windowOp (.vmulh u f) 0x04 u f
/-- vmulh (R134). -/
def execVmulh (u : SlotV) (f : FieldV) (s : State) : Host.Outcome State Fault Refusal := .next (issueOps [vmulhOp u f] s)

/-- vfma (R136). -/
def vfmaOp (u : SlotV) (f : FieldV) : SlotOp := windowOp (.vfma u f) 0x05 u f
/-- vfma (R136). -/
def execVfma (u : SlotV) (f : FieldV) (s : State) : Host.Outcome State Fault Refusal := .next (issueOps [vfmaOp u f] s)

/-- vfms (R136). -/
def vfmsOp (u : SlotV) (f : FieldV) : SlotOp := windowOp (.vfms u f) 0x06 u f
/-- vfms (R136). -/
def execVfms (u : SlotV) (f : FieldV) (s : State) : Host.Outcome State Fault Refusal := .next (issueOps [vfmsOp u f] s)

/-- vfnma (R136). -/
def vfnmaOp (u : SlotV) (f : FieldV) : SlotOp := windowOp (.vfnma u f) 0x07 u f
/-- vfnma (R136). -/
def execVfnma (u : SlotV) (f : FieldV) (s : State) : Host.Outcome State Fault Refusal := .next (issueOps [vfnmaOp u f] s)

/-- vdiv (R137). -/
def vdivOp (u : SlotV) (f : FieldV) : SlotOp := divisionV (.vdiv u f) 0x08 u f
/-- vdiv (R137). -/
def execVdiv (u : SlotV) (f : FieldV) (s : State) : Host.Outcome State Fault Refusal := .next (issueOps [vdivOp u f] s)

/-- vrem (R137). -/
def vremOp (u : SlotV) (f : FieldV) : SlotOp := divisionV (.vrem u f) 0x09 u f
/-- vrem (R137). -/
def execVrem (u : SlotV) (f : FieldV) (s : State) : Host.Outcome State Fault Refusal := .next (issueOps [vremOp u f] s)

/-- vmin (R134). -/
def vminOp (u : SlotV) (f : FieldV) : SlotOp := windowOp (.vmin u f) 0x0A u f
/-- vmin (R134). -/
def execVmin (u : SlotV) (f : FieldV) (s : State) : Host.Outcome State Fault Refusal := .next (issueOps [vminOp u f] s)

/-- vmax (R134). -/
def vmaxOp (u : SlotV) (f : FieldV) : SlotOp := windowOp (.vmax u f) 0x0B u f
/-- vmax (R134). -/
def execVmax (u : SlotV) (f : FieldV) (s : State) : Host.Outcome State Fault Refusal := .next (issueOps [vmaxOp u f] s)

/-- vabs (R134). -/
def vabsOp (u : SlotV) (f : FieldV) : SlotOp := windowOp (.vabs u f) 0x0C u f
/-- vabs (R134). -/
def execVabs (u : SlotV) (f : FieldV) (s : State) : Host.Outcome State Fault Refusal := .next (issueOps [vabsOp u f] s)

/-- vneg (R134). -/
def vnegOp (u : SlotV) (f : FieldV) : SlotOp := windowOp (.vneg u f) 0x0D u f
/-- vneg (R134). -/
def execVneg (u : SlotV) (f : FieldV) (s : State) : Host.Outcome State Fault Refusal := .next (issueOps [vnegOp u f] s)

/-- vsadd (R134). -/
def vsaddOp (u : SlotV) (f : FieldV) : SlotOp := windowOp (.vsadd u f) 0x0E u f
/-- vsadd (R134). -/
def execVsadd (u : SlotV) (f : FieldV) (s : State) : Host.Outcome State Fault Refusal := .next (issueOps [vsaddOp u f] s)

/-- vssub (R134). -/
def vssubOp (u : SlotV) (f : FieldV) : SlotOp := windowOp (.vssub u f) 0x0F u f
/-- vssub (R134). -/
def execVssub (u : SlotV) (f : FieldV) (s : State) : Host.Outcome State Fault Refusal := .next (issueOps [vssubOp u f] s)

/-- vand (R139). -/
def vandOp (u : SlotV) (f : FieldV) : SlotOp := windowOp (.vand u f) 0x10 u f
/-- vand (R139). -/
def execVand (u : SlotV) (f : FieldV) (s : State) : Host.Outcome State Fault Refusal := .next (issueOps [vandOp u f] s)

/-- vor (R139). -/
def vorOp (u : SlotV) (f : FieldV) : SlotOp := windowOp (.vor u f) 0x11 u f
/-- vor (R139). -/
def execVor (u : SlotV) (f : FieldV) (s : State) : Host.Outcome State Fault Refusal := .next (issueOps [vorOp u f] s)

/-- vxor (R139). -/
def vxorOp (u : SlotV) (f : FieldV) : SlotOp := windowOp (.vxor u f) 0x12 u f
/-- vxor (R139). -/
def execVxor (u : SlotV) (f : FieldV) (s : State) : Host.Outcome State Fault Refusal := .next (issueOps [vxorOp u f] s)

/-- vandn (R139). -/
def vandnOp (u : SlotV) (f : FieldV) : SlotOp := windowOp (.vandn u f) 0x13 u f
/-- vandn (R139). -/
def execVandn (u : SlotV) (f : FieldV) (s : State) : Host.Outcome State Fault Refusal := .next (issueOps [vandnOp u f] s)

/-- vnot (R139). -/
def vnotOp (u : SlotV) (f : FieldV) : SlotOp := windowOp (.vnot u f) 0x14 u f
/-- vnot (R139). -/
def execVnot (u : SlotV) (f : FieldV) (s : State) : Host.Outcome State Fault Refusal := .next (issueOps [vnotOp u f] s)

/-- vshl (R140). -/
def vshlOp (u : SlotV) (f : FieldV) : SlotOp := windowOp (.vshl u f) 0x15 u f
/-- vshl (R140). -/
def execVshl (u : SlotV) (f : FieldV) (s : State) : Host.Outcome State Fault Refusal := .next (issueOps [vshlOp u f] s)

/-- vshr (R140). -/
def vshrOp (u : SlotV) (f : FieldV) : SlotOp := windowOp (.vshr u f) 0x16 u f
/-- vshr (R140). -/
def execVshr (u : SlotV) (f : FieldV) (s : State) : Host.Outcome State Fault Refusal := .next (issueOps [vshrOp u f] s)

/-- vsar (R140). -/
def vsarOp (u : SlotV) (f : FieldV) : SlotOp := windowOp (.vsar u f) 0x17 u f
/-- vsar (R140). -/
def execVsar (u : SlotV) (f : FieldV) (s : State) : Host.Outcome State Fault Refusal := .next (issueOps [vsarOp u f] s)

/-- vcmp (R142). -/
def vcmpOp (u : SlotV) (f : FieldV) : SlotOp := windowOp (.vcmp u f) 0x18 u f
/-- vcmp (R142). -/
def execVcmp (u : SlotV) (f : FieldV) (s : State) : Host.Outcome State Fault Refusal := .next (issueOps [vcmpOp u f] s)

/-- vsel (R144). -/
def vselOp (u : SlotV) (f : FieldV) : SlotOp := windowOp (.vsel u f) 0x19 u f
/-- vsel (R144). -/
def execVsel (u : SlotV) (f : FieldV) (s : State) : Host.Outcome State Fault Refusal := .next (issueOps [vselOp u f] s)

/-- vcvt (R146). -/
def vcvtOp (u : SlotV) (f : FieldV) : SlotOp := windowOp (.vcvt u f) 0x1A u f
/-- vcvt (R146). -/
def execVcvt (u : SlotV) (f : FieldV) (s : State) : Host.Outcome State Fault Refusal := .next (issueOps [vcvtOp u f] s)

/-- vpack (R147). -/
def vpackOp (u : SlotV) (f : FieldV) : SlotOp := windowOp (.vpack u f) 0x1B u f
/-- vpack (R147). -/
def execVpack (u : SlotV) (f : FieldV) (s : State) : Host.Outcome State Fault Refusal := .next (issueOps [vpackOp u f] s)

/-- vunpk (R148). -/
def vunpkOp (u : SlotV) (f : FieldV) : SlotOp := windowOp (.vunpk u f) 0x1C u f
/-- vunpk (R148). -/
def execVunpk (u : SlotV) (f : FieldV) (s : State) : Host.Outcome State Fault Refusal := .next (issueOps [vunpkOp u f] s)

/-- vdot4 (R149). -/
def vdot4Op (u : SlotV) (f : FieldV) : SlotOp := windowOp (.vdot4 u f) 0x1D u f
/-- vdot4 (R149). -/
def execVdot4 (u : SlotV) (f : FieldV) (s : State) : Host.Outcome State Fault Refusal := .next (issueOps [vdot4Op u f] s)

/-- vdot2 (R149). -/
def vdot2Op (u : SlotV) (f : FieldV) : SlotOp := windowOp (.vdot2 u f) 0x1E u f
/-- vdot2 (R149). -/
def execVdot2 (u : SlotV) (f : FieldV) (s : State) : Host.Outcome State Fault Refusal := .next (issueOps [vdot2Op u f] s)

/-- vclz (R141). -/
def vclzOp (u : SlotV) (f : FieldV) : SlotOp := windowOp (.vclz u f) 0x1F u f
/-- vclz (R141). -/
def execVclz (u : SlotV) (f : FieldV) (s : State) : Host.Outcome State Fault Refusal := .next (issueOps [vclzOp u f] s)

/-- vpopc (R141). -/
def vpopcOp (u : SlotV) (f : FieldV) : SlotOp := windowOp (.vpopc u f) 0x20 u f
/-- vpopc (R141). -/
def execVpopc (u : SlotV) (f : FieldV) (s : State) : Host.Outcome State Fault Refusal := .next (issueOps [vpopcOp u f] s)

/-- vrotr (R154). -/
def vrotrOp (u : SlotV) (f : FieldV) : SlotOp := windowOp (.vrotr u f) 0x28 u f
/-- vrotr (R154). -/
def execVrotr (u : SlotV) (f : FieldV) (s : State) : Host.Outcome State Fault Refusal := .next (issueOps [vrotrOp u f] s)

/-- vbcr (R154). -/
def vbcrOp (u : SlotV) (f : FieldV) : SlotOp := windowOp (.vbcr u f) 0x29 u f
/-- vbcr (R154). -/
def execVbcr (u : SlotV) (f : FieldV) (s : State) : Host.Outcome State Fault Refusal := .next (issueOps [vbcrOp u f] s)

/-- vredr (R158). -/
def vredrOp (u : SlotV) (f : FieldV) : SlotOp := windowOp (.vredr u f) 0x2A u f
/-- vredr (R158). -/
def execVredr (u : SlotV) (f : FieldV) (s : State) : Host.Outcome State Fault Refusal := .next (issueOps [vredrOp u f] s)

/-- vscanr (R159). -/
def vscanrOp (u : SlotV) (f : FieldV) : SlotOp := windowOp (.vscanr u f) 0x2B u f
/-- vscanr (R159). -/
def execVscanr (u : SlotV) (f : FieldV) (s : State) : Host.Outcome State Fault Refusal := .next (issueOps [vscanrOp u f] s)

/-- vshuf (R155). -/
def vshufOp (u : SlotV) (f : FieldV) : SlotOp := windowOp (.vshuf u f) 0x2C u f
/-- vshuf (R155). -/
def execVshuf (u : SlotV) (f : FieldV) (s : State) : Host.Outcome State Fault Refusal := .next (issueOps [vshufOp u f] s)

/-- vvote (R156). -/
def vvoteOp (u : SlotV) (f : FieldV) : SlotOp := windowOp (.vvote u f) 0x2D u f
/-- vvote (R156). -/
def execVvote (u : SlotV) (f : FieldV) (s : State) : Host.Outcome State Fault Refusal := .next (issueOps [vvoteOp u f] s)

/-- vrotc (R161). -/
def vrotcOp (u : SlotV) (f : FieldV) : SlotOp := columnOp (.vrotc u f) 0x30 u f
/-- vrotc (R161). -/
def execVrotc (u : SlotV) (f : FieldV) (s : State) : Host.Outcome State Fault Refusal := .next (issueOps [vrotcOp u f] s)

/-- vbcc (R161). -/
def vbccOp (u : SlotV) (f : FieldV) : SlotOp := columnOp (.vbcc u f) 0x31 u f
/-- vbcc (R161). -/
def execVbcc (u : SlotV) (f : FieldV) (s : State) : Host.Outcome State Fault Refusal := .next (issueOps [vbccOp u f] s)

/-- vredc (R162). -/
def vredcOp (u : SlotV) (f : FieldV) : SlotOp := columnOp (.vredc u f) 0x32 u f
/-- vredc (R162). -/
def execVredc (u : SlotV) (f : FieldV) (s : State) : Host.Outcome State Fault Refusal := .next (issueOps [vredcOp u f] s)

/-- vscanc (R163). -/
def vscancOp (u : SlotV) (f : FieldV) : SlotOp := columnOp (.vscanc u f) 0x33 u f
/-- vscanc (R163). -/
def execVscanc (u : SlotV) (f : FieldV) (s : State) : Host.Outcome State Fault Refusal := .next (issueOps [vscancOp u f] s)

/-- vmov (R150). -/
def vmovOp (u : SlotV) (f : FieldV) : SlotOp := windowOp (.vmov u f) 0x38 u f
/-- vmov (R150). -/
def execVmov (u : SlotV) (f : FieldV) (s : State) : Host.Outcome State Fault Refusal := .next (issueOps [vmovOp u f] s)

/-- vput (R151). -/
def vputOp (u : SlotV) (f : FieldV) : SlotOp := windowOp (.vput u f) 0x39 u f
/-- vput (R151). -/
def execVput (u : SlotV) (f : FieldV) (s : State) : Host.Outcome State Fault Refusal := .next (issueOps [vputOp u f] s)

/-- viota (R152). -/
def viotaOp (u : SlotV) (f : FieldV) : SlotOp := vectorOp (.viota u f) 0x3A f.pf f.pn (f.rn.toNat + 1) (fieldsV u f (f.aux.toNat % 8))
/-- viota (R152). -/
def execViota (u : SlotV) (f : FieldV) (s : State) : Host.Outcome State Fault Refusal := .next (issueOps [viotaOp u f] s)

/-- vkmov (R145). -/
def vkmovOp (u : SlotV) (f : FieldV) : SlotOp := vectorOp (.vkmov u f) 0x3B f.pf f.pn (f.rn.toNat + 1) (fieldsV u f (f.aux.toNat / 2 % 8))
/-- vkmov (R145). -/
def execVkmov (u : SlotV) (f : FieldV) (s : State) : Host.Outcome State Fault Refusal := .next (issueOps [vkmovOp u f] s)

end Sys2Proof.Machine
end

