-- ==== Sys2Proof/Machine/Bundle.lean ====
section
/-! DEFINITION. The operations of a bundle (R31, R40): what each instruction of a slot is to the issue stage, and the issue of a bundle
with several of them. -/

namespace Sys2Proof.Machine

/-- An instruction of a slot as the issue stage sees it; an idle bundle and the deeds of other agents are none. -/
def opOf (i : Instr) : Option SlotOp :=
  match i with
  | .add u f => some (addOp u f)
  | .sub u f => some (subOp u f)
  | .addw u f => some (addwOp u f)
  | .subw u f => some (subwOp u f)
  | .and u f => some (andOp u f)
  | .or u f => some (orOp u f)
  | .xor u f => some (xorOp u f)
  | .andn u f => some (andnOp u f)
  | .orn u f => some (ornOp u f)
  | .xnor u f => some (xnorOp u f)
  | .shl u f => some (shlOp u f)
  | .shr u f => some (shrOp u f)
  | .sar u f => some (sarOp u f)
  | .rotl u f => some (rotlOp u f)
  | .rotr u f => some (rotrOp u f)
  | .mul u f => some (mulOp u f)
  | .mulh u f => some (mulhOp u f)
  | .mulhu u f => some (mulhuOp u f)
  | .mulw u f => some (mulwOp u f)
  | .div u f => some (divOp u f)
  | .divu u f => some (divuOp u f)
  | .rem u f => some (remOp u f)
  | .remu u f => some (remuOp u f)
  | .divw u f => some (divwOp u f)
  | .remw u f => some (remwOp u f)
  | .min u f => some (minOp u f)
  | .max u f => some (maxOp u f)
  | .minu u f => some (minuOp u f)
  | .maxu u f => some (maxuOp u f)
  | .clz u f => some (clzOp u f)
  | .ctz u f => some (ctzOp u f)
  | .popc u f => some (popcOp u f)
  | .bswap u f => some (bswapOp u f)
  | .sext u f => some (sextOp u f)
  | .zext u f => some (zextOp u f)
  | .mov u f => some (movOp u f)
  | .pack u f => some (packOp u f)
  | .sel u f => some (selOp u f)
  | .cmp u f => some (cmpOp u f)
  | .lea u f => some (leaOp u f)
  | .flset u f => some (flsetOp u f)
  | .flget u f => some (flgetOp u f)
  | .ident u f => some (identOp u f)
  | .vget u f => some (vgetOp u f)
  | .kget u f => some (kgetOp u f)
  | .kset u f => some (ksetOp u f)
  | .vadd u f => some (vaddOp u f)
  | .vsub u f => some (vsubOp u f)
  | .vmul u f => some (vmulOp u f)
  | .vmulh u f => some (vmulhOp u f)
  | .vfma u f => some (vfmaOp u f)
  | .vfms u f => some (vfmsOp u f)
  | .vfnma u f => some (vfnmaOp u f)
  | .vdiv u f => some (vdivOp u f)
  | .vrem u f => some (vremOp u f)
  | .vmin u f => some (vminOp u f)
  | .vmax u f => some (vmaxOp u f)
  | .vabs u f => some (vabsOp u f)
  | .vneg u f => some (vnegOp u f)
  | .vsadd u f => some (vsaddOp u f)
  | .vssub u f => some (vssubOp u f)
  | .vand u f => some (vandOp u f)
  | .vor u f => some (vorOp u f)
  | .vxor u f => some (vxorOp u f)
  | .vandn u f => some (vandnOp u f)
  | .vnot u f => some (vnotOp u f)
  | .vshl u f => some (vshlOp u f)
  | .vshr u f => some (vshrOp u f)
  | .vsar u f => some (vsarOp u f)
  | .vcmp u f => some (vcmpOp u f)
  | .vsel u f => some (vselOp u f)
  | .vcvt u f => some (vcvtOp u f)
  | .vpack u f => some (vpackOp u f)
  | .vunpk u f => some (vunpkOp u f)
  | .vdot4 u f => some (vdot4Op u f)
  | .vdot2 u f => some (vdot2Op u f)
  | .vclz u f => some (vclzOp u f)
  | .vpopc u f => some (vpopcOp u f)
  | .vrotr u f => some (vrotrOp u f)
  | .vbcr u f => some (vbcrOp u f)
  | .vredr u f => some (vredrOp u f)
  | .vscanr u f => some (vscanrOp u f)
  | .vshuf u f => some (vshufOp u f)
  | .vvote u f => some (vvoteOp u f)
  | .vrotc u f => some (vrotcOp u f)
  | .vbcc u f => some (vbccOp u f)
  | .vredc u f => some (vredcOp u f)
  | .vscanc u f => some (vscancOp u f)
  | .vmov u f => some (vmovOp u f)
  | .vput u f => some (vputOp u f)
  | .viota u f => some (viotaOp u f)
  | .vkmov u f => some (vkmovOp u f)
  | .rcp f => some (rcpOp f)
  | .rsq f => some (rsqOp f)
  | .sqrt f => some (sqrtOp f)
  | .exp2 f => some (exp2Op f)
  | .log2 f => some (log2Op f)
  | .sinp f => some (sinpOp f)
  | .cosp f => some (cospOp f)
  | .tanh f => some (tanhOp f)
  | .sigm f => some (sigmOp f)
  | .bnet f => some (bnetOp f)
  | .pdep f => some (pdepOp f)
  | .pext f => some (pextOp f)
  | .bperm f => some (bpermOp f)
  | .gfmm f => some (gfmmOp f)
  | .keccak f => some (keccakOp f)
  | .crcc f => some (crccOp f)
  | .ld u f => some (ldOp u f)
  | .st u f => some (stOp u f)
  | .vld u f => some (vldOp u f)
  | .vst u f => some (vstOp u f)
  | .vgat u f => some (vgatOp u f)
  | .vsct u f => some (vsctOp u f)
  | .lds u f => some (ldsOp u f)
  | .sts u f => some (stsOp u f)
  | .vlds u f => some (vldsOp u f)
  | .vsts u f => some (vstsOp u f)
  | .vgats u f => some (vgatsOp u f)
  | .vscts u f => some (vsctsOp u f)
  | .amo u f => some (amoOp u f)
  | .vamo u f => some (vamoOp u f)
  | .red u f => some (redOp u f)
  | .vred u f => some (vredOp u f)
  | .popq u f => some (popqOp u f)
  | .fence u f => some (fenceOp u f)
  | .pref u f => some (prefOp u f)
  | .waita u f => some (waitaOp u f)
  | .qpush u f => some (qpushOp u f)
  | .qpop u f => some (qpopOp u f)
  | .cspush u f => some (cspushOp u f)
  | .cspop u f => some (cspopOp u f)
  | .cacheop u f => some (cacheopOp u f)
  | .br f => some (brOp f)
  | .brf f => some (brfOp f)
  | .brnf f => some (brnfOp f)
  | .jr f => some (jrOp f)
  | .call f => some (callOp f)
  | .ret f => some (retOp f)
  | .loop f => some (loopOp f)
  | .lexit f => some (lexitOp f)
  | .ipf f => some (ipfOp f)
  | .pin f => some (pinOp f)
  | .unpin f => some (unpinOp f)
  | .wait f => some (waitOp f)
  | .yield f => some (yieldOp f)
  | .bar f => some (barOp f)
  | .chkt f => some (chktOp f)
  | .trap f => some (trapOp f)
  | .svc f => some (svcOp f)
  | .eret f => some (eretOp f)
  | .exit f => some (exitOp f)
  | .cont f => some (contOp f)
  | .phbeg f => some (phbegOp f)
  | .phsw f => some (phswOp f)
  | .csrr f => some (csrrOp f)
  | .csrw f => some (csrwOp f)
  | .csrs f => some (csrsOp f)
  | .csrc f => some (csrcOp f)
  | .dload f => some (dloadOp f)
  | .ddrop f => some (ddropOp f)
  | .tlbinv f => some (tlbinvOp f)
  | .bankmode f => some (bankmodeOp f)
  | .ctxsave f => some (ctxsaveOp f)
  | .ctxrest f => some (ctxrestOp f)
  | .halt f => some (haltOp f)
  | .mma f => some (mmaOp f)
  | .mmaz f => some (mmazOp f)
  | .mmas f => some (mmasOp f)
  | .mmaa f => some (mmaaOp f)
  | .mmai f => some (mmaiOp f)
  | .lsl f => some (lslOp f)
  | .tzero f => some (tzeroOp f)
  | .txp f => some (txpOp f)
  | .tcvt f => some (tcvtOp f)
  | .t2v f => some (t2vOp f)
  | .v2t f => some (v2tOp f)
  | .tcopy f => some (tcopyOp f)
  | .tgath f => some (tgathOp f)
  | .tload f => some (tloadOp f)
  | .tstore f => some (tstoreOp f)
  | .idle _ _ => none
  | .uclaim f => some (uclaimOp f)
  | .uret f => some (uretOp f)
  | .ulaunch f => some (ulaunchOp f)
  | .userve f => some (userveOp f)
  | .evContextSelect _ => none
  | .evFairnessSwitch _ => none
  | .evForcedSwitch _ => none
  | .evTrapEntry _ => none
  | .evDebugStop _ => none
  | .evContextDone _ => none
  | .evGroupEnd _ => none
  | .evGroupPlace _ => none
  | .evSteal _ => none
  | .evPreempt _ => none
  | .evResumption _ _ => none
  | .evPendingAccessComplete _ _ => none
  | .evTurnEnd _ => none
  | .evDictionaryRefill _ => none
  | .evWalkComplete _ => none
  | .evDlqArrival _ _ => none
  | .evStorePerformed _ => none
  | .evVectorAccessComplete _ _ => none
  | .evAccessFailure _ _ _ => none
  | .evWatchFire _ _ => none
  | .evTlbinvComplete _ => none
  | .evBankSwitchComplete _ => none
  | .evCacheopComplete _ => none
  | .evCtxImageComplete _ => none
  | .evLtsAdvance _ _ => none
  | .evBackInvalidation _ _ => none
  | .evOverrunRollback _ => none
  | .evPhaseCancel _ => none
  | .evPhaseRefetchComplete _ => none
  | .evContainedFault _ => none
  | .evRendezvousTimeout _ _ => none
  | .evDivergedStateEnd _ _ => none
  | .evCanopyStart _ => none
  | .evCanopyComplete _ _ => none
  | .evCanopyFault _ => none
  | .evCopyStart _ => none
  | .evCopyComplete _ _ => none
  | .evCopyFault _ _ => none
  | .evGovernorSample _ => none
  | .evNotify _ _ => none
  | .evQueueResume _ => none
  | .evQueueEnable _ => none
  | .evQueueDisable _ => none
  | .evInvoke _ => none
  | .evDispatch _ => none
  | .evCopyPacket _ _ => none
  | .evSignalPacket _ => none
  | .evWaitPacket _ => none
  | .evBarrierAnd _ => none
  | .evContinue _ => none
  | .evAdapterHint _ => none
  | .evQueueUnblock _ => none
  | .evWaitTimeout _ => none
  | .evCommandComplete _ => none
  | .evFaultResume _ _ => none
  | .evFaultCancel _ _ => none
  | .evFaultRelease _ _ => none
  | .evTrcbaseWrite _ _ => none
  | .evDebugHalt _ _ => none
  | .evDebugRelease _ _ => none
  | .evDump _ _ => none
  | .evLoad _ _ => none
  | .evStopq _ _ => none
  | .evGoq _ _ => none
  | .evStepq _ _ => none
  | .evTraceSample _ => none
  | .evTblcmd _ => none
  | .evTableUpdate => none
  | .evMailboxExtend _ _ => none
  | .evRegisterWrite _ _ => none
  | .evGetVersion _ => none
  | .evGetCapabilities _ => none
  | .evNegotiateAlgorithms _ => none
  | .evGetDigests _ => none
  | .evGetCertificate _ => none
  | .evChallenge _ => none
  | .evGetMeasurements _ => none
  | .evKeyExchange _ => none
  | .evFinish _ => none
  | .evEndSession _ => none
  | .evIdeKm _ => none
  | .evUnsupportedRequest _ => none
  | .evPackageReset => none
  | .evSecurityFailover => none
  | .evReadySet _ _ => none
  | .evClusterFail _ => none
  | .evDieLost _ => none
  | .evRootPortLinkDown _ => none
  | .evLinkRecoveryTimeout _ => none
  | .evLinkRetrain _ => none
  | .evPoolRegionLostReport _ => none
  | .evHostLinkDown => none
  | .evHostHdmAccess _ => none
  | .evRideFlit _ => none
  | .evRideRailLost _ _ => none
  | .evInstructionCacheFill _ => none
  | .evRidePortReturn _ => none
  | .evHostLinkRetrain => none
  | .evUnitFail _ _ => none

/-- A bundle of several operations issued together (R31, R40). -/
def issueBundle (is : List Instr) (s : State) : State := issueOps (is.filterMap opOf) s

end Sys2Proof.Machine
end

