-- ==== Sys2Proof/Machine/Debug.lean ====
section
/-! DEFINITION. The debug services of a region (R414 to R419, R423): TRCBASE, the commands of TRCCMD, samples, and the revocation of
the debug right. -/

namespace Sys2Proof.Machine

/-! ## The trace control block (R414) -/

/-- n whole lines read by the device in a region's address space. -/
def State.deviceLines (s : State) (region : Nat) : Nat → W64 → Option (List Byte) × State
  | 0, _ => (some [], s)
  | n + 1, va =>
    match s.deviceRead region 0 va 64 with
    | (.error _, s) => (none, s)
    | (.ok (w, _), s) =>
      match s.deviceLines region n (va + 64) with
      | (some bs, s) => (some (toBytes 64 w ++ bs), s)
      | (none, s) => (none, s)
/-- Bytes written by the device line by line in a region's address space; whether every line was written. -/
def State.deviceStoreLines (s : State) (region : Nat) : Nat → W64 → List Byte → Bool × State
  | 0, _, _ => (true, s)
  | n + 1, va, bs =>
    if bs.isEmpty then (true, s)
    else
      match s.deviceWrite region 0 va (bs.take 64) with
      | (.error _, s) => (false, s)
      | (.ok _, s) => s.deviceStoreLines region n (va + 64) (bs.drop 64)

/-- Whether a trace control block has its reserved fields zero, and not both RECORD and REPLAY (R414 Table 6). -/
def traceBlockValid (bs : List Byte) : Bool :=
  let mode := fieldAt bs 9 1
  decide (mode < 8) && !(mode.testBit 1 && mode.testBit 2) && !(fieldAt bs 0x0A 2).testBit 0 && zeroField bs 0x31 7
    && zeroField bs 0x88 120 && (List.range 8).all fun j => fieldAt bs (0x40 + 8 * j) 8 / 2 ^ 57 % 64 = 0

/-- The debug services that a trace control block asks for. -/
def traceService (value : W64) (debugger clk : Nat) (bs : List Byte) : TraceService :=
  let word (off : Nat) : W64 := BitVec.ofNat 64 (fieldAt bs off 8)
  { base := value, ring := word 0, rlogn := fieldAt bs 8 1, mode := BitVec.ofNat 8 (fieldAt bs 9 1)
    types := BitVec.ofNat 16 (fieldAt bs 0x0A 2), sper := fieldAt bs 0x0C 4, wra := word 0x10, rda := word 0x18
    ovfa := word 0x20, logb := word 0x28, llogn := fieldAt bs 0x30 1, logwr := word 0x38
    bp := tabulate (fun j => word (0x40 + 8 * j)) 8 0, img := word 0x80, debugger := debugger, logCount := 0, logFull := false
    done := [], ordinals := [], lastSample := clk }

/-- TRCBASE_WRITE (R414): the debug services of a region start, restart, or stop; a block that cannot be read or is invalid is
ignored. -/
def trcbaseWrite (region : Nat) (value : W64) (s : State) : State :=
  if !s.debuggable region then s
  else if value = 0 then { s with traces := mapErase s.traces region }
  else if value.toNat % 64 ≠ 0 then s
  else
    let debugger := (s.region region).dbgrgn
    match s.deviceLines debugger 4 value with
    | (none, s) => s
    | (some bs, s) =>
      if traceBlockValid bs then { s with traces := mapSet s.traces region (traceService value debugger s.clk bs) } else s
/-- TRCBASE_WRITE. -/
def execEvTrcbaseWrite (region : Nat) (value : BitVec 64) (s : State) : Host.Outcome State Fault Refusal :=
  .next (trcbaseWrite region value s)

/-! ## Targets of TRCCMD (R415) -/

/-- ALL of a TRCCMD value. -/
def cmdAll (w : W64) : Bool := w.getLsbD 4
/-- CTX of a TRCCMD value. -/
def cmdCtx (w : W64) : Nat := bitsOf w.toNat 16 5
/-- QUEUE of a TRCCMD value. -/
def cmdQueue (w : W64) : Nat := bitsOf w.toNat 32 17

/-- The context that a package context number names in a region: a resident one, or the saved one of a pre-empted group that had
that number. -/
def State.target (s : State) (region n : Nat) : Option Nat :=
  if (s.ctx n).phase ≠ .free && (s.ctx n).group.isSome && s.regionOf n = region then some n
  else
    s.groups.findSome? fun g =>
      match g.2.saved with
      | some v =>
        if g.2.region = region && v.cluster = n / 16 then
          (findPlace (fun h => h = n % 16) g.2.contexts 0).map fun x => parkKey g.1 x.1
        else none
      | none => none

/-- The contexts of a region, resident and saved. -/
def State.regionContexts (s : State) (region : Nat) : List Nat :=
  (s.groups.map fun g => if g.2.region = region then (List.range g.2.decl.n).map fun p => s.keyAt g.1 p else []).flatten

/-- The end of a TRCCMD command: its DBGDONE record (R415, R419). -/
def State.debugDone (s : State) (region cmd result : Nat) : State :=
  s.trace region 11 0 { queue := 0, seq := 0, engine := 0, pos := 0, gidx := 0 } (BitVec.ofNat 64 (cmd + result * 256))

/-- A TRCCMD value is acted on where the region is debuggable and its reserved field is zero (R414, R415). -/
def State.commandTaken (s : State) (region : Nat) (w : W64) : Bool := s.debuggable region && w.toNat / 2 ^ 33 = 0

/-- A command of TRCCMD acts, or waits while a HALT of the region is under way (R415). -/
def debugCommand (cmd region : Nat) (w : W64) (act : State → State) (s : State) : State :=
  if !s.commandTaken region w then s
  else
    match mapGet? s.debugWork region with
    | some d => { s with debugWork := mapSet s.debugWork region { d with waiting := d.waiting ++ [(cmd, w)] } }
    | none => act s

/-! ## HALT and RELEASE (R416, R418) -/

/-- A context halted by a debugger: a RUNNING one drains first, a READY or BLOCKED one is HALTED at once, and one that drains for
another reason stops after that. -/
def State.debugHaltCtx (s : State) (k : Nat) : State :=
  let c := s.ctx k
  if c.overrun.isSome then s.updCtx k fun c => { c with haltReq := true }
  else match c.phase, c.drain with
  | .running, .none => s.updCtx k fun c => { c with drain := .halt 1, haltReq := false }
  | .ready, .none => let s := s.haltCtx k; s.traceCtx k 8 1 ((s.ctx k).pc.zeroExtend 64)
  | .blocked, .none => let s := s.haltCtx k; s.traceCtx k 8 1 ((s.ctx k).pc.zeroExtend 64)
  | _, .none => s
  | _, .exit => s
  | _, .halt _ => s
  | _, _ => s.updCtx k fun c => { c with haltReq := true }

/-- A HALTED context released (R257, R416): its latch shadow is restored and it becomes READY. A context whose phase input is being
fetched again waits for that (R249). -/
def State.releaseCtx (s : State) (k : Nat) : State :=
  if (s.ctx k).phase ≠ .halted then s
  else
    let s := s.updCtx k fun c => { c with restored := some c.shadow }
    let mine (c : EngineCmd) : Bool := c.refetch && c.group = (s.ctx k).group && c.pos = (s.ctx k).pos
    if (s.engine.any fun x => mine x.2) || (s.heldOps.any fun h => mine h.cmd) then
      s.updCtx k fun c => { c with phase := .blocked, block := some .refetch }
    else s.makeReady k

/-- Whether a debugger's HALT of a context has yet to end. -/
def State.haltUnderWay (s : State) (k : Nat) : Bool := (s.ctx k).haltReq || (s.ctx k).drain = .halt 1
/-- The contexts of a region halted: the command ends once each has stopped (R415, R416). -/
def State.haltAll (s : State) (region : Nat) (ks : List Nat) : State :=
  let s := ks.foldl State.debugHaltCtx s
  if (ks.filter s.haltUnderWay).isEmpty then s.debugDone region 1 0
  else { s with debugWork := mapSet s.debugWork region { halting := ks.filter s.haltUnderWay, waiting := [] } }
/-- DEBUG_HALT (R416): TRCCMD HALT, of one context or of every context of the region. (DEDUCED, notes/assumptions/71.md) -/
def debugHalt (region : Nat) (w : W64) : State → State :=
  debugCommand 1 region w fun s =>
    if cmdAll w then s.haltAll region (s.regionContexts region)
    else
      match s.target region (cmdCtx w) with
      | some k => s.haltAll region [k]
      | none => s.debugDone region 1 1
/-- DEBUG_HALT. -/
def execEvDebugHalt (region : Nat) (operand : BitVec 64) (s : State) : Host.Outcome State Fault Refusal :=
  .next (debugHalt region operand s)

/-- DEBUG_RELEASE (R416): TRCCMD RELEASE. -/
def debugRelease (region : Nat) (w : W64) : State → State :=
  debugCommand 2 region w fun s =>
    if cmdAll w then ((s.regionContexts region).foldl State.releaseCtx s).debugDone region 2 0
    else
      match s.target region (cmdCtx w) with
      | some k => if (s.ctx k).phase = .halted then (s.releaseCtx k).debugDone region 2 0 else s.debugDone region 2 1
      | none => s.debugDone region 2 1
/-- DEBUG_RELEASE. -/
def execEvDebugRelease (region : Nat) (operand : BitVec 64) (s : State) : Host.Outcome State Fault Refusal :=
  .next (debugRelease region operand s)

/-! ## DUMP and LOAD (R416) -/

/-- A context whose image a debugger may read or write: HALTED, or saved by pre-emption. -/
def State.imageTarget (s : State) (region : Nat) (w : W64) : Option Nat :=
  (s.target region (cmdCtx w)).bind fun k => if (s.ctx k).phase = .halted || 2 ^ 20 ≤ k then some k else none

/-- The latches that the next bundle of a stopped context will see. -/
def Ctx.savedLatches (c : Ctx) : Latches := if c.phase = .halted then c.shadow else c.restored.getD Latches.zero

/-- DUMP (R416): the image of the target is written at IMG. -/
def dump (region : Nat) (w : W64) : State → State :=
  debugCommand 3 region w fun s =>
    match s.imageTarget region w, mapGet? s.traces region with
    | some k, some t =>
      let s := if k < 2 ^ 20 then s.flush k else s
      let (area, s) := s.imageArea (s.ctx k)
      let bs := s.imageBytes k (s.ctx k).savedLatches area
      match s.deviceStoreLines t.debugger 1536 t.img bs with
      | (true, s) => s.debugDone region 3 0
      | (false, s) => s.debugDone region 3 2
    | some _, none => s
    | none, _ => s.debugDone region 3 1
/-- DUMP. -/
def execEvDump (region : Nat) (operand : BitVec 64) (s : State) : Host.Outcome State Fault Refusal := .next (dump region operand s)

/-- Whether an image has its MAGIC and VERSION and its reserved fields zero (R256 Table 9, R415). -/
def imageValid (bs : List Byte) : Bool :=
  fieldAt bs 0 4 = 0x43585449 && fieldAt bs 4 2 = 1 && decide (fieldAt bs 7 1 < 32) && zeroField bs 0x30 208
    && zeroField bs 0x270 144 && zeroField bs 0x1600 2560

/-- A context loaded from an image by a debugger: its state, its dictionary and its wait record stay (R416). An edit of its PC leaves
nothing of a rendezvous (R218 Table 4). -/
def Ctx.edited (c : Ctx) (bs : List Byte) : Ctx :=
  let x := c.withImage bs c.barrierWait
  let x := if x.pc = c.pc then x else { x with rp := false, rendezvousTrap := none }
  if c.phase = .halted then { x with bpExempt := none }
  else { x with shadow := c.shadow, restored := some x.shadow, bpExempt := none }

/-- LOAD (R416, R418): the image at IMG is loaded into the target, with its armed watches (R256). -/
def load (region : Nat) (w : W64) : State → State :=
  debugCommand 4 region w fun s =>
    match s.imageTarget region w, mapGet? s.traces region with
    | some k, some t =>
      let s := if k < 2 ^ 20 then s.flush k else s
      match s.deviceLines t.debugger imageLines t.img with
      | (none, s) => s.debugDone region 4 2
      | (some head, s) =>
        match s.deviceLines t.debugger (latchLines head) (t.img + 0x12000) with
        | (none, s) => s.debugDone region 4 2
        | (some rows, s) =>
          if imageValid head then
            let s :=
              if fieldAt head 7 1 / 4 % 4 = 0 && k < 2 ^ 20 then s.dropBank k ((s.ctx k).phaseRec.bind PhaseRecord.bank) else s
            ((s.updCtx k fun c => c.edited (head ++ rows)).setWatches k (s.areaRecords head).1).debugDone region 4 0
          else s.debugDone region 4 3
    | some _, none => s
    | none, _ => s.debugDone region 4 1
/-- LOAD. -/
def execEvLoad (region : Nat) (operand : BitVec 64) (s : State) : Host.Outcome State Fault Refusal := .next (load region operand s)

/-! ## STOPQ, GOQ and STEPQ (R417) -/

/-- A TRCCMD command about a user queue of the region. -/
def queueCommand (cmd region : Nat) (w : W64) (act : Nat → State → State) : State → State :=
  debugCommand cmd region w fun s =>
  if s.queueRegion (cmdQueue w) = region then (act (cmdQueue w) s).debugDone region cmd 0
  else s.debugDone region cmd 1

/-- A queue held at its read index (R417): BLOCKED at once, or, where it is DISABLED or in ERROR, once it is enabled or resumed. -/
def State.holdQueue (s : State) (q : Nat) : State :=
  (s.updHold q fun h => { h with stopped := true, steps := 0 }).applyHold q
/-- STOPQ (R417). (DEDUCED, notes/assumptions/71.md) -/
def stopq (region : Nat) (w : W64) : State → State := queueCommand 5 region w (fun q s => s.holdQueue q)
/-- STOPQ. -/
def execEvStopq (region : Nat) (operand : BitVec 64) (s : State) : Host.Outcome State Fault Refusal := .next (stopq region operand s)

/-- GOQ (R417): the hold is released. -/
def goq (region : Nat) (w : W64) : State → State :=
  queueCommand 6 region w (fun q s => s.updHold q fun h => { h with stopped := false, steps := 0 })
/-- GOQ. -/
def execEvGoq (region : Nat) (operand : BitVec 64) (s : State) : Host.Outcome State Fault Refusal := .next (goq region operand s)

/-- STEPQ (R417): one more packet of a held queue may be served. -/
def stepq (region : Nat) (w : W64) : State → State :=
  queueCommand 7 region w (fun q s => s.updHold q fun h => { h with steps := if h.stopped then h.steps + 1 else h.steps })
/-- STEPQ. -/
def execEvStepq (region : Nat) (operand : BitVec 64) (s : State) : Host.Outcome State Fault Refusal := .next (stepq region operand s)

/-- The command of a region that CMD names (R415): other codes than Table 7's are ignored. -/
def debugAct (cmd region : Nat) (w : W64) (s : State) : State :=
  match cmd with
  | 1 => debugHalt region w s
  | 2 => debugRelease region w s
  | 3 => dump region w s
  | 4 => load region w s
  | 5 => stopq region w s
  | 6 => goq region w s
  | 7 => stepq region w s
  | _ => s
/-- A write to TRCCMD of a region (R415). -/
def trccmd (region : Nat) (w : W64) (s : State) : State := debugAct (w.toNat % 16) region w s

/-- A HALT ends, once every context that it stops is HALTED (R415): its record is written, and the commands written since act in their
order, up to one that does not end at once. -/
def haltEnds (region : Nat) (s : State) : State :=
  match mapGet? s.debugWork region with
  | some d =>
    if d.halting.any s.haltUnderWay then s
    else
      let s := { s with debugWork := mapErase s.debugWork region }.debugDone region 1 0
      d.waiting.foldl (fun s x => debugAct x.1 region x.2 s) s
  | none => s

/-! ## Samples (R419) -/

/-- The state code of a SAMPLE record. -/
def sampleCode : CtxPhase → Nat
  | .running => 0 | .ready => 1 | .blocked => 2 | .halted => 3 | .done => 4 | .free => 0
/-- Whether a region's next sample is due: SPER microseconds have passed since the last (a microsecond is 700 cycles). -/
def State.sampleDue (s : State) (region : Nat) : Bool :=
  match mapGet? s.traces region with
  | some t => t.mode.getLsbD 0 && t.types.getLsbD 9 && t.sper ≠ 0 && decide (t.lastSample + 700 * t.sper ≤ s.clk)
  | none => false
/-- TRACE_SAMPLE (R419): a SAMPLE record for each context of the region that is not FREE. -/
def traceSample (region : Nat) (s : State) : State :=
  match mapGet? s.traces region with
  | none => s
  | some t =>
    if !s.sampleDue region then s
    else
      let s := { s with traces := mapSet s.traces region { t with lastSample := t.lastSample + 700 * t.sper } }
      ((s.regionContexts region).filter fun k => decide (k < 4096)).foldl (fun s k =>
        s.traceCtx k 9 (sampleCode (s.ctx k).phase) ((s.ctx k).pc.zeroExtend 64)) s
/-- TRACE_SAMPLE. -/
def execEvTraceSample (region : Nat) (s : State) : Host.Outcome State Fault Refusal := .next (traceSample region s)

/-! ## Revocation (R423) -/

/-- A context of a region whose debug right is revoked: it is released, or a HALT of it under way ends without having stopped it, as if
it had been released at once. -/
def State.unhalt (s : State) (k : Nat) : State :=
  (s.releaseCtx k).updCtx k fun c => { c with
    bpExempt := none, haltReq := false, drain := if c.drain = .halt 1 then .none else c.drain }
/-- The debug right of a region revoked (R423): a HALT under way ends, holds, breakpoints and their exemptions go, HALTED contexts are
released, and a REVOKED record is the last. (DEDUCED, notes/assumptions/71.md) -/
def State.revoke (s : State) (region : Nat) : State :=
  let s := if (mapGet? s.debugWork region).isSome then s.debugDone region 1 0 else s
  let s := { s with debugWork := mapErase s.debugWork region }
  let s := (s.regionContexts region).foldl State.unhalt s
  let queues := (s.queues.map Prod.fst).filter fun q => s.queueRegion q = region
  let s := queues.foldl (fun s q => s.updHold q fun h => { h with stopped := false, steps := 0 }) s
  let s := s.trace region 13 0 { queue := 0, seq := 0, engine := 0, pos := 0, gidx := 0 } 0
  { s with traces := mapErase s.traces region }

end Sys2Proof.Machine
end

