-- ==== Sys2Proof/Machine/Pool.lean ====
section
/-! DEFINITION. Domain events (R375), the states of pool regions (R385 to R388, R449), and the events of root ports and pool devices
(R431, R385). -/

namespace Sys2Proof.Machine

/-! ## Domain events (R375) -/

/-- The user queues of a fault domain that a domain event stops: neither DISABLED nor in ERROR. -/
def State.domainQueues (s : State) (root : Nat) : List Nat :=
  (s.queues.map Prod.fst).filter fun q =>
    !isCont q && s.queueState q ≠ 0 && s.queueState q ≠ 5 && s.domainRoot (s.queueRegion q) = root
/-- A domain event at the root of a fault domain: its queues enter ERROR with their read indices in ERRIDX (R375). -/
def State.domainEvent (s : State) (root : Nat) : State :=
  (s.domainQueues root).foldl (fun s q =>
    let s := s.updHold q fun h => { h.released none with waitFrom := none }
    (s.setQueueState q 5).setQcb q 0x28 8 (s.hold q).held) s

/-- A record that may report a loss of data (R374, R375, R386): with LOSS it goes to the root of the region's fault domain and is a
domain event. -/
def State.publishEvent (s : State) (region : Nat) (r : FaultRecord) : State :=
  if r.loss then
    let root := s.domainRoot region
    ((s.publish root 0 r).2).domainEvent root
  else (s.publish region 0 r).2

/-! ## Pool regions (R385 to R388) -/

/-- The address of pool map entry j. -/
def State.poolAddr (s : State) (j : Nat) : Nat := (s.bases[3]?.getD 0).toNat + 32 * j
/-- The code of a pool region state (R405 Table 5). -/
def poolCode : PoolState → Nat
  | .unmapped => 0 | .active => 1 | .faulted => 2 | .lost => 3
/-- Whether a key lies in a mapped region. -/
def PoolEntry.holds (e : PoolEntry) (key : Nat) : Bool :=
  8 + e.port = planeOf key && decide (e.target ≤ planeAddr key) && decide (planeAddr key < e.target + 2 ^ 30)
/-- The lines of a region that the device holds modified. -/
def State.modifiedIn (s : State) (e : PoolEntry) : List Nat := s.modified.filter fun l => e.holds (l * 64)

/-- The bytes of a region that locked lines hold (R388). -/
def State.lockedBytes (s : State) (e : PoolEntry) : Nat := if e.state = .faulted then 64 * (s.modifiedIn e).length else 0
/-- A pool map entry changed; its device fields STATE and LOCKED are written (R405, R406). (DEDUCED, notes/assumptions/74.md) -/
def State.setPool (s : State) (j : Nat) (e : PoolEntry) : State :=
  let locked := s.lockedBytes e
  let s := { s with pool := mapSet s.pool j { e with locked := locked } }
  (s.setTableWord (s.poolAddr j + 4) 1 (poolCode e.state)).setTableWord (s.poolAddr j + 0x10) 8 locked
/-- Whether LOCKED of an entry is no longer what its locked lines hold. -/
def State.staleLocked (s : State) (e : PoolEntry) : Bool := e.locked ≠ s.lockedBytes e
/-- LOCKED of an entry written anew, since lines of it have been locked or dropped (R388, R405). -/
def showLocked (j : Nat) (s : State) : State :=
  match mapGet? s.pool j with
  | some e => s.setPool j e
  | none => s

/-- The record of a transition of pool region j (R386, R388, R449): POS holds the bytes discarded since its last record.
(DEDUCED, notes/assumptions/74.md) -/
def State.recordPool (s : State) (j detail : Nat) (port : Nat) : State :=
  match mapGet? s.pool j with
  | none => s
  | some e =>
    let s := { s with pool := mapSet s.pool j { e with discarded := 0 } }
    s.publishEvent e.owner
      { FaultRecord.blank 4 with
        cause := causeCode .poolRegionLost, loss := e.discarded ≠ 0 || detail = 3, addr := e.pridx * 2 ^ 30, detail := detail
        pos := e.discarded, ref := port }

/-- The modified lines of region j discarded, and counted for its next record (R388). -/
def State.discardModified (s : State) (j : Nat) (e : PoolEntry) : State :=
  let ls := s.modifiedIn e
  let s := ls.foldl State.dropLine s
  { s with pool := mapSet s.pool j { e with discarded := e.discarded + 64 * ls.length } }

/-- What entry to FAULTED, or to LOST from ACTIVE, does to work in flight (R387): accesses to the region are performed as those of
a FAULTED region, where stores and reductions join the locked lines, and its watches fire. -/
def State.loseAccesses (s : State) (e : PoolEntry) : State :=
  let touches (c : Ctx) : Bool := c.accesses.any fun a => a.elements.any fun x => e.holds x.place.key
  let s := ((s.ctxs.filter fun c => touches c.2).map Prod.fst).foldl State.flush s
  let fire (w : Watch) : Watch := if e.holds w.place.key then { w with hit := true } else w
  { s with ctxs := s.ctxs.map fun c => (c.1, { c.2 with watches := c.2.watches.map fire }) }

/-- Lines of a FAULTED region beyond what their dies may lock are discarded (R388). -/
def State.limitLocked (s : State) (e : PoolEntry) : State :=
  (s.modifiedIn e).foldl (fun s l =>
    let held := s.modified.filter fun x => s.poolStateOf (x * 64) = some .faulted && lineDie x = lineDie l
    if 2 ^ 20 < held.length then (s.countDiscarded (l * 64)).dropLine l else s) s

/-- Region j enters FAULTED (R385, R387): DETAIL 1. -/
def State.poolFault (s : State) (j : Nat) : State :=
  match mapGet? s.pool j with
  | none => s
  | some e =>
    if e.state ≠ .active then s
    else
      let s := ({ s with pool := mapSet s.pool j { e with state := .faulted } }.loseAccesses e).limitLocked e
      let s := s.setPool j (mapGet s.pool e j)
      s.recordPool j 1 e.port

/-- Region j returns to ACTIVE (R385, R388): its locked lines are written back, DETAIL 2. -/
def State.poolReturn (s : State) (j : Nat) : State :=
  match mapGet? s.pool j with
  | none => s
  | some e =>
    if e.state ≠ .faulted then s
    else
      let s := (s.modifiedIn e).foldl State.writeBack s
      (s.setPool j { e with state := .active }).recordPool j 2 e.port

/-- The pool device reports region j lost (R385 to R388): from ACTIVE, work in flight ends as on entry to FAULTED; its lines are
discarded and counted, DETAIL 3. -/
def State.poolLost (s : State) (j : Nat) : State :=
  match mapGet? s.pool j with
  | none => s
  | some e =>
    match e.state with
    | .active =>
      let s := ({ s with pool := mapSet s.pool j { e with state := .faulted } }.loseAccesses e).limitLocked e
      let s := s.discardModified j { mapGet s.pool e j with state := .lost }
      (s.setPool j (mapGet s.pool e j)).recordPool j 3 e.port
    | .faulted =>
      let s := s.discardModified j { e with state := .lost }
      (s.setPool j (mapGet s.pool e j)).recordPool j 3 e.port
    | _ => s

/-! ## Root ports (R431) -/

/-- The pool regions behind a root port. -/
def State.behind (s : State) (port : Nat) : List Nat := (s.pool.filter fun e => e.2.state ≠ .unmapped && e.2.port = port).map Prod.fst
/-- The pool regions behind a root port that is live return to ACTIVE (R385, R431, R439). -/
def State.portReturns (s : State) (port : Nat) : State :=
  if s.portLive port then (s.behind port).foldl State.poolReturn s else s
/-- ROOT_PORT_LINK_DOWN (R385, R387, R431). -/
def rootPortLinkDown (port : Nat) (s : State) : State :=
  if port < 8 && s.rootUp.getLsbD port then
    let s := { s with rootUp := s.rootUp &&& ~~~((1 : BitVec 8) <<< port) }
    (s.behind port).foldl State.poolFault s
  else s
/-- ROOT_PORT_LINK_DOWN. -/
def execEvRootPortLinkDown (port : Nat) (s : State) : Host.Outcome State Fault Refusal := .next (rootPortLinkDown port s)
/-- LINK_RECOVERY_TIMEOUT (R431): a link that stays in recovery for longer than 1 ms counts as down. -/
def linkRecoveryTimeout (port : Nat) (s : State) : State := rootPortLinkDown port s
/-- LINK_RECOVERY_TIMEOUT. -/
def execEvLinkRecoveryTimeout (port : Nat) (s : State) : Host.Outcome State Fault Refusal := .next (linkRecoveryTimeout port s)
/-- LINK_RETRAIN (R385, R431, R449). -/
def linkRetrain (port : Nat) (s : State) : State :=
  if port < 8 && !s.rootUp.getLsbD port then
    { s with rootUp := s.rootUp ||| ((1 : BitVec 8) <<< port) }.portReturns port
  else s
/-- LINK_RETRAIN. -/
def execEvLinkRetrain (port : Nat) (s : State) : Host.Outcome State Fault Refusal := .next (linkRetrain port s)
/-- POOL_REGION_LOST_REPORT (R385). -/
def execEvPoolRegionLostReport (entry : Nat) (s : State) : Host.Outcome State Fault Refusal := .next (s.poolLost entry)

end Sys2Proof.Machine
end

