-- ==== Sys2Proof/Machine/Tables.lean ====
section
/-! DEFINITION. Table updates (R407, R408): region control blocks (R396 to R398), residency slots (R399 to R401), the frame owner
table (R402), ASID slots under them (R403, R404), and the pool region map (R405, R406). -/

namespace Sys2Proof.Machine

/-! ## Reading entries -/

/-- The n bytes of a table entry at a tier-0 address, read at SYS scope; nothing where they cannot be read (R408). No entry
crosses more than one line boundary. -/
def State.entryBytes (s : State) (addr n : Nat) : Option (List Byte) × State :=
  let key := tierKey 0 addr
  let last := tierKey 0 (addr + n - 1)
  let s := (s.mergeLine (lineOf key)).mergeLine (lineOf last)
  if s.uncorrectable key || s.uncorrectable last then (none, s.count (ctrUncorrectable 0 0) 1) else (some (s.bytesAt key n), s)

/-- Whether n bytes of an entry at an offset are zero. -/
def zeroAt (bs : List Byte) (off n : Nat) : Bool := ((bs.drop off).take n).all fun b => b = 0

/-! ## Region control blocks (R396, R397) -/

/-- Whether the reserved fields of a region control block are zero and its fields in range (Table 7 code 1). -/
def rcbRange (bs : List Byte) : Bool :=
  let pt := fieldAt bs 8 8
  let quantum := fieldAt bs 0x1C 4
  let flogn := fieldAt bs 0x20 1
  fieldAt bs 3 1 < 8 && fieldAt bs 4 2 < 16 && fieldAt bs 6 2 < 256
    && pt % 4 < 2 && bitsOf pt 11 2 = 0 && pt / 2 ^ 52 = 0
    && fieldAt bs 0x10 2 ≤ 4096 && fieldAt bs 0x14 2 ≤ 16384 && zeroAt bs 0x16 2
    && fieldAt bs 0x18 4 ≤ 524288 && decide (1 ≤ quantum) && decide (quantum ≤ 10000)
    && (flogn = 0 || (decide (4 ≤ flogn) && decide (flogn ≤ 16)))
    && zeroAt bs 0x21 1 && zeroAt bs 0x24 4 && zeroAt bs 0x54 44

/-- A held block with the fields that software writes taken from an entry (R396). -/
def Region.written (r : Region) (bs : List Byte) : Region :=
  { r with
    parent := fieldAt bs 0 2, prio := fieldAt bs 3 1, flags := BitVec.ofNat 16 (fieldAt bs 4 2)
    ovr := BitVec.ofNat 16 (fieldAt bs 6 2), ptbase := BitVec.ofNat 64 (fieldAt bs 8 8), cshare := fieldAt bs 0x10 2
    qcnt := fieldAt bs 0x12 2, pcnt := fieldAt bs 0x14 2, hbmf := fieldAt bs 0x18 4, quantum := fieldAt bs 0x1C 4
    flogn := fieldAt bs 0x20 1, dbgrgn := fieldAt bs 0x22 2, fqbase := BitVec.ofNat 64 (fieldAt bs 0x28 8)
    fqwra := BitVec.ofNat 64 (fieldAt bs 0x30 8), fqrda := BitVec.ofNat 64 (fieldAt bs 0x38 8)
    fqovfa := BitVec.ofNat 64 (fieldAt bs 0x40 8) }

/-- Whether a valid block k with its new fields breaks the shape of the tree (Table 7 code 3). -/
def State.treeFault (s : State) (k : Nat) (r : Region) : Bool :=
  if k = 0 then r.parent ≠ 0xFFFF || r.ovr.toNat % 256 ≠ 255
  else
    r.parent = 0xFFFF || r.parent = k || !(s.region r.parent).valid || (s.path r.parent).contains k
      || decide (8 < (s.path r.parent).length)
/-- Whether a valid block k with its new fields breaks a rule of fault domains (Table 7 code 4). -/
def domainFault (k : Nat) (r : Region) : Bool :=
  (r.firebreak && r.flogn = 0) || (k = 0 && !r.firebreak) || r.fqbase.toNat % 4096 ≠ 0 || r.fqwra.toNat % 8 ≠ 0
    || r.fqrda.toNat % 8 ≠ 0 || r.fqovfa.toNat % 8 ≠ 0

/-- Whether the subtree of a block has usage, queues that are not DISABLED, or valid children (Table 7 code 5).
(DEDUCED, notes/assumptions/75.md) -/
def State.subtreeUsed (s : State) (k : Nat) : Bool :=
  let b := s.region k
  b.cused ≠ 0 || b.qused ≠ 0 || b.pused ≠ 0 || b.hused ≠ 0
    || s.regions.any fun r => r.1 ≠ k && r.2.valid && r.2.parent = k
/-- Whether an address space has users (R403). -/
def State.rootUsed (s : State) (root : W64) : Bool :=
  match s.slotHolding root with
  | some i => s.usesAsid i
  | none => false
/-- The valid regions whose table root a change of blocks moves. -/
def State.movedRoots (s t : State) : List Nat :=
  ((s.regions.filter fun r => r.2.valid).map Prod.fst).filter fun r => s.ptbase r ≠ t.ptbase r
/-- Whether a change of block k is forbidden by its use (Table 7 code 5). -/
def State.useFault (s : State) (k : Nat) (r : Region) : Bool :=
  let held := s.region k
  let t : State := { s with regions := mapSet s.regions k r }
  (held.valid && (!r.valid || r.parent ≠ held.parent) && s.subtreeUsed k)
    || (s.movedRoots t).any fun x => s.rootUsed (s.ptbase x)

/-- The counts of a block written to memory (R396). -/
def State.writeCounts (s : State) (r : Nat) : State :=
  let b := s.region r
  let a := s.rcbAddr r
  let s := s.setTableWord (a + 0x48) 2 b.cused
  let s := s.setTableWord (a + 0x4A) 2 b.qused
  let s := s.setTableWord (a + 0x4C) 2 b.pused
  s.setTableWord (a + 0x50) 4 b.hused
/-- The device fields of a block written to memory (R396). -/
def State.writeDeviceFields (s : State) (k : Nat) : State :=
  let b := s.region k
  let a := s.rcbAddr k
  ((s.setTableWord (a + 2) 1 b.depth).writeCounts k).setTableWord (a + 0x4E) 2 (b.aslot.getD 0xFFFF)

/-- What the subtree of a block counts added to a region and its ancestors, and written to their blocks (R398). -/
def State.addCounts (s : State) (region : Nat) (b : Region) : State :=
  (s.path region).foldl (fun s r =>
    (s.updRegion r fun x => { x with
      cused := x.cused + b.cused, qused := x.qused + b.qused, pused := x.pused + b.pused
      hused := x.hused + b.hused }).writeCounts r) s

/-- Block k takes effect (R396, R398, R403, R423): what a block that becomes valid counts, its queues and what it owns, counts for its ancestors from now on, ASLOT
follows the table roots that move, and a debug right that is taken away is revoked. -/
def State.setRegion (s : State) (k : Nat) (r : Region) : State :=
  let held := s.region k
  let s := if held.flags.getLsbD 3 && (!r.flags.getLsbD 3 || r.dbgrgn ≠ held.dbgrgn) then s.revoke k else s
  let depth := if k = 0 then 0 else (s.path r.parent).length
  let s : State := { s with regions := mapSet s.regions k { r with depth := if r.valid then depth else r.depth } }
  let s := if r.valid && !held.valid && k ≠ 0 then s.addCounts r.parent held else s
  (s.syncAslots).writeDeviceFields k

/-! ## Residency slots (R399 to R401) -/

/-- Whether the reserved fields of a residency slot are zero and its fields in range. -/
def residencyRange (bs : List Byte) : Bool :=
  let adoff := fieldAt bs 4 1
  fieldAt bs 0 1 < 4 && fieldAt bs 1 1 ≤ 16 && fieldAt bs 0x20 8 % 64 = 0 && (adoff = 0 || (adoff % 2 = 0 && decide (0x30 ≤ adoff) && decide (adoff ≤ 0x3E)))
    && zeroAt bs 5 3 && fieldAt bs 0x10 8 % 128 = 0 && declValid (fieldAt bs 0x18 4) && zeroAt bs 0x1C 4 && zeroAt bs 0x28 24

/-- A residency slot from its bytes, with the PINPG of its object. -/
def residencyOf (bs : List Byte) (pins : List Nat) : Residency :=
  { valid := bitOf (fieldAt bs 0 1) 0, pinned := bitOf (fieldAt bs 0 1) 1, nba := fieldAt bs 1 1, owner := fieldAt bs 2 2
    adoff := fieldAt bs 4 1, entry := BitVec.ofNat 64 (fieldAt bs 8 8), dictObj := BitVec.ofNat 64 (fieldAt bs 0x10 8)
    decl := fieldAt bs 0x18 4, adt := BitVec.ofNat 64 (fieldAt bs 0x20 8), pinPages := pins }

/-- The pinned pairs of object and table root of some slots, each with its PINPG. -/
def State.pinnedPairs (s : State) (slots : SMap Residency) : List (Nat × W64 × List Nat) :=
  ((slots.filter fun r => r.2.valid && r.2.pinned).map fun r =>
    (objectOf r.2.dictObj, s.ptbase r.2.owner, r.2.pinPages)).foldl
      (fun l x => if l.any fun y => y.1 = x.1 && y.2.1 = x.2.1 then l else l ++ [x]) []
/-- Whether pinned pairs keep the limits of R400. -/
def pinsFit (pairs : List (Nat × W64 × List Nat)) : Bool :=
  decide (pairs.length ≤ 4)
    && (List.range 6).all fun cls => decide (4 * (pairs.map fun p => p.2.2.getD cls 0).sum ≤ 3 * classPages cls)

/-- A residency slot takes effect (R83, R400): where it pins an object, the first pages are installed for every handle that names
it. -/
def State.setResidency (s : State) (i : Nat) (r : Residency) : State :=
  let s : State := { s with residency := mapSet s.residency i r }
  if r.valid && r.pinned then
    let asid := s.asidOf r.owner
    (s.cores.map Prod.fst).foldl (fun s core =>
      match s.handleNaming core (objectOf r.dictObj) asid with
      | some h =>
        match ((s.core core).handles[h]?).bind id with
        | some d => s.queuePins core r.owner h d
        | none => s
      | none => s) s
  else s

/-- An entry of the residency table checked and applied. A pinned object's header is read through the owner's table root
(R400). (DEDUCED, notes/assumptions/73.md) -/
def State.applyResidency (s : State) (i : Nat) (bs : List Byte) : Nat × State :=
  if !residencyRange bs then (1, s)
  else
    let r := residencyOf bs []
    if !(r.valid && r.pinned) then (0, s.setResidency i r)
    else
      match s.lineRead r.owner .load (objectOf r.dictObj) with
      | (.error _, s) => (8, s)
      | (.ok header, s) =>
        match parseHeader header ((s.eff 7 r.owner).flags.getLsbD 2) with
        | none => (6, s)
        | some d =>
          let r := { r with pinPages := d.pinPages }
          if pinsFit (s.pinnedPairs (mapSet s.residency i r)) then (0, s.setResidency i r) else (6, s)

/-! ## Region control blocks applied (R396, R400) -/

/-- The slots that pin an object whose owner's table root a change of blocks moves, each read anew through the new root: its header is
checked as where the slot itself was applied (R400). The code of the first failure, and the slots with their PINPG. -/
def State.movedPins (s t : State) : SMap Residency → Nat × SMap Residency × State
  | [] => (0, [], s)
  | (i, r) :: rest =>
    if r.valid && r.pinned && s.ptbase r.owner ≠ t.ptbase r.owner then
      match t.lineRead r.owner .load (objectOf r.dictObj) with
      | (.error _, u) => (8, [], { u with regions := s.regions })
      | (.ok header, u) =>
        match parseHeader header ((t.eff 7 r.owner).flags.getLsbD 2) with
        | none => (6, [], { u with regions := s.regions })
        | some d =>
          let (code, slots, v) := State.movedPins { u with regions := s.regions } u rest
          (code, (i, { r with pinPages := d.pinPages }) :: slots, v)
    else s.movedPins t rest

/-- An entry of the region table checked in the order of the codes of Table 7, and applied: the code of the first failure. A table root
that moves takes the objects pinned under it along (R400). (DEDUCED, notes/assumptions/73.md) -/
def State.applyRegion (s : State) (k : Nat) (bs : List Byte) : Nat × State :=
  let r := (s.region k).written bs
  if !rcbRange bs then (1, s)
  else if r.valid && s.treeFault k r then (3, s)
  else if r.valid && domainFault k r then (4, s)
  else if s.useFault k r then (5, s)
  else
    let t : State := { s with regions := mapSet s.regions k r }
    match s.movedPins t s.residency with
    | (0, moved, s) =>
      let slots := moved.foldl (fun m x => mapSet m x.1 x.2) s.residency
      if !moved.isEmpty && !pinsFit ({ s with regions := mapSet s.regions k r }.pinnedPairs slots) then (6, s)
      else (0, moved.foldl (fun s x => s.setResidency x.1 x.2) (s.setRegion k r))
    | (code, _, s) => (code, s)

/-! ## Counts of frames and pool regions (R396, R398) -/

/-- The frames that a region's subtree owns changed by one along its path, and written to the blocks. -/
def State.bumpFrames (s : State) (region : Nat) (up : Bool) : State :=
  (s.path region).foldl (fun s r =>
    let s := s.updRegion r fun x => { x with hused := if up then x.hused + 1 else x.hused - 1 }
    s.setTableWord (s.rcbAddr r + 0x50) 4 (s.region r).hused) s
/-- The pool regions that a region's subtree owns changed by one along its path, and written to the blocks. -/
def State.bumpPool (s : State) (region : Nat) (up : Bool) : State :=
  (s.path region).foldl (fun s r =>
    let s := s.updRegion r fun x => { x with pused := if up then x.pused + 1 else x.pused - 1 }
    s.setTableWord (s.rcbAddr r + 0x4C) 2 (s.region r).pused) s

/-! ## The frame owner table (R402) -/

/-- The owner of a frame. -/
def State.frameOwner (s : State) (f : Nat) : Option Nat := mapGet? s.frames f
/-- The owner of a line of tier 0 or 1 (R402); none for a line of no owned frame. -/
def State.lineOwner (s : State) (line : Nat) : Option Nat :=
  let key := line * 64
  if 2 ≤ planeOf key then none else s.frameOwner (planeAddr key / 2 ^ 21 + (if planeOf key = 1 then 524288 else 0))

/-- Whether a frame counts toward HUSED. -/
def tierZeroFrame (f : Nat) : Bool := decide (f < 524288)
/-- An entry of the frame owner table checked and applied. -/
def State.applyFrame (s : State) (f : Nat) (bs : List Byte) : Nat × State :=
  let w := fieldAt bs 0 4
  let valid := bitOf w 16
  let owner := w % 65536
  if w / 2 ^ 17 ≠ 0 || (valid && decide (488282 ≤ f) && tierZeroFrame f) then (1, s)
  else
    let held := s.frameOwner f
    let t := match held with
      | some o => if tierZeroFrame f then s.bumpFrames o false else s
      | none => s
    if valid then
      let t := if tierZeroFrame f then t.bumpFrames owner true else t
      let broken := (s.path owner).any fun r =>
        decide ((s.region r).hused < (t.region r).hused) && decide ((t.eff 2 r).hbmf < (t.region r).hused)
      if broken then (6, s) else (0, { t with frames := mapSet t.frames f owner })
    else (0, { t with frames := mapErase t.frames f })

/-! ## The pool region map (R405, R406) -/

/-- A pool map entry as an update writes it: PRIDX word, STATE, PORT, OWNER, TARGET. -/
structure PoolWrite where
  pridx : Nat
  state : Nat
  port : Nat
  owner : Nat
  target : Nat

/-- A pool map entry from its bytes. -/
def PoolWrite.ofBytes (bs : List Byte) : PoolWrite :=
  { pridx := fieldAt bs 0 4, state := fieldAt bs 4 1, port := fieldAt bs 5 1, owner := fieldAt bs 6 2, target := fieldAt bs 8 8 }
/-- The entry at a state. -/
def PoolWrite.entry (w : PoolWrite) (st : PoolState) : PoolEntry :=
  { pridx := w.pridx, state := st, port := w.port, owner := w.owner, target := w.target, discarded := 0, locked := 0 }
/-- Whether every field that software writes is as held. -/
def PoolWrite.same (w : PoolWrite) (e : PoolEntry) : Bool :=
  w.pridx = e.pridx && w.port = e.port && w.owner = e.owner && w.target = e.target

/-- Whether PORT and TARGET may name a region, and no other entry that is not UNMAPPED has the same PRIDX (R406). -/
def State.mayMap (s : State) (j : Nat) (w : PoolWrite) : Bool :=
  w.port < 8 && w.target % 2 ^ 30 = 0
    && !s.pool.any fun e => e.1 ≠ j && e.2.state ≠ .unmapped && e.2.pridx = w.pridx

/-- A region just mapped enters FAULTED where the link of its port is down (R406). -/
def State.faultIfDown (s : State) (j port : Nat) : State := if s.portLive port then s else s.poolFault j

/-- UNMAPPED to ACTIVE (R406). -/
def State.mapPool (s : State) (j : Nat) (w : PoolWrite) : Nat × State :=
  if !s.mayMap j w then (7, s)
  else
    let t := s.bumpPool w.owner true
    if (s.path w.owner).any fun r => decide ((t.eff 4 r).pcnt < (t.region r).pused) then (6, s)
    else (0, (t.setPool j (w.entry .active)).faultIfDown j w.port)
/-- A mapped region unmapped (R406): what watches it fires, and its modified lines are written back from ACTIVE. -/
def State.unmapPool (s : State) (j : Nat) (e : PoolEntry) : State :=
  let s := if e.state = .active then (s.modifiedIn e).foldl State.writeBack s else s.discardModified j e
  let s := { s with pool := mapSet s.pool j { e with state := .unmapped, discarded := 0 } }.loseAccesses e
  (s.setPool j { e with state := .unmapped, discarded := 0 }).bumpPool e.owner false
/-- Where a byte of a remapped region lies from now on (R449). -/
def PoolEntry.moved (e : PoolEntry) (w : PoolWrite) (key : Nat) : Nat :=
  if e.holds key then poolKey w.port (w.target + (planeAddr key - e.target)) else key
/-- Every place that is still to be reached moved (R449): of accesses queued and held, of what banks hold of an overrun, and of the words
that contexts, queues and images watch. -/
def State.moveKeys (s : State) (f : Nat → Nat) : State :=
  let place (p : Place) : Place := { p with key := f p.key }
  let access (a : Access) : Access := { a with elements := a.elements.map fun x => { x with place := place x.place } }
  let watch (w : Watch) : Watch := { w with place := place w.place }
  let line (l : Nat) : Nat := lineOf (f (l * 64))
  let ctx (c : Ctx) : Ctx :=
    { c with
      accesses := c.accesses.map access, watches := c.watches.map watch
      phaseRec := c.phaseRec.map fun p => { p with held := p.held.map access } }
  let bank (b : CheckpointBank) : CheckpointBank :=
    { b with
      stores := b.stores.map fun x => { x with key := f x.key }, loads := b.loads.map fun x => (x.1, f x.2)
      exact := b.exact.map line, filter := b.filter.map line }
  let hold (h : QueueHold) : QueueHold :=
    match h.blocked with
    | some (.words keys cond v timeout passed) => { h with blocked := some (.words (keys.map f) cond v timeout passed) }
    | _ => h
  { s with
    ctxs := s.ctxs.map fun c => (c.1, ctx c.2)
    cores := s.cores.map fun c => (c.1, { c.2 with banks := c.2.banks.map bank })
    queues := s.queues.map fun q => (q.1, hold q.2)
    imageRecords := s.imageRecords.map fun x => (x.1, x.2.1.map watch, x.2.2) }
/-- A remap (R386, R388, R406, R449): the locked lines are discarded, what is still to reach the region goes to its new target, and the
record names the port that the region had. -/
def State.remapPool (s : State) (j : Nat) (e : PoolEntry) (w : PoolWrite) : State :=
  let s := (s.discardModified j e).moveKeys (e.moved w)
  let lost := ((mapGet? s.pool j).map PoolEntry.discarded).getD 0
  let s := s.setPool j { w.entry .active with discarded := lost }
  (s.recordPool j 4 e.port).faultIfDown j w.port

/-- An entry of the pool map checked and applied along Table 6. -/
def State.applyPool (s : State) (j : Nat) (bs : List Byte) : Nat × State :=
  let w := PoolWrite.ofBytes bs
  let e := mapGet s.pool (w.entry .unmapped) j
  let again (st : Nat) : Nat × State := if w.state = st && w.same e then (0, s) else (7, s)
  if 2 ^ 18 ≤ w.pridx || 3 < w.state || !zeroAt bs 0x18 8 then (1, s)
  else
    match e.state with
    | .unmapped =>
      if w.state = 0 then (0, s) else if w.state = 1 then s.mapPool j w else (7, s)
    | .active => if w.state = 0 then (0, s.unmapPool j e) else again 1
    | .faulted =>
      if w.state = 1 && w.pridx = e.pridx && w.owner = e.owner && s.mayMap j w then (0, s.remapPool j e w) else again 2
    | .lost =>
      if w.state = 1 && w.pridx = e.pridx && w.owner = e.owner && s.mayMap j w then (0, s.remapPool j e w)
      else if w.state = 0 then (0, s.unmapPool j e) else again 3

/-! ## Commands (R407, R408) -/

/-- TABLE of a TBLCMD value. -/
def tblTable (w : W64) : Nat := w.toNat % 16
/-- FIRST of a TBLCMD value. -/
def tblFirst (w : W64) : Nat := bitsOf w.toNat 27 4
/-- The number of entries that a TBLCMD value names. -/
def tblLength (w : W64) : Nat := bitsOf w.toNat 47 28 + 1
/-- Whether a range of a table ends within it. -/
def tableHolds (table stop : Nat) : Bool :=
  match table with
  | 1 => decide (stop ≤ 65536)
  | 2 => decide (stop ≤ 4096)
  | 3 => decide (stop ≤ 16384)
  | 4 => decide (stop ≤ 524288) || decide (stop ≤ 524288 + (tier1Limit + 2 ^ 21 - 1) / 2 ^ 21)
  | _ => false
/-- The bytes of an entry of a table. -/
def entrySize (table : Nat) : Nat := match table with | 1 => 128 | 2 => 64 | 3 => 32 | _ => 4
/-- The tier-0 address of an entry of a table. -/
def State.entryAddr (s : State) (table i : Nat) : Nat :=
  let base := match table with | 1 => 0 | 2 => 1 | 3 => 3 | _ => 2
  (s.bases[base]?.getD 0).toNat + entrySize table * i

/-- One entry of a table read, checked and applied: its error code, 0 for none. -/
def State.applyEntry (s : State) (table i : Nat) : Nat × State :=
  match s.entryBytes (s.entryAddr table i) (entrySize table) with
  | (none, s) => (8, s)
  | (some bs, s) =>
    match table with
    | 1 => s.applyRegion i bs
    | 2 => s.applyResidency i bs
    | 3 => s.applyPool i bs
    | _ => s.applyFrame i bs
/-- n entries of a table in ascending index, up to the first failure: its code and index. -/
def State.applyEntries (s : State) (table : Nat) : Nat → Nat → Nat × Nat × State
  | 0, _ => (0, 0, s)
  | n + 1, i =>
    match s.applyEntry table i with
    | (0, s) => s.applyEntries table n (i + 1)
    | (c, s) => (c, i, s)

/-- A write of TBLCMD: the command waits for those before it (R408). -/
def tblcmd (value : W64) (s : State) : State := { s with tblQueue := s.tblQueue ++ [value] }
/-- TBLCMD (R407). -/
def execEvTblcmd (value : BitVec 64) (s : State) : Host.Outcome State Fault Refusal := .next (tblcmd value s)

/-- TBLSTAT after a command (R408). -/
def State.setTblstat (s : State) (error index : Nat) : State :=
  { s with tblCount := (s.tblCount + 1) % 2 ^ 32, tblError := error, tblIndex := index }
/-- TABLE_UPDATE (R408): the oldest command is applied. -/
def tableUpdate (s : State) : State :=
  match s.tblQueue with
  | [] => s
  | w :: rest =>
    let s : State := { s with tblQueue := rest }
    if w.toNat / 2 ^ 48 ≠ 0 || !tableHolds (tblTable w) (tblFirst w + tblLength w) then s.setTblstat 2 0
    else
      let (code, index, s) := s.applyEntries (tblTable w) (tblLength w) (tblFirst w)
      s.setTblstat code index
/-- TABLE_UPDATE (R408). -/
def execEvTableUpdate (s : State) : Host.Outcome State Fault Refusal := .next (tableUpdate s)

end Sys2Proof.Machine
end

