-- ==== Sys2Proof/Machine/Outside.lean ====
section
/-! DEFINITION. The outside (R424 to R441): the doorbell aperture and the driver register block, the governor, READY bits, the loss of
clusters and dies (R12, R23, R384, R391), the host port, Ride, and package reset with secure boot. -/

namespace Sys2Proof.Machine

/-! ## The doorbell aperture (R426, R373, R414) -/

/-- Whether a writer may use the FQCTL of region k: the host, or a context of k or of an ancestor of k within its fault domain. -/
def State.mayControl (s : State) (k : Nat) : Option Nat → Bool
  | none => true
  | some w =>
    let root := s.domainRoot k
    let path := s.path k
    (path.take (((findPlace (fun r => r = root) path 0).map Prod.fst).getD 0 + 1)).contains w
/-- Whether a writer may use TRCBASE and TRCCMD of region k: the host, or a context of its debugger. -/
def State.mayDebug (s : State) (k : Nat) : Option Nat → Bool
  | none => true
  | some w => (s.region k).dbgrgn = w

/-- A write of the doorbell aperture acts (R426). commands says that notify registers accept commands (R427); writer is the region
of the context that wrote, none for the host. (DEDUCED, notes/assumptions/76.md) -/
def State.doorbell (s : State) (commands : Bool) (writer : Option Nat) (off : Nat) (w : W64) : State :=
  if off < 0x80000 then
    if commands || !w.getLsbD 63 then notify (off / 8) w s else s
  else if off < 0x100000 then
    let k := (off - 0x80000) / 8
    let code := bitsOf w.toNat 33 32
    if s.mayControl k writer && w.toNat / 2 ^ 34 = 0 && code ≠ 0 then faultControl k (w.toNat % 2 ^ 32) code s else s
  else
    let k := (off - 0x100000) / 16
    if !s.mayDebug k writer then s
    else if off % 16 = 0 then trcbaseWrite k w s else trccmd k w s

/-- The oldest write of the aperture by a context acts. (DEDUCED, notes/assumptions/76.md) -/
def ringDoorbell (s : State) : State :=
  match s.doorbells with
  | [] => s
  | d :: rest => { s with doorbells := rest }.doorbell false (some (d.region.getD 0)) d.offset d.value

/-! ## The driver register block (R427 Table 3) -/

/-- Replays of the host port's link (0) and of the root ports' links. -/
def ctrReplay (link : Nat) : Nat := 3764 + link
/-- Whether some queue is not DISABLED (R407). -/
def State.anyQueue (s : State) : Bool :=
  (s.queues.any fun q => !isCont q.1 && s.queueState q.1 ≠ 0) || s.dies.any fun d => !d.2.conts.isEmpty
/-- Whether some route entry is valid (R433). -/
def State.anyRoute (s : State) : Bool := s.routes.any fun r => r.2.1.getLsbD 0
/-- Word j of a Ride table entry replaced; reserved bits read as zero (R8). -/
def setPairWord (m : SMap (W64 × W64)) (i j : Nat) (mask1 w : W64) : SMap (W64 × W64) :=
  let x := mapGet m (0, 0) i
  mapSet m i (if j = 0 then (w &&& 0x000F_FFFF_C000_0001, x.2) else (x.1, w &&& mask1))

/-- A 64-byte value extends a measurement register (R436). -/
def State.extendMr (s : State) (i : Nat) (d : List Byte) : State :=
  { s with mr := s.mr.setIfInBounds i (shake256 64 (s.mr[i]?.getD [] ++ d)) }
/-- A write of 8 bytes of the security mailbox (R436): the write of byte 0x48 with 1 asks for the extend of MR16 to MR31. -/
def mailboxExtend (offset : Nat) (bytes : List Byte) (s : State) : State :=
  if offset % 8 ≠ 0 || 128 ≤ offset || bytes.length ≠ 8 then s
  else
    let m := s.mailbox.take offset ++ bytes ++ s.mailbox.drop (offset + 8)
    let s : State := { s with mailbox := m }
    if offset = 0x48 && bytes.headD 0 = 1 then
      let i := (m.getD 0x40 0).toNat
      if 16 ≤ i && i ≤ 31 then { s with mailbox := setPlace m 0x48 0 }.extendMr i (m.take 64)
      else { s with mailbox := setPlace m 0x48 2 }
    else s
/-- MAILBOX_EXTEND (R436). -/
def execEvMailboxExtend (offset : Nat) (bytes : List (BitVec 8)) (s : State) : Host.Outcome State Fault Refusal :=
  .next (mailboxExtend offset bytes s)

/-- A driver write of a counter: 0 clears it; that of spare clusters is written by the boot alone (R413). -/
def State.clearCounter (s : State) (n : Nat) (w : W64) : State :=
  if w = 0 && n < ctrCount && !(decide (ctrSpare 0 ≤ n) && decide (n < ctrSpare 8)) then { s with counters := mapSet s.counters n 0 }
  else s

/-- A host write of 8 bytes to the driver register block (R427). Unlisted and read-only offsets ignore it.
(DEDUCED, notes/assumptions/75.md) -/
def registerWrite (address : Nat) (value : W64) (s : State) : State :=
  if address % 8 ≠ 0 then s
  else if address = 8 then (if s.anyRoute then s else { s with devid := value.truncate 22 })
  else if 0x100 ≤ address && address ≤ 0x120 then
    if s.anyQueue || value.toNat % 4096 ≠ 0 then s else { s with bases := s.bases.setIfInBounds ((address - 0x100) / 8) value }
  else if address = 0x140 then tblcmd value s
  else if address = 0x300 then { s with govlim := BitVec.ofNat 14 (max 2000 (min 9000 (value.toNat % 2 ^ 14))) }
  else if 0x400 ≤ address && address < 0x800 then
    { s with routes := setPairWord s.routes ((address - 0x400) / 16) (address / 8 % 2) 0x000F_FFFF_FFFF_FFFF value }
  else if 0x800 ≤ address && address < 0x900 then
    { s with inbound := setPairWord s.inbound ((address - 0x800) / 16) (address / 8 % 2) 0x0000_00FF_FFFF_FFFF value }
  else if 0x1000 ≤ address && address < 0x1080 then mailboxExtend (address - 0x1000) (toBytes 8 value.toNat) s
  else if 0x10000 ≤ address && address < 0x100000 then s.clearCounter ((address - 0x10000) / 8) value
  else if 0x400000 ≤ address && address < 0x600000 then s.doorbell true none (address - 0x400000) value
  else s
/-- REGISTER_WRITE (R427). -/
def execEvRegisterWrite (address : Nat) (value : BitVec 64) (s : State) : Host.Outcome State Fault Refusal :=
  .next (registerWrite address value s)

/-- TBLSTAT (R408). -/
def State.tblstat (s : State) : W64 := BitVec.ofNat 64 (s.tblCount * 2 ^ 32 + s.tblError * 2 ^ 24 + s.tblIndex)
/-- What a host read of 8 bytes of the driver register block returns (R427). (DESIGN CHOICE, notes/assumptions/72.md) -/
def State.registerRead (s : State) (address : Nat) : W64 :=
  if address % 8 ≠ 0 then 0
  else if address = 0 then
    BitVec.ofNat 64 (0x4500 + ((Config.fuses 0).headD 0).toNat * 2 ^ 16 + s.bootStatus.toNat * 2 ^ 24)
  else if address = 8 then s.devid.zeroExtend 64
  else if 0x100 ≤ address && address ≤ 0x120 then s.bases[(address - 0x100) / 8]?.getD 0
  else if address = 0x148 then s.tblstat
  else if 0x200 ≤ address && address < 0x228 then s.ready[(address - 0x200) / 8]?.getD 0
  else if address = 0x300 then s.govlim.zeroExtend 64
  else if address = 0x308 then s.govCurrent.zeroExtend 64 + (s.govHeld.zeroExtend 64 <<< 32)
  else if 0x400 ≤ address && address < 0x900 then
    let x := if address < 0x800 then mapGet s.routes (0, 0) ((address - 0x400) / 16) else mapGet s.inbound (0, 0) ((address - 0x800) / 16)
    if address / 8 % 2 = 0 then x.1 else x.2
  else if 0x1000 ≤ address && address < 0x1080 then BitVec.ofNat 64 (fieldAt s.mailbox (address - 0x1000) 8)
  else if 0x2000 ≤ address && address < 0x2800 then
    BitVec.ofNat 64 (fieldAt (s.mr[(address - 0x2000) / 64]?.getD []) (address % 64) 8)
  else if 0x10000 ≤ address && address < 0x100000 then BitVec.ofNat 64 (mapGet s.counters 0 ((address - 0x10000) / 8))
  else if 0x400000 ≤ address && address < 0x600000 then BitVec.ofNat 64 (s.apertureRead (address - 0x400000))
  else 0

/-! ## The current governor (R441) -/

/-- The effective limit: GOVLIM, less 250 A for each degree above 100 °C. The temperature is open (DESIGN CHOICE, notes/assumptions/2.md).
(DESIGN CHOICE, notes/assumptions/86.md) -/
def State.governorLimit (s : State) : Nat := max 2000 (s.govlim.toNat - 250 * s.openNat 0)
/-- Whether this is a cycle in which the governor samples: every 100 ns, 70 cycles of the arithmetic clock. -/
def State.samples (s : State) : Bool := decide (s.clk % 70 = 0)
/-- The core-rail current is sampled: beats are held while it exceeds the limit, until it falls below it.
(DESIGN CHOICE, notes/assumptions/86.md) -/
def State.sampleCurrent (s : State) (current : Nat) : State :=
  { s with
    govCurrent := BitVec.ofNat 14 (min current (2 ^ 14 - 1))
    govHolds := decide (s.governorLimit < current) || (s.govHolds && decide (s.governorLimit = current)) }
/-- Whether a cluster's Canopy works on a command. -/
def State.canopyBusy (s : State) (cluster : Nat) : Bool :=
  s.engine.any fun e => e.2.cluster = cluster && !e.2.copy && e.2.started
/-- A cycle in which the governor holds beats (R441): of the clusters with a command one beat each, or none, as they take turns, which is
open (DESIGN CHOICE, notes/assumptions/86.md); the µs counts once in GOVSTAT. -/
def State.holdBeats (s : State) : State :=
  let busy := (List.range 256).filter s.canopyBusy
  if busy.isEmpty then s
  else
    let micro := s.clk / 700 + 1
    let s : State := if s.govMicro < micro then { s with govMicro := micro, govHeld := s.govHeld + 1 } else s
    busy.foldl (fun s c => if s.openBool (2 ^ 158 + c) then s.clusterEvent c 0x61 1 else s) s
/-- A cycle of the governor: a sample where one is due, whose current is open unless an input brings it, and beats held. -/
def State.governorCycle (s : State) : State :=
  let s := if s.samples then s.sampleCurrent (s.openNat (2 ^ 158)) else s
  if s.govHolds then s.holdBeats else s
/-- GOVERNOR_SAMPLE (R441): what the governor samples in a cycle in which it does; no sample is taken in another.
(DESIGN CHOICE, notes/assumptions/86.md) -/
def governorSample (current : Nat) (s : State) : State := if s.samples then s.sampleCurrent current else s
/-- GOVERNOR_SAMPLE. -/
def execEvGovernorSample (current : Nat) (s : State) : Host.Outcome State Fault Refusal := .next (governorSample current s)

/-! ## READY bits (R439) -/

/-- Whether a READY bit stands for a unit. -/
def readyUnit (word bit : Nat) : Bool := if word = 0 then decide (bit < 57) else decide (word < 5) && decide (bit < 64)
/-- The logical clusters that a die exposes (R12): one for each healthy physical cluster, at most 32. -/
def clustersExposed (healthy : BitVec 34) : Nat := min 32 (popCount 34 healthy.toNat)
/-- The spare clusters of a die that replace one which failed its boot test (R12). -/
def sparesUsed (healthy : BitVec 34) : Nat :=
  min (32 - popCount 32 (healthy.toNat % 2 ^ 32)) (popCount 2 (healthy.toNat / 2 ^ 32))
/-- Whether a READY bit stands for a unit that the package has: a missing logical cluster is none (R12). -/
def State.unitPresent (s : State) (word bit : Nat) : Bool :=
  let c := 64 * (word - 1) + bit
  readyUnit word bit && (word = 0 || decide (c % 32 < clustersExposed (s.healthy[c / 32]?.getD 0)))
/-- READY_SET (R12, R435, R439): the self test of a unit has passed, for the first time since reset. After a failed boot only the
host port comes up. (DEDUCED, notes/assumptions/77.md) -/
def readySet (word bit : Nat) (s : State) : State :=
  let failed := decide (1 ≤ s.bootStatus.toNat) && decide (s.bootStatus.toNat ≤ 3)
  if !s.unitPresent word bit || (s.tested[word]?.getD 0).getLsbD bit || (failed && !(word = 0 && bit = 56)) then s
  else
    let tested := s.tested.setIfInBounds word ((s.tested[word]?.getD 0) ||| (1 : W64) <<< bit)
    let s := { s with tested := tested }.setReady word bit true
    if word = 0 && 26 ≤ bit && bit < 34 then s.portReturns (bit - 26) else s
/-- READY_SET. -/
def execEvReadySet (word bit : Nat) (s : State) : Host.Outcome State Fault Refusal := .next (readySet word bit s)
/-- SECURITY_FAILOVER (R438): the standby security core takes over with the measurements and the IDE keys in use. SPDM sessions and
unfinished key exchanges are lost; a request of the lost connection gets ERROR RequestResynch. -/
def securityFailover (s : State) : State :=
  let s := s.setReady 0 (54 + s.securityDie.toNat) false
  { s with
    securityDie := ~~~s.securityDie, ideKeys := s.ideKeys.filter IdeKey.running
    spdm := { State.reset.spdm with resynch := true } }
/-- SECURITY_FAILOVER. -/
def execEvSecurityFailover (s : State) : Host.Outcome State Fault Refusal := .next (securityFailover s)

/-- The units of word 0 that fail with one: with an I/O die, what it carries (R10, R424, R430, R432). -/
def unitsLost (bit : Nat) : List Nat :=
  if bit = 8 || bit = 9 then
    let d := bit - 8
    [bit] ++ tabulate id 4 (26 + 4 * d) ++ tabulate id 6 (34 + 6 * d) ++ tabulate id 4 (46 + 4 * d) ++ [54 + d] ++ (if d = 0 then [56] else [])
  else [bit]
/-- A unit of word 0 fails: its READY bit clears. The pool regions behind a root port become FAULTED as with a link that is down, an
active security core gives way to the standby, and the contexts of an Understory core end. (DESIGN CHOICE, notes/assumptions/108.md) -/
def State.unitLost (s : State) (bit : Nat) : State :=
  let s := s.setReady 0 bit false
  if 26 ≤ bit && bit < 34 then (s.behind (bit - 26)).foldl State.poolFault s
  else if 46 ≤ bit && bit < 54 then
    [2 * (bit - 46), 2 * (bit - 46) + 1].foldl (fun s j =>
      (s.updCtx (4096 + j) fun _ => Ctx.launch).updCore (coreOf (4096 + j)) fun c => { c with running := none, freeze := none, bundle := none }) s
  else if bit = 54 + s.securityDie.toNat then securityFailover s
  else s
/-- UNIT_FAIL (R439): a unit other than a compute die or a cluster has failed. -/
def unitFail (word bit : Nat) (s : State) : State :=
  if word = 0 && 8 ≤ bit && readyUnit word bit then (unitsLost bit).foldl State.unitLost s else s
/-- UNIT_FAIL. -/
def execEvUnitFail (word bit : Nat) (s : State) : Host.Outcome State Fault Refusal := .next (unitFail word bit s)

/-! ## Clusters and dies lost at run time (R12, R23, R384, R391) -/

/-- A record of a group on a lost cluster or die (R384): DETAIL 0 faulted, 1 re-placed. -/
def State.recordLost (s : State) (g : Nat) (x : Group) (detail : Nat) : State :=
  let cmd := mapGet? s.commands x.command
  (s.publish x.region ((cmd.map Command.lts).getD 0)
    { FaultRecord.blank 6 with
      cause := causeCode .poison, queue := (cmd.map Command.queue).getD 0, seq := (cmd.map Command.seq).getD 0, detail := detail
      engine := engineOf (x.keys.headD 0), ref := g }).2

/-- Whether a context of a lost cluster can be placed anew (R384): it has exited, or is in an open phase that is not exposed whose
mirror is complete, or waits for the input of such a phase. The mirror is complete after 2 µs at most, how much earlier is open. -/
def State.mirrored (s : State) (k : Nat) : Bool :=
  let c := s.ctx k
  if c.phase = .done then true
  else
    match c.phaseRec with
    | some p =>
      !p.exposed && p.bank.isSome && decide (c.cancels < 4) && (expired p.opened 2000 s.clk || s.openBool (2 ^ 20 + k))
    | none => c.block = some .refetch
/-- Whether a group of a lost cluster is placed anew (R384). -/
def State.replaceable (s : State) (g : Nat) (x : Group) : Bool :=
  x.fault.isNone && !x.kept && x.keys.all s.mirrored
    && (s.engine.all fun e => e.2.group ≠ some g || e.2.refetch)
    && (s.heldOps.all fun h => h.cmd.group ≠ some g || h.cmd.refetch)

/-- A context of a lost cluster restored from its mirror (R384): what it had in flight is lost, and its phase is cancelled and
reruns. -/
def State.restoreMirror (s : State) (k : Nat) : State :=
  let s := s.updCtx k fun c => { c with pending := [], rows := [], maintenance := [], drain := .none }
  match (s.ctx k).phaseRec with
  | some p =>
    match p.bank with
    | some b => (s.rollPhase k p b).refetchPhase k p
    | none => s
  | none => s

/-- A group of a lost cluster that will be placed anew: it waits as a pre-empted group whose banks read zero and whose tiles and
latches are clear (R384). -/
def State.replaceGroup (s : State) (g : Nat) (x : Group) (cluster : Nat) : State :=
  let s := x.keys.foldl State.restoreMirror s
  let mine := s.engine.filter fun e => e.2.group = some g
  let s := mine.foldl (fun s e => s.dropEngine e.1) s
  let bank (j : Nat) : SavedBank := { localBank := j, mode := if j < x.decl.b then .scratch else .fifo, haze := none, wrote := 0, bytes := [] }
  let saved : SavedGroup :=
    { cluster := cluster, banks := (List.range (x.decl.b + x.decl.q)).map bank, tiles := []
      commands := mine.map fun e => { e.2.stopped with started := false, resumed := false, position := 0, desc := none } }
  let s := (x.keys.mapIdx fun p k => (p, k)).foldl (fun s y => s.park g y.1 y.2) s
  let s := s.vacate g
  let s := if x.contReserved then s.releaseCont (dieOf cluster) x.region else s
  let s := s.updGroup g fun y => { y with
    cluster := none, banks := [], saved := some saved, preempting := false
    barriers := y.barriers.map fun b => { b with count := 0, arrived := 0, lts := 0 }
    queues := y.queues.map fun _ => NamedQueue.fresh, streams := y.streams.map fun _ => Stream.fresh
    latches := y.latches.map fun _ => RendezvousLatch.clear, records := y.records.map fun _ => LatchRecord.empty }
  let s := s.updCommand x.command fun c => { c with rerun := true }
  (s.recordLost g x 1).count (ctrReplaced (dieOf cluster % 8)) 1

/-- A group of a lost cluster that ends with a contained fault (R376, R384); one that was ending by a fault already keeps its own
record. -/
def State.loseGroup (s : State) (g : Nat) (x : Group) : State :=
  let s := x.keys.foldl State.flush s
  let mine := s.engine.filter fun e => e.2.group = some g
  let s := mine.foldl (fun s e => (s.dropEngine e.1).endCommand e.2) s
  let s := match x.fault with
    | some f => s.recordFault g x f
    | none => s.recordLost g x 0
  s.endGroup g true

/-- What happens to the work of a cluster whose READY bit has cleared (R384). A copy for a COPY packet ends as a cancelled one. -/
def State.loseCluster (s : State) (cluster : Nat) : State :=
  let s := (s.groupsOn cluster).foldl (fun s g =>
    if s.replaceable g.1 g.2 then s.replaceGroup g.1 g.2 cluster else s.loseGroup g.1 g.2) s
  (s.engine.filter fun e => e.2.cluster = cluster).foldl (fun s e => (s.dropEngine e.1).endCommand e.2) s

/-- CLUSTER_FAIL (R12, R384). (DEDUCED, notes/assumptions/80.md) -/
def clusterFail (cluster : Nat) (s : State) : State :=
  if cluster < 256 then (s.setReady (1 + cluster / 64) (cluster % 64) false).loseCluster cluster else s
/-- CLUSTER_FAIL. -/
def execEvClusterFail (cluster : Nat) (s : State) : Host.Outcome State Fault Refusal := .next (clusterFail cluster s)

/-- The unplaced groups of a command given up where no compute die is ready: one record (R23). -/
def State.giveUp (s : State) (command : Nat) : State :=
  match mapGet? s.commands command with
  | none => s
  | some c =>
    (s.publish c.region c.lts
      { FaultRecord.blank 6 with cause := causeCode .poison, queue := c.queue, seq := c.seq }).2.dropRanges command
/-- The ranges of a lost die pass to the first ready die after it in cyclic order (R23). -/
def State.passRanges (s : State) (die : Nat) : State :=
  let ranges := (s.die die).ranges
  let next := ((List.range 7).map fun j => (die + j + 1) % 8).find? s.dieReady
  match next with
  | some d =>
    let s := s.updDie die fun x => { x with ranges := [] }
    s.updDie d fun x => { x with ranges := x.ranges ++ ranges }
  | none => ((ranges.map GroupRange.command).eraseDups).foldl State.giveUp s

/-- The lines that a lost die held modified; which die holds a line is open (R391; DESIGN CHOICE, notes/assumptions/43.md). -/
def State.lostLines (s : State) (die : Nat) : List Nat := s.modified.filter fun l => lineDie l = die
/-- The region that owns a line: through the pool map, or the frame owner table; else the root (R391, R402). -/
def State.regionOfLine (s : State) (line : Nat) : Nat :=
  if tierOf (line * 64) = 2 then
    ((s.pool.find? fun e => e.2.state ≠ .unmapped && e.2.holds (line * 64)).map fun e => e.2.owner).getD 0
  else (s.lineOwner line).getD 0
/-- The modified lines of a lost die are poisoned, and each region that owns one receives a domain event (R375, R391). -/
def State.poisonLost (s : State) (die : Nat) : State :=
  let lines := s.lostLines die
  let owners := (lines.map s.regionOfLine).eraseDups
  let s := lines.foldl (fun s l => (s.dropLine l).poisonLine l) s
  let s := lines.foldl (fun s l => s.noteWrite (l * 64)) s
  owners.foldl (fun s r =>
    s.publishEvent r { FaultRecord.blank 6 with cause := causeCode .poison, loss := true, engine := die }) s

/-- DIE_LOST (R12, R23, R384, R391). (DESIGN CHOICE, notes/assumptions/43.md) (DEDUCED, notes/assumptions/80.md) -/
def dieLost (die : Nat) (s : State) : State :=
  if die < 8 then
    let clusters := tabulate id 32 (32 * die)
    let s := s.setReady 0 die false
    let s := clusters.foldl (fun s c => s.setReady (1 + c / 64) (c % 64) false) s
    let s := s.passRanges die
    let s := clusters.foldl State.loseCluster s
    s.poisonLost die
  else s
/-- DIE_LOST. -/
def execEvDieLost (die : Nat) (s : State) : Host.Outcome State Fault Refusal := .next (dieLost die s)

/-! ## The host port (R424, R428, R429) -/

/-- HOST_LINK_DOWN (R429). -/
def hostLinkDown (s : State) : State := if s.hostUp then { s with hostUp := false }.count (ctrReplay 0) 1 else s
/-- HOST_LINK_DOWN. -/
def execEvHostLinkDown (s : State) : Host.Outcome State Fault Refusal := .next (hostLinkDown s)
/-- HOST_LINK_RETRAIN (R428, R429): whether the link trains with CXL is open. (DESIGN CHOICE, notes/assumptions/79.md) -/
def hostLinkRetrain (s : State) : State := if s.hostUp then s else { s with hostUp := true, cxlCache := s.openBool 0 }
/-- HOST_LINK_RETRAIN. -/
def execEvHostLinkRetrain (s : State) : Host.Outcome State Fault Refusal := .next (hostLinkRetrain s)

/-- Whether n bytes at an address lie in one line. -/
def oneLine (address n : Nat) : Bool := decide (address % 64 + n ≤ 64)
/-- Whether an access that an IDE stream protects, or none, can arrive (R424): a key of the stream's sub-stream, 0 of writes and 1 of
reads, is in use for what is received. -/
def State.ideAccepts (s : State) (ide : Option Nat) (sub : Nat) : Bool :=
  match ide with
  | none => true
  | some n => s.ideKeys.any fun k => k.stream = n && k.sub = sub && !k.sent && k.running
/-- HOST_HDM_ACCESS (R428): the host reads or writes bytes of a line of HBM4 through CXL.mem. Without CXL no such access
arrives. It may disable CXL while the link is up, and enable it anew where the link has trained with it, which is open.
(DESIGN CHOICE, notes/assumptions/79.md) -/
def hostHdmAccess (access : HostAccess) (s : State) : State :=
  if !s.hostLive then s
  else
    match access with
    | .enable on => { s with cxlCache := on && (s.cxlCache || s.openBool 0) }
    | .read address n ide =>
      if !s.cxlCache || !s.ideAccepts ide 1 || !oneLine address n then s
      else
        let r := s.loadAt 0 (tierKey 0 address) n
        let answer := match r.value with
          | some v => Output.hostRead address (toBytes n v)
          | none => Output.hostReadUncorrectable address
        { r.state with outputs := r.state.outputs ++ [answer] }
    | .write address bytes ide =>
      if !s.cxlCache || !s.ideAccepts ide 0 || !oneLine address bytes.length then s else (s.storeAt 0 (tierKey 0 address) bytes).2
/-- HOST_HDM_ACCESS. -/
def execEvHostHdmAccess (access : HostAccess) (s : State) : Host.Outcome State Fault Refusal := .next (hostHdmAccess access s)

/-! ## Ride (R383, R432 to R434) -/

/-- The rails of a port that are up. -/
def State.railsUp (s : State) (port : Nat) : Nat := popCount 5 (s.rails[port]?.getD 0).toNat
/-- A rail of a link lost (R383): the first one is rebuilt, a second one costs replays, and a link that loses more than its check code
and replay can carry, which is open from the third on, goes down. (DESIGN CHOICE, notes/assumptions/79.md) -/
def State.railLost (s : State) (port rail : Nat) : State :=
  let up := s.rails[port]?.getD 0
  if 28 ≤ port || 5 ≤ rail || !up.getLsbD rail then s
  else
    let left := up &&& ~~~((1 : BitVec 5) <<< rail)
    let s : State := { s with rails := s.rails.setIfInBounds port left }
    match 5 - s.railsUp port with
    | 1 => s.count (ctrRails port) 1
    | 2 => s.count (ctrFlits port) 1
    | _ =>
      if left = 0 || s.openBool 0 then { s with rails := s.rails.setIfInBounds port 0 }.count (ctrLinks port) 1
      else s.count (ctrFlits port) 1
/-- RIDE_RAIL_LOST (R383): a failure that the device absorbs is counted and changes nothing else, but that rails of a link stay
lost. -/
def rideRailLost (unit : Nat) (what : AbsorbedFailure) (s : State) : State :=
  match what with
  | .rail rail => s.railLost unit rail
  | .flits n => if unit < 28 then s.count (ctrFlits unit) n else s
  | .replay => if unit < 9 then s.count (ctrReplay unit) 1 else s
  | .corrected => if unit < 1568 then s.count unit 1 else s
/-- RIDE_RAIL_LOST. -/
def execEvRideRailLost (unit : Nat) (what : AbsorbedFailure) (s : State) : Host.Outcome State Fault Refusal :=
  .next (rideRailLost unit what s)
/-- RIDE_PORT_RETURN (R434). -/
def ridePortReturn (port : Nat) (s : State) : State := { s with rails := s.rails.setIfInBounds port 0x1F }
/-- RIDE_PORT_RETURN. -/
def execEvRidePortReturn (port : Nat) (s : State) : Host.Outcome State Fault Refusal := .next (ridePortReturn port s)

/-- The tier-0 address at which a window offset of a source device is served (R434). -/
def State.inboundAddr (s : State) (source o : Nat) : Option Nat :=
  (s.inbound.find? fun e =>
    e.2.1.getLsbD 0 && e.2.2.toNat % 2 ^ 22 = source && decide (o < (bitsOf e.2.2.toNat 39 22 + 1) * 2 ^ 30)).map fun e =>
      bitsOf e.2.1.toNat 51 30 * 2 ^ 30 + o

/-- What a flit from a peer carries acts (R300, R434): a request is served at this device as that of a SYS-scope party, its answer leaves
by the port on which it came, and one that matches no inbound entry is refused and counted; an answer shows what the peer's memory
holds at an offset of its window, or that the peer refuses accesses there. -/
def State.serveRide (s : State) (port source : Nat) (m : RideMessage) : State :=
  let answer (x : ReadResult) (o n : Nat) : State :=
    match x.value with
    | some v => x.state.sendRide port source (.data o (toBytes n v))
    | none => x.state.sendRide port source (.refused o)
  let refused (o : Nat) : State := (s.count (ctrDiscarded 3) 1).sendRide port source (.refused o)
  let window (o : Nat) : Option Nat :=
    (s.routes.find? fun r => r.2.1.getLsbD 0 && bitsOf r.2.2.toNat 21 0 = source && decide (o < (bitsOf r.2.2.toNat 51 34 + 1) * 2 ^ 30)).map
      fun r => tierKey 3 (bitsOf r.2.1.toNat 51 30 * 2 ^ 30 + o)
  match m with
  | .load o n =>
    match s.inboundAddr source o with
    | some a => if oneLine a n then answer (s.loadAt 0 (tierKey 0 a) n) o n else s
    | none => refused o
  | .store o bytes =>
    match s.inboundAddr source o with
    | some a => if oneLine a bytes.length then (s.storeAt 0 (tierKey 0 a) bytes).2 else s
    | none => refused o
  | .atomic op o n value second =>
    match s.inboundAddr source o with
    | some a => if oneLine a n then answer (s.atomicAt 0 (tierKey 0 a) n op.toNat value second) o n else s
    | none => refused o
  | .data o bytes =>
    match window o with
    | some key =>
      if oneLine key bytes.length then
        { s with rideRefused := s.rideRefused.filter (· ≠ lineOf key) }.pokeBytes key bytes |>.noteWrite key
      else s
    | none => s
  | .refused o =>
    match window o with
    | some key => if s.rideRefused.contains (lineOf key) then s else { s with rideRefused := s.rideRefused ++ [lineOf key] }
    | none => s

/-- RIDE_FLIT (R432, R434): a flit whose check code fails is replayed, which is counted, and those behind it on its virtual channel
wait for it; one for another device is dropped and counted. (DESIGN CHOICE, notes/assumptions/109.md) -/
def rideFlit (flit : RideFlit) (s : State) : State :=
  let h := flit.header.toNat
  let place := 16 * flit.port + bitsOf h 47 44
  if 12 ≤ flit.port || !s.rideLive flit.port then s
  else if flit.check ≠ flitCheck flit then s.count (ctrFlits flit.port) 1
  else if bitsOf h 55 48 ≠ (mapGet s.rideSeen 0 place).toNat then s
  else
    let s := { s with rideSeen := mapSet s.rideSeen place (mapGet s.rideSeen 0 place + 1) }
    if bitsOf h 21 0 ≠ s.devid.toNat then s.count (ctrDiscarded 3) 1
    else s.serveRide flit.port (bitsOf h 43 22) flit.message
/-- RIDE_FLIT. -/
def execEvRideFlit (flit : RideFlit) (s : State) : Host.Outcome State Fault Refusal := .next (rideFlit flit s)

/-! ## Package reset and secure boot (R435, R438) -/

/-- The digest of an image. -/
def imageDigest (image : List Byte) : List Byte := shake256 64 image
/-- Whether a copy of an image in the boot flash is accepted (R435): its signature over its digest holds under the key that it
carries, and that key's digest is the fuses' value. -/
def imageAccepted (i : Nat) : Bool :=
  let image := Config.flashStage i
  Config.signatureValid (imageDigest image) image && decide (shake256 64 (Config.imageKey image) = Config.fuses 3)
/-- The copy of a stage that the boot uses: stage 0 the security firmware, 1 the Understory firmware, 2 the die configuration. -/
def bootCopy (stage : Nat) : Option Nat := [2 * stage, 2 * stage + 1].find? imageAccepted

/-- The stages of the boot from one on: each is verified and extends its measurement register; the first that fails leaves its
number in DEVINFO. -/
def State.bootStages (s : State) : Nat → Nat → State
  | 0, _ => { s with bootStatus := 0x80 }
  | n + 1, stage =>
    match bootCopy stage with
    | some i => (s.extendMr (stage + 1) (imageDigest (Config.flashStage i))).bootStages n (stage + 1)
    | none => { s with bootStatus := BitVec.ofNat 8 (stage + 1) }

/-- The memory outside the package: host memory and the pool devices. -/
def outsideKey (key : Nat) : Bool := planeOf key = 3 || tierOf key = 2

/-- PACKAGE_RESET (R435): every unit is at reset and the boot runs; which physical clusters pass its test is open (R12). What the
host, the pool devices and the waiting deeds of other agents hold is not the package's (DESIGN CHOICE, notes/assumptions/6.md).
(DEDUCED, notes/assumptions/77.md) -/
def packageReset (s : State) : State :=
  let healthy : Vector (BitVec 34) 8 := Vector.ofFn fun d => BitVec.ofNat 34 (s.openNat (1 + d.val))
  let r : State :=
    { State.reset with
      free := s.free, inputs := s.inputs, outputs := s.outputs, mem := s.mem.filter fun c => outsideKey c.1
      poisoned := s.poisoned.filter fun l => outsideKey (l * 64), hostUp := s.hostUp, rootUp := s.rootUp
      cxlCache := s.openBool 0
      healthy := healthy
      counters := healthy.toList.mapIdx fun d h => (ctrSpare d, sparesUsed h) }
  (r.extendMr 0 Config.romDigest).bootStages 3 0
/-- PACKAGE_RESET. -/
def execEvPackageReset (s : State) : Host.Outcome State Fault Refusal := .next (packageReset s)

end Sys2Proof.Machine
end

