-- ==== Sys2Proof/Machine/Sha.lean ====
section
/-! DEFINITION. SHA-384 of FIPS 180-4 and what RFC 2104 and RFC 5869 build on it, as the SPDM responder uses them (R437). The constants
are computed as FIPS 180-4 defines them, from the square and cube roots of primes, not listed. -/

namespace Sys2Proof.Machine

/-- The integer part of the cube root of x, digit by digit from 2^(n − 1) down, above r. -/
def natCbrt : Nat → Nat → Nat → Nat
  | 0, _, r => r
  | n + 1, x, r =>
    let t := r + 2 ^ n
    if t * t * t ≤ x then natCbrt n x t else natCbrt n x r
/-- The integer part of the square root of x in the same way. -/
def natRoot : Nat → Nat → Nat → Nat
  | 0, _, r => r
  | n + 1, x, r =>
    let t := r + 2 ^ n
    if t * t ≤ x then natRoot n x t else natRoot n x r

/-- The first 80 primes. -/
def shaPrimes : List Nat := (List.range 410).filter fun p => 2 ≤ p && (List.range 21).all fun d => d < 2 || p ≤ d || p % d ≠ 0
/-- The constants of the 80 rounds: 64 bits of the fractions of the cube roots of the first 80 primes. -/
def shaConstants : List W64 := shaPrimes.map fun p => BitVec.ofNat 64 (natCbrt 67 (p * 2 ^ 192) 0)
/-- The initial hash value: 64 bits of the fractions of the square roots of the ninth to sixteenth primes. -/
def shaInitial : List W64 := ((shaPrimes.drop 8).take 8).map fun p => BitVec.ofNat 64 (natRoot 67 (p * 2 ^ 128) 0)

/-- The three-fold mix of a word: two rotations to the right, and a third one or a shift. -/
def shaMix (a b c : Nat) (turn : Bool) (x : W64) : W64 :=
  x.rotateRight a ^^^ x.rotateRight b ^^^ (if turn then x.rotateRight c else x >>> c)
/-- The rounds of one block: what is left of the constants, the next 16 words of the schedule, and the eight working words. -/
def shaRounds : List W64 → List W64 → List W64 → List W64
  | k :: ks, w, v =>
    let x (i : Nat) : W64 := w.getD i 0
    let y (i : Nat) : W64 := v.getD i 0
    let next := x 0 + shaMix 1 8 7 false (x 1) + x 9 + shaMix 19 61 6 false (x 14)
    let choose := (y 4 &&& y 5) ^^^ (~~~(y 4) &&& y 6)
    let major := (y 0 &&& y 1) ^^^ (y 0 &&& y 2) ^^^ (y 1 &&& y 2)
    let t := y 7 + shaMix 14 18 41 true (y 4) + choose + k + x 0
    shaRounds ks (w.drop 1 ++ [next]) ([t + shaMix 28 34 39 true (y 0) + major, y 0, y 1, y 2, y 3 + t, y 4, y 5, y 6])
  | [], _, v => v

/-- A word's bytes, and the word of bytes, most significant byte first. -/
def bytesBE (n x : Nat) : List Byte := (toBytes n x).reverse
/-- n blocks of 128 bytes taken in. -/
def shaBlocks : Nat → List Byte → List W64 → List W64
  | 0, _, h => h
  | n + 1, bs, h =>
    let words := (List.range 16).map fun i => BitVec.ofNat 64 (ofBytes ((bs.drop (8 * i)).take 8).reverse)
    shaBlocks n (bs.drop 128) (List.zipWith (· + ·) h (shaRounds shaConstants words h))
/-- SHA-384. -/
def sha384 (msg : List Byte) : List Byte :=
  let n := (msg.length + 16) / 128 + 1
  let filled := msg ++ [0x80] ++ List.replicate (128 * n - msg.length - 17) 0 ++ bytesBE 16 (8 * msg.length)
  ((shaBlocks n filled shaInitial).flatMap fun w => bytesBE 8 w.toNat).take 48

/-- HMAC of SHA-384, for a key of at most 128 bytes. -/
def hmac384 (key msg : List Byte) : List Byte :=
  let pad (x : Byte) : List Byte := (key ++ List.replicate 128 0).take 128 |>.map (· ^^^ x)
  sha384 (pad 0x5C ++ sha384 (pad 0x36 ++ msg))
/-- The first n bytes, at most 48, that HKDF expands from a secret. -/
def hkdf384 (secret info : List Byte) (n : Nat) : List Byte := (hmac384 secret (info ++ [1])).take n

end Sys2Proof.Machine
end

