-- ==== Sys2Proof/Machine/Spdm.lean ====
section
/-! DEFINITION. The SPDM responder of the active security core (R437, R438) and the setting of IDE keys (R424). The codes and the layout
of messages, the transcripts and the key schedule are those of SPDM 1.3 (DSP0274), of its secured messages (DSP0277) and of IDE_KM
(PCIe 6.x), which the spec names and does not repeat (PRESUMED, notes/assumptions/78.md). -/

namespace Sys2Proof.Machine

/-! ## Messages and their protection -/

/-- The bytes of a text. -/
def ascii (x : String) : List Byte := x.toList.map fun c => BitVec.ofNat 8 c.toNat
/-- A message from its header on; GET_VERSION and VERSION carry version 1.0. -/
def spdmMessage (code p1 p2 : Byte) (body : List Byte) : List Byte :=
  [if code = 0x84 || code = 0x04 then 0x10 else 0x13, code, p1, p2] ++ body
/-- A secret expanded under a label of SPDM 1.3. -/
def spdmExpand (secret : List Byte) (label : String) (context : List Byte) (n : Nat) : List Byte :=
  hkdf384 secret (toBytes 2 n ++ ascii "spdm1.3 " ++ ascii label ++ context) n
/-- A message of a session as its direction's secret protects it, the n-th one. -/
def spdmGuard (id : Nat) (secret : List Byte) (n : Nat) (msg : List Byte) : List Byte :=
  let plain := toBytes 2 msg.length ++ msg
  let nonce := List.zipWith (· ^^^ ·) (spdmExpand secret "iv" [] 12) (toBytes 12 n)
  Config.encrypt (spdmExpand secret "key" [] 32) nonce (toBytes 4 id ++ toBytes 2 (plain.length + 16)) plain
/-- A signature over a transcript, for a purpose. -/
def spdmSign (purpose : String) (transcript : List Byte) : List Byte :=
  let four := (List.replicate 4 (ascii "dmtf-spdm-v1.3.*")).flatten
  Config.sign (four ++ List.replicate (36 - purpose.length) 0 ++ ascii purpose ++ sha384 transcript)

/-- An open session. -/
def SpdmState.session (x : SpdmState) (id : Nat) : Option SpdmSession := if id = 0 then none else x.sessions.find? fun y => y.id = id
/-- A session replaced. -/
def SpdmState.setSession (x : SpdmState) (y : SpdmSession) : SpdmState :=
  { x with sessions := x.sessions.map fun z => if z.id = y.id then y else z }
/-- A response leaves the device, protected in a session. -/
def State.respond (s : State) (id : Nat) (code p1 p2 : Byte) (body : List Byte) : State :=
  match s.spdm.session id with
  | none => { s with outputs := s.outputs ++ [.spdm code p1 p2 body] }
  | some x =>
    { s with
      outputs := s.outputs ++ [.spdmGuarded id (spdmGuard id x.responseSecret x.responses (spdmMessage code p1 p2 body))]
      spdm := s.spdm.setSession { x with responses := x.responses + 1 } }
/-- An ERROR response: 0x01 InvalidRequest, 0x02 InvalidSession, 0x04 UnexpectedRequest, 0x06 DecryptError, 0x07 UnsupportedRequest,
0x43 RequestResynch. -/
def State.spdmError (s : State) (id : Nat) (code : Byte) : State := s.respond id 0x7F code 0 []
/-- Whether a security core answers: the active one has not failed (R438, R439). -/
def State.responds (s : State) : Bool :=
  let bit := 54 + s.securityDie.toNat
  !(s.tested[0]?.getD 0).getLsbD bit || s.readyBit 0 bit

/-- A request received, of a code, where the connection and the session allow it: outside of any session, or under the keys of one. The
transcripts of certificates and of measurements go on with their own requests alone. -/
def State.receive (s : State) (req : SpdmRequest) (code : Byte) (ok : SpdmState → Option SpdmSession → Bool)
    (answer : State → State) : State :=
  if !s.responds then s else
  let x := s.spdm
  let x := if code = 0x81 || code = 0x82 || code = 0x83 then x else { x with certified := [] }
  let x := if code = 0xE0 then x else { x with measured := mapSet x.measured req.session [] }
  let s : State := if s.spdm = x then s else { s with spdm := x }
  let go (s : State) (session : Option SpdmSession) : State := if ok s.spdm session then answer s else s.spdmError req.session 0x04
  if s.spdm.resynch && code ≠ 0x84 then s.spdmError req.session 0x43
  else if req.session = 0 then go s none
  else
    match s.spdm.session req.session with
    | none => s.spdmError 0 0x02
    | some y =>
      if req.guarded ≠ spdmGuard y.id y.requestSecret y.requests (spdmMessage code req.param1 req.param2 req.body) then s.spdmError 0 0x06
      else go { s with spdm := s.spdm.setSession { y with requests := y.requests + 1 } } (some y)
/-- Whether a request may come outside of sessions. -/
def outsideSession (x : Option SpdmSession) : Bool := x.isNone
/-- Whether a request may come outside of sessions or in a completed one. -/
def anySession (x : Option SpdmSession) : Bool := match x with | none => true | some y => y.finished
/-- Whether a request may come in a completed session. -/
def inSession (x : Option SpdmSession) : Bool := match x with | none => false | some y => y.finished
/-- 8 n random bytes, which are open. -/
def State.randomBytes (s : State) (n : Nat) : List Byte := (List.range n).flatMap fun i => toBytes 8 (s.openWord (2 ^ 159 + i)).toNat

/-! ## The connection -/

/-- GET_VERSION: the connection starts anew, without sessions; version 1.3. -/
def getVersion (req : SpdmRequest) (s : State) : State :=
  s.receive req 0x84 (fun _ y => outsideSession y) fun s =>
    let body : List Byte := [0, 1, 0, 0x13]
    let vca := spdmMessage 0x84 req.param1 req.param2 req.body ++ spdmMessage 0x04 0 0 body
    let s : State := { s with spdm := { State.reset.spdm with version := true, negotiated := vca } }
    s.respond 0 0x04 0 0 body
/-- GET_VERSION. -/
def execEvGetVersion (req : SpdmRequest) (s : State) : Host.Outcome State Fault Refusal := .next (getVersion req s)

/-- The capability flags of R437: CERT, CHAL, MEAS with signature, ENCRYPT, MAC, KEY_EX. -/
def spdmFlags : Nat := 2 ^ 1 + 2 ^ 2 + 2 * 2 ^ 3 + 2 ^ 6 + 2 ^ 7 + 2 ^ 9
/-- The body of CAPABILITIES: the crypto time exponent, the flags, and the sizes of the responder's buffers. -/
def capabilitiesBody : List Byte :=
  [0, BitVec.ofNat 8 (Config.spdmNumber 0), 0, 0] ++ toBytes 4 spdmFlags ++ toBytes 4 (Config.spdmNumber 1) ++ toBytes 4 (Config.spdmNumber 2)
/-- GET_CAPABILITIES. -/
def getCapabilities (req : SpdmRequest) (s : State) : State :=
  s.receive req 0xE1 (fun x y => outsideSession y && x.version && !x.capabilities) fun s =>
    if req.body.length ≠ 16 then s.spdmError 0 0x01
    else
      let vca := s.spdm.negotiated ++ spdmMessage 0xE1 req.param1 req.param2 req.body ++ spdmMessage 0x61 0 0 capabilitiesBody
      let s : State := { s with spdm := { s.spdm with capabilities := true, negotiated := vca } }
      s.respond 0 0x61 0 0 capabilitiesBody
/-- GET_CAPABILITIES. -/
def execEvGetCapabilities (req : SpdmRequest) (s : State) : Host.Outcome State Fault Refusal := .next (getCapabilities req s)

/-- What the responder supports of a structure of algorithms, by its type (R437): secp384r1, AES-256-GCM, no signature of the requester,
the key schedule of SPDM. -/
def algorithmsOf (type : Nat) : Nat := match type with | 2 => 0x10 | 3 => 0x2 | 5 => 0x1 | _ => 0
/-- The body of ALGORITHMS for a request with n structures: of each field, what the requester offers and the responder supports: ECDSA over
P-384, SHA-384, raw measurements of the DMTF specification. -/
def algorithmsBody (n : Nat) (body : List Byte) : List Byte :=
  let offered (at_ : Nat) (mask : Nat) : Nat := fieldAt body at_ 4 &&& mask
  let first := 28 + 4 * (fieldAt body 24 1 + fieldAt body 25 1)
  let structures := (List.range n).flatMap fun i =>
    let p := first + 4 * i
    toBytes 1 (fieldAt body p 1) ++ [0x20] ++ toBytes 2 (fieldAt body (p + 2) 2 &&& algorithmsOf (fieldAt body p 1))
  toBytes 2 (36 + 4 * n) ++ toBytes 1 (fieldAt body 2 1 &&& 1) ++ toBytes 1 (fieldAt body 3 1 &&& 2) ++ toBytes 4 1
    ++ toBytes 4 (offered 4 0x80) ++ toBytes 4 (offered 8 0x2) ++ List.replicate 16 0 ++ structures
/-- NEGOTIATE_ALGORITHMS. -/
def negotiateAlgorithms (req : SpdmRequest) (s : State) : State :=
  s.receive req 0xE3 (fun x y => outsideSession y && x.capabilities && !x.algorithms) fun s =>
    if req.body.length < 28 || fieldAt req.body 0 2 ≠ req.body.length + 4 then s.spdmError 0 0x01
    else
      let body := algorithmsBody req.param1.toNat req.body
      let vca := s.spdm.negotiated ++ spdmMessage 0xE3 req.param1 req.param2 req.body ++ spdmMessage 0x63 req.param1 0 body
      let s : State := { s with spdm := { s.spdm with algorithms := true, negotiated := vca } }
      s.respond 0 0x63 req.param1 0 body
/-- NEGOTIATE_ALGORITHMS. -/
def execEvNegotiateAlgorithms (req : SpdmRequest) (s : State) : Host.Outcome State Fault Refusal :=
  .next (negotiateAlgorithms req s)

/-! ## Certificates and measurements -/

/-- The certificate chain of slot 0: its length, the digest of the root certificate, and the certificates. -/
def certificateChain : List Byte :=
  let certificates := Config.fuses 5
  toBytes 2 (52 + certificates.length) ++ [0, 0] ++ sha384 (Config.fuses 4) ++ certificates
/-- A message and its answer join the transcript of certificates. -/
def State.certify (s : State) (req : SpdmRequest) (code : Byte) (answer : List Byte) : State :=
  if req.session = 0 then
    { s with spdm := { s.spdm with certified := s.spdm.certified ++ spdmMessage code req.param1 req.param2 req.body ++ answer } }
  else s
/-- GET_DIGESTS: the digest of the one certificate chain, in slot 0. -/
def getDigests (req : SpdmRequest) (s : State) : State :=
  s.receive req 0x81 (fun x y => anySession y && x.algorithms) fun s =>
    let body := sha384 certificateChain
    (s.certify req 0x81 (spdmMessage 0x01 1 1 body)).respond req.session 0x01 1 1 body
/-- GET_DIGESTS. -/
def execEvGetDigests (req : SpdmRequest) (s : State) : Host.Outcome State Fault Refusal := .next (getDigests req s)

/-- GET_CERTIFICATE: a part of the chain in slot 0, by offset and length, or its size alone. -/
def getCertificate (req : SpdmRequest) (s : State) : State :=
  s.receive req 0x82 (fun x y => anySession y && x.algorithms) fun s =>
    let off := fieldAt req.body 0 2
    let size := certificateChain.length
    if req.param1.toNat % 16 ≠ 0 || req.body.length ≠ 4 || size ≤ off then s.spdmError req.session 0x01
    else
      let part := if req.param2.getLsbD 0 then [] else (certificateChain.drop off).take (fieldAt req.body 2 2)
      let rest := if req.param2.getLsbD 0 then size else size - off - part.length
      let body := toBytes 2 part.length ++ toBytes 2 rest ++ part
      (s.certify req 0x82 (spdmMessage 0x02 0 0 body)).respond req.session 0x02 0 0 body
/-- GET_CERTIFICATE. -/
def execEvGetCertificate (req : SpdmRequest) (s : State) : Host.Outcome State Fault Refusal := .next (getCertificate req s)

/-- The block of measurement index j: MR(j − 1) as a raw bit stream of 64 bytes (R437). -/
def State.measurement (s : State) (j : Nat) : List Byte :=
  toBytes 1 j ++ [1] ++ toBytes 2 67 ++ [0x80] ++ toBytes 2 64 ++ s.mr[j - 1]?.getD []
/-- The blocks of all measurements. -/
def State.measurements (s : State) : List Byte := (List.range 32).flatMap fun i => s.measurement (i + 1)
/-- The digest over measurements that a request asks for: none, or over all. -/
def State.summary (s : State) (kind : Byte) : List Byte := if kind = 0 then [] else sha384 s.measurements

/-- CHALLENGE of slot 0: the answer is signed over the negotiation, the certificates and itself. -/
def challenge (req : SpdmRequest) (s : State) : State :=
  s.receive req 0x83 (fun x y => outsideSession y && x.algorithms) fun s =>
    if req.param1 ≠ 0 || req.body.length ≠ 40 || !(req.param2 = 0 || req.param2 = 1 || req.param2 = 0xFF) then s.spdmError 0 0x01
    else
      let body := sha384 certificateChain ++ s.randomBytes 4 ++ s.summary req.param2 ++ [0, 0] ++ req.body.drop 32
      let m := s.spdm.negotiated ++ s.spdm.certified ++ spdmMessage 0x83 req.param1 req.param2 req.body ++ spdmMessage 0x03 0 1 body
      let s : State := { s with spdm := { s.spdm with certified := [] } }
      s.respond 0 0x03 0 1 (body ++ spdmSign "responder-challenge_auth signing" m)
/-- CHALLENGE. -/
def execEvChallenge (req : SpdmRequest) (s : State) : Host.Outcome State Fault Refusal := .next (challenge req s)

/-- GET_MEASUREMENTS: the number of measurements, one of them, or all; signed where the request asks for it, over the negotiation and
the exchanges of measurements since the last signature. -/
def getMeasurements (req : SpdmRequest) (s : State) : State :=
  s.receive req 0xE0 (fun x y => anySession y && x.algorithms) fun s =>
    let j := req.param2.toNat
    let signed := req.param1.getLsbD 0
    if (32 < j && j ≠ 255) || req.body.length ≠ (if signed then 41 else 8) || (signed && bitsOf (fieldAt req.body 32 1) 3 0 ≠ 0) then
      s.spdmError req.session 0x01
    else
      let blocks := if j = 0 then [] else if j = 255 then s.measurements else s.measurement j
      let count := if j = 0 then 0 else if j = 255 then 32 else 1
      let body := toBytes 1 count ++ toBytes 3 blocks.length ++ blocks ++ s.randomBytes 4 ++ [0, 0]
        ++ req.body.drop (req.body.length - 8)
      let p1 : Byte := if j = 0 then 32 else 0
      let log := mapGet s.spdm.measured [] req.session ++ spdmMessage 0xE0 req.param1 req.param2 req.body ++ spdmMessage 0x60 p1 0 body
      let s : State := { s with spdm := { s.spdm with measured := mapSet s.spdm.measured req.session (if signed then [] else log) } }
      let signature := if signed then spdmSign "responder-measurements signing" (s.spdm.negotiated ++ log) else []
      s.respond req.session 0x60 p1 0 (body ++ signature)
/-- GET_MEASUREMENTS. -/
def execEvGetMeasurements (req : SpdmRequest) (s : State) : Host.Outcome State Fault Refusal := .next (getMeasurements req s)

/-! ## Sessions -/

/-- The secrets of the two directions of a phase, of a secret and the transcript that ends the phase before it. -/
def SpdmSession.enter (x : SpdmSession) (secret : List Byte) (requests responses : String) : SpdmSession :=
  let th := sha384 x.transcript
  { x with
    secret := secret, requestSecret := spdmExpand secret requests th 48, responseSecret := spdmExpand secret responses th 48
    requests := 0, responses := 0 }
/-- What a direction proves with FINISH and its answer: the transcript so far, under the direction's secret. -/
def spdmVerify (secret transcript : List Byte) : List Byte := hmac384 (spdmExpand secret "finished" [] 48) (sha384 transcript)

/-- KEY_EXCHANGE: a session opens under a number that the responder helps to choose. That number, the responder's random bytes and its
key are open. The opaque data names version 1.1 of secured messages. -/
def keyExchange (req : SpdmRequest) (s : State) : State :=
  s.receive req 0xE4 (fun x y => outsideSession y && x.algorithms) fun s =>
    if req.param2 ≠ 0 || req.body.length < 134 || !(req.param1 = 0 || req.param1 = 1 || req.param1 = 0xFF) then s.spdmError 0 0x01
    else
      let half := 1 + s.openNat (2 ^ 159) % (2 ^ 16 - 1)
      let opaqueData : List Byte := [1, 0, 0, 0, 0, 0, 4, 0, 1, 0, 0, 0x11]
      let body := toBytes 2 half ++ [0, 0] ++ s.randomBytes 4 ++ (Config.exchange s.free ++ List.replicate 96 0).take 96
        ++ s.summary req.param1 ++ toBytes 2 opaqueData.length ++ opaqueData
      let th := s.spdm.negotiated ++ sha384 certificateChain ++ spdmMessage 0xE4 req.param1 req.param2 req.body ++ spdmMessage 0x64 0 0 body
      let signature := spdmSign "responder-key_exchange_rsp signing" th
      let th := th ++ signature
      let secret := hmac384 (List.replicate 48 0) (Config.agreed s.free ((req.body.drop 36).take 96))
      let id := fieldAt req.body 0 2 + half * 2 ^ 16
      let x : SpdmSession :=
        { id := id, finished := false, transcript := th, secret := [], requestSecret := [], responseSecret := [], requests := 0, responses := 0 }
      let verify := spdmVerify (spdmExpand secret "rsp hs data" (sha384 th) 48) th
      let x := { x with transcript := th ++ verify }.enter secret "req hs data" "rsp hs data"
      let s := s.respond 0 0x64 0 0 (body ++ signature ++ verify)
      { s with spdm := { s.spdm with sessions := s.spdm.sessions.filter (fun y => y.id ≠ id) ++ [x] } }
/-- KEY_EXCHANGE. -/
def execEvKeyExchange (req : SpdmRequest) (s : State) : Host.Outcome State Fault Refusal := .next (keyExchange req s)

/-- A session ends. -/
def State.dropSession (s : State) (id : Nat) : State :=
  { s with spdm := { s.spdm with sessions := s.spdm.sessions.filter fun y => y.id ≠ id } }
/-- FINISH completes a session where the requester proves the handshake; else the session ends with ERROR DecryptError. -/
def finish (req : SpdmRequest) (s : State) : State :=
  s.receive req 0xE5 (fun _ y => match y with | some y => !y.finished | none => false) fun s =>
    match s.spdm.session req.session with
    | none => s
    | some x =>
      let header := spdmMessage 0xE5 req.param1 req.param2 []
      if req.body ≠ spdmVerify x.requestSecret (x.transcript ++ header) then (s.spdmError req.session 0x06).dropSession req.session
      else
        let s := s.respond req.session 0x65 0 0 []
        let th := x.transcript ++ header ++ req.body ++ spdmMessage 0x65 0 0 []
        let master := hmac384 (spdmExpand x.secret "derived" [] 48) (List.replicate 48 0)
        let y := { x with finished := true, transcript := th }.enter master "req app data" "rsp app data"
        { s with spdm := s.spdm.setSession y }
/-- FINISH. -/
def execEvFinish (req : SpdmRequest) (s : State) : Host.Outcome State Fault Refusal := .next (finish req s)

/-- END_SESSION. -/
def endSession (req : SpdmRequest) (s : State) : State :=
  s.receive req 0xEC (fun _ y => inSession y) fun s => (s.respond req.session 0x6C 0 0 []).dropSession req.session
/-- END_SESSION. -/
def execEvEndSession (req : SpdmRequest) (s : State) : Host.Outcome State Fault Refusal := .next (endSession req s)

/-! ## IDE key management (R424) -/

/-- The header of a vendor-defined message of PCI-SIG with a payload, after the four bytes of every message. -/
def vendorBody (payload : List Byte) : List Byte := toBytes 2 3 ++ [2] ++ toBytes 2 1 ++ toBytes 2 payload.length ++ payload
/-- Whether an IDE_KM message names the key. -/
def IdeKey.named (k : IdeKey) (p : List Byte) : Bool :=
  let c := fieldAt p 6 1
  k.stream = fieldAt p 4 1 && k.set = c % 2 && k.sent = c.testBit 1 && k.sub = c / 16
/-- The status of a KEY_PROG: 0; 1 a wrong length, 2 a port, 3 a value that is not supported: a sub-stream above 2, or a stream beyond one
link stream and four selective ones. -/
def State.keyStatus (s : State) (p : List Byte) : Nat :=
  let streams := (s.ideKeys.map IdeKey.stream).eraseDups
  if p.length ≠ 48 then 1
  else if fieldAt p 7 1 ≠ 0 then 2
  else if 2 < fieldAt p 6 1 / 16 || (!streams.contains (fieldAt p 4 1) && 5 ≤ streams.length) then 3
  else 0
/-- What an IDE_KM payload does, and its answer: QUERY tells the port's registers, KEY_PROG holds a key, K_SET_GO puts a key into use, and
K_SET_STOP ends its use. -/
def State.ideMessage (s : State) (p : List Byte) : Option (State × List Byte) :=
  let reply (object : Byte) (status : Nat) : List Byte := [0, object, 0, 0] ++ ((p.drop 4).take 1) ++ toBytes 1 status ++ ((p.drop 6).take 2)
  match fieldAt p 0 1, fieldAt p 1 1 with
  | 0, 0 => some (s, [0, 1, 0] ++ ((p.drop 3).take 1) ++ [0, 0, 0, 0] ++ Config.fuses 6)
  | 0, 2 =>
    let status := s.keyStatus p
    let c := fieldAt p 6 1
    let k : IdeKey := { stream := fieldAt p 4 1, set := c % 2, sent := c.testBit 1, sub := c / 16, key := p.drop 8, running := false }
    let keys := if status = 0 then s.ideKeys.filter (fun x => !x.named p) ++ [k] else s.ideKeys
    some ({ s with ideKeys := keys }, reply 3 status)
  | 0, 4 => some ({ s with ideKeys := s.ideKeys.map fun x => if x.named p then { x with running := true } else x }, reply 6 0)
  | 0, 5 => some ({ s with ideKeys := s.ideKeys.filter fun x => !x.named p }, reply 6 0)
  | _, _ => none
/-- IDE_KM (R424): a message of the IDE key management protocol in a completed session. -/
def ideKm (req : SpdmRequest) (s : State) : State :=
  s.receive req 0xFE (fun _ y => inSession y) fun s =>
    if req.body.take 5 ≠ [3, 0, 2, 1, 0] then s.spdmError req.session 0x07
    else
      match s.ideMessage (req.body.drop 7) with
      | some (t, answer) => t.respond req.session 0x7E 0 0 (vendorBody answer)
      | none => s.spdmError req.session 0x01
/-- IDE_KM. -/
def execEvIdeKm (req : SpdmRequest) (s : State) : Host.Outcome State Fault Refusal := .next (ideKm req s)

/-- Any other request: ERROR UnsupportedRequest (R437). -/
def unsupportedRequest (req : SpdmRequest) (s : State) : State := if s.responds then s.spdmError req.session 0x07 else s
/-- Any other request. -/
def execEvUnsupportedRequest (req : SpdmRequest) (s : State) : Host.Outcome State Fault Refusal := .next (unsupportedRequest req s)

end Sys2Proof.Machine
end

