-- ==== Sys2Proof/Machine/Dispatch.lean ====
section
/-! DEFINITION. The meaning of every instruction: one arm per constructor of Instr. -/

namespace Sys2Proof.Machine

/-- An instruction executed in a state. -/
def exec (i : Instr) (s : State) : Host.Outcome State Fault Refusal :=
  match i with
  | .add u f => Sys2Proof.Machine.execAdd u f s
  | .sub u f => Sys2Proof.Machine.execSub u f s
  | .addw u f => Sys2Proof.Machine.execAddw u f s
  | .subw u f => Sys2Proof.Machine.execSubw u f s
  | .and u f => Sys2Proof.Machine.execAnd u f s
  | .or u f => Sys2Proof.Machine.execOr u f s
  | .xor u f => Sys2Proof.Machine.execXor u f s
  | .andn u f => Sys2Proof.Machine.execAndn u f s
  | .orn u f => Sys2Proof.Machine.execOrn u f s
  | .xnor u f => Sys2Proof.Machine.execXnor u f s
  | .shl u f => Sys2Proof.Machine.execShl u f s
  | .shr u f => Sys2Proof.Machine.execShr u f s
  | .sar u f => Sys2Proof.Machine.execSar u f s
  | .rotl u f => Sys2Proof.Machine.execRotl u f s
  | .rotr u f => Sys2Proof.Machine.execRotr u f s
  | .mul u f => Sys2Proof.Machine.execMul u f s
  | .mulh u f => Sys2Proof.Machine.execMulh u f s
  | .mulhu u f => Sys2Proof.Machine.execMulhu u f s
  | .mulw u f => Sys2Proof.Machine.execMulw u f s
  | .div u f => Sys2Proof.Machine.execDiv u f s
  | .divu u f => Sys2Proof.Machine.execDivu u f s
  | .rem u f => Sys2Proof.Machine.execRem u f s
  | .remu u f => Sys2Proof.Machine.execRemu u f s
  | .divw u f => Sys2Proof.Machine.execDivw u f s
  | .remw u f => Sys2Proof.Machine.execRemw u f s
  | .min u f => Sys2Proof.Machine.execMin u f s
  | .max u f => Sys2Proof.Machine.execMax u f s
  | .minu u f => Sys2Proof.Machine.execMinu u f s
  | .maxu u f => Sys2Proof.Machine.execMaxu u f s
  | .clz u f => Sys2Proof.Machine.execClz u f s
  | .ctz u f => Sys2Proof.Machine.execCtz u f s
  | .popc u f => Sys2Proof.Machine.execPopc u f s
  | .bswap u f => Sys2Proof.Machine.execBswap u f s
  | .sext u f => Sys2Proof.Machine.execSext u f s
  | .zext u f => Sys2Proof.Machine.execZext u f s
  | .mov u f => Sys2Proof.Machine.execMov u f s
  | .pack u f => Sys2Proof.Machine.execPack u f s
  | .sel u f => Sys2Proof.Machine.execSel u f s
  | .cmp u f => Sys2Proof.Machine.execCmp u f s
  | .lea u f => Sys2Proof.Machine.execLea u f s
  | .flset u f => Sys2Proof.Machine.execFlset u f s
  | .flget u f => Sys2Proof.Machine.execFlget u f s
  | .ident u f => Sys2Proof.Machine.execIdent u f s
  | .vget u f => Sys2Proof.Machine.execVget u f s
  | .kget u f => Sys2Proof.Machine.execKget u f s
  | .kset u f => Sys2Proof.Machine.execKset u f s
  | .vadd u f => Sys2Proof.Machine.execVadd u f s
  | .vsub u f => Sys2Proof.Machine.execVsub u f s
  | .vmul u f => Sys2Proof.Machine.execVmul u f s
  | .vmulh u f => Sys2Proof.Machine.execVmulh u f s
  | .vfma u f => Sys2Proof.Machine.execVfma u f s
  | .vfms u f => Sys2Proof.Machine.execVfms u f s
  | .vfnma u f => Sys2Proof.Machine.execVfnma u f s
  | .vdiv u f => Sys2Proof.Machine.execVdiv u f s
  | .vrem u f => Sys2Proof.Machine.execVrem u f s
  | .vmin u f => Sys2Proof.Machine.execVmin u f s
  | .vmax u f => Sys2Proof.Machine.execVmax u f s
  | .vabs u f => Sys2Proof.Machine.execVabs u f s
  | .vneg u f => Sys2Proof.Machine.execVneg u f s
  | .vsadd u f => Sys2Proof.Machine.execVsadd u f s
  | .vssub u f => Sys2Proof.Machine.execVssub u f s
  | .vand u f => Sys2Proof.Machine.execVand u f s
  | .vor u f => Sys2Proof.Machine.execVor u f s
  | .vxor u f => Sys2Proof.Machine.execVxor u f s
  | .vandn u f => Sys2Proof.Machine.execVandn u f s
  | .vnot u f => Sys2Proof.Machine.execVnot u f s
  | .vshl u f => Sys2Proof.Machine.execVshl u f s
  | .vshr u f => Sys2Proof.Machine.execVshr u f s
  | .vsar u f => Sys2Proof.Machine.execVsar u f s
  | .vcmp u f => Sys2Proof.Machine.execVcmp u f s
  | .vsel u f => Sys2Proof.Machine.execVsel u f s
  | .vcvt u f => Sys2Proof.Machine.execVcvt u f s
  | .vpack u f => Sys2Proof.Machine.execVpack u f s
  | .vunpk u f => Sys2Proof.Machine.execVunpk u f s
  | .vdot4 u f => Sys2Proof.Machine.execVdot4 u f s
  | .vdot2 u f => Sys2Proof.Machine.execVdot2 u f s
  | .vclz u f => Sys2Proof.Machine.execVclz u f s
  | .vpopc u f => Sys2Proof.Machine.execVpopc u f s
  | .vrotr u f => Sys2Proof.Machine.execVrotr u f s
  | .vbcr u f => Sys2Proof.Machine.execVbcr u f s
  | .vredr u f => Sys2Proof.Machine.execVredr u f s
  | .vscanr u f => Sys2Proof.Machine.execVscanr u f s
  | .vshuf u f => Sys2Proof.Machine.execVshuf u f s
  | .vvote u f => Sys2Proof.Machine.execVvote u f s
  | .vrotc u f => Sys2Proof.Machine.execVrotc u f s
  | .vbcc u f => Sys2Proof.Machine.execVbcc u f s
  | .vredc u f => Sys2Proof.Machine.execVredc u f s
  | .vscanc u f => Sys2Proof.Machine.execVscanc u f s
  | .vmov u f => Sys2Proof.Machine.execVmov u f s
  | .vput u f => Sys2Proof.Machine.execVput u f s
  | .viota u f => Sys2Proof.Machine.execViota u f s
  | .vkmov u f => Sys2Proof.Machine.execVkmov u f s
  | .rcp f => Sys2Proof.Machine.execRcp f s
  | .rsq f => Sys2Proof.Machine.execRsq f s
  | .sqrt f => Sys2Proof.Machine.execSqrt f s
  | .exp2 f => Sys2Proof.Machine.execExp2 f s
  | .log2 f => Sys2Proof.Machine.execLog2 f s
  | .sinp f => Sys2Proof.Machine.execSinp f s
  | .cosp f => Sys2Proof.Machine.execCosp f s
  | .tanh f => Sys2Proof.Machine.execTanh f s
  | .sigm f => Sys2Proof.Machine.execSigm f s
  | .bnet f => Sys2Proof.Machine.execBnet f s
  | .pdep f => Sys2Proof.Machine.execPdep f s
  | .pext f => Sys2Proof.Machine.execPext f s
  | .bperm f => Sys2Proof.Machine.execBperm f s
  | .gfmm f => Sys2Proof.Machine.execGfmm f s
  | .keccak f => Sys2Proof.Machine.execKeccak f s
  | .crcc f => Sys2Proof.Machine.execCrcc f s
  | .ld u f => Sys2Proof.Machine.execLd u f s
  | .st u f => Sys2Proof.Machine.execSt u f s
  | .vld u f => Sys2Proof.Machine.execVld u f s
  | .vst u f => Sys2Proof.Machine.execVst u f s
  | .vgat u f => Sys2Proof.Machine.execVgat u f s
  | .vsct u f => Sys2Proof.Machine.execVsct u f s
  | .lds u f => Sys2Proof.Machine.execLds u f s
  | .sts u f => Sys2Proof.Machine.execSts u f s
  | .vlds u f => Sys2Proof.Machine.execVlds u f s
  | .vsts u f => Sys2Proof.Machine.execVsts u f s
  | .vgats u f => Sys2Proof.Machine.execVgats u f s
  | .vscts u f => Sys2Proof.Machine.execVscts u f s
  | .amo u f => Sys2Proof.Machine.execAmo u f s
  | .vamo u f => Sys2Proof.Machine.execVamo u f s
  | .red u f => Sys2Proof.Machine.execRed u f s
  | .vred u f => Sys2Proof.Machine.execVred u f s
  | .popq u f => Sys2Proof.Machine.execPopq u f s
  | .fence u f => Sys2Proof.Machine.execFence u f s
  | .pref u f => Sys2Proof.Machine.execPref u f s
  | .waita u f => Sys2Proof.Machine.execWaita u f s
  | .qpush u f => Sys2Proof.Machine.execQpush u f s
  | .qpop u f => Sys2Proof.Machine.execQpop u f s
  | .cspush u f => Sys2Proof.Machine.execCspush u f s
  | .cspop u f => Sys2Proof.Machine.execCspop u f s
  | .cacheop u f => Sys2Proof.Machine.execCacheop u f s
  | .br f => Sys2Proof.Machine.execBr f s
  | .brf f => Sys2Proof.Machine.execBrf f s
  | .brnf f => Sys2Proof.Machine.execBrnf f s
  | .jr f => Sys2Proof.Machine.execJr f s
  | .call f => Sys2Proof.Machine.execCall f s
  | .ret f => Sys2Proof.Machine.execRet f s
  | .loop f => Sys2Proof.Machine.execLoop f s
  | .lexit f => Sys2Proof.Machine.execLexit f s
  | .ipf f => Sys2Proof.Machine.execIpf f s
  | .pin f => Sys2Proof.Machine.execPin f s
  | .unpin f => Sys2Proof.Machine.execUnpin f s
  | .wait f => Sys2Proof.Machine.execWait f s
  | .yield f => Sys2Proof.Machine.execYield f s
  | .bar f => Sys2Proof.Machine.execBar f s
  | .chkt f => Sys2Proof.Machine.execChkt f s
  | .trap f => Sys2Proof.Machine.execTrap f s
  | .svc f => Sys2Proof.Machine.execSvc f s
  | .eret f => Sys2Proof.Machine.execEret f s
  | .exit f => Sys2Proof.Machine.execExit f s
  | .cont f => Sys2Proof.Machine.execCont f s
  | .phbeg f => Sys2Proof.Machine.execPhbeg f s
  | .phsw f => Sys2Proof.Machine.execPhsw f s
  | .csrr f => Sys2Proof.Machine.execCsrr f s
  | .csrw f => Sys2Proof.Machine.execCsrw f s
  | .csrs f => Sys2Proof.Machine.execCsrs f s
  | .csrc f => Sys2Proof.Machine.execCsrc f s
  | .dload f => Sys2Proof.Machine.execDload f s
  | .ddrop f => Sys2Proof.Machine.execDdrop f s
  | .tlbinv f => Sys2Proof.Machine.execTlbinv f s
  | .bankmode f => Sys2Proof.Machine.execBankmode f s
  | .ctxsave f => Sys2Proof.Machine.execCtxsave f s
  | .ctxrest f => Sys2Proof.Machine.execCtxrest f s
  | .halt f => Sys2Proof.Machine.execHalt f s
  | .mma f => Sys2Proof.Machine.execMma f s
  | .mmaz f => Sys2Proof.Machine.execMmaz f s
  | .mmas f => Sys2Proof.Machine.execMmas f s
  | .mmaa f => Sys2Proof.Machine.execMmaa f s
  | .mmai f => Sys2Proof.Machine.execMmai f s
  | .lsl f => Sys2Proof.Machine.execLsl f s
  | .tzero f => Sys2Proof.Machine.execTzero f s
  | .txp f => Sys2Proof.Machine.execTxp f s
  | .tcvt f => Sys2Proof.Machine.execTcvt f s
  | .t2v f => Sys2Proof.Machine.execT2v f s
  | .v2t f => Sys2Proof.Machine.execV2t f s
  | .tcopy f => Sys2Proof.Machine.execTcopy f s
  | .tgath f => Sys2Proof.Machine.execTgath f s
  | .tload f => Sys2Proof.Machine.execTload f s
  | .tstore f => Sys2Proof.Machine.execTstore f s
  | .idle count pad => Sys2Proof.Machine.execIdle count pad s
  | .uclaim f => Sys2Proof.Machine.execUclaim f s
  | .uret f => Sys2Proof.Machine.execUret f s
  | .ulaunch f => Sys2Proof.Machine.execUlaunch f s
  | .userve f => Sys2Proof.Machine.execUserve f s
  | .evContextSelect core => Sys2Proof.Machine.execEvContextSelect core s
  | .evFairnessSwitch core => Sys2Proof.Machine.execEvFairnessSwitch core s
  | .evForcedSwitch core => Sys2Proof.Machine.execEvForcedSwitch core s
  | .evTrapEntry ctx => Sys2Proof.Machine.execEvTrapEntry ctx s
  | .evDebugStop ctx => Sys2Proof.Machine.execEvDebugStop ctx s
  | .evContextDone ctx => Sys2Proof.Machine.execEvContextDone ctx s
  | .evGroupEnd group => Sys2Proof.Machine.execEvGroupEnd group s
  | .evGroupPlace die => Sys2Proof.Machine.execEvGroupPlace die s
  | .evSteal die => Sys2Proof.Machine.execEvSteal die s
  | .evPreempt group => Sys2Proof.Machine.execEvPreempt group s
  | .evResumption group die => Sys2Proof.Machine.execEvResumption group die s
  | .evPendingAccessComplete group pos => Sys2Proof.Machine.execEvPendingAccessComplete group pos s
  | .evTurnEnd region => Sys2Proof.Machine.execEvTurnEnd region s
  | .evDictionaryRefill what => Sys2Proof.Machine.execEvDictionaryRefill what s
  | .evWalkComplete core => Sys2Proof.Machine.execEvWalkComplete core s
  | .evDlqArrival ctx entry => Sys2Proof.Machine.execEvDlqArrival ctx entry s
  | .evStorePerformed ctx => Sys2Proof.Machine.execEvStorePerformed ctx s
  | .evVectorAccessComplete ctx index => Sys2Proof.Machine.execEvVectorAccessComplete ctx index s
  | .evAccessFailure ctx index what => Sys2Proof.Machine.execEvAccessFailure ctx index what s
  | .evWatchFire ctx watch => Sys2Proof.Machine.execEvWatchFire ctx watch s
  | .evTlbinvComplete ctx => Sys2Proof.Machine.execEvTlbinvComplete ctx s
  | .evBankSwitchComplete cluster => Sys2Proof.Machine.execEvBankSwitchComplete cluster s
  | .evCacheopComplete ctx => Sys2Proof.Machine.execEvCacheopComplete ctx s
  | .evCtxImageComplete ctx => Sys2Proof.Machine.execEvCtxImageComplete ctx s
  | .evLtsAdvance ctx amount => Sys2Proof.Machine.execEvLtsAdvance ctx amount s
  | .evBackInvalidation line bytes => Sys2Proof.Machine.execEvBackInvalidation line bytes s
  | .evOverrunRollback ctx => Sys2Proof.Machine.execEvOverrunRollback ctx s
  | .evPhaseCancel ctx => Sys2Proof.Machine.execEvPhaseCancel ctx s
  | .evPhaseRefetchComplete ctx => Sys2Proof.Machine.execEvPhaseRefetchComplete ctx s
  | .evContainedFault group => Sys2Proof.Machine.execEvContainedFault group s
  | .evRendezvousTimeout group latch => Sys2Proof.Machine.execEvRendezvousTimeout group latch s
  | .evDivergedStateEnd group latch => Sys2Proof.Machine.execEvDivergedStateEnd group latch s
  | .evCanopyStart cluster => Sys2Proof.Machine.execEvCanopyStart cluster s
  | .evCanopyComplete cluster units => Sys2Proof.Machine.execEvCanopyComplete cluster units s
  | .evCanopyFault cluster => Sys2Proof.Machine.execEvCanopyFault cluster s
  | .evCopyStart cluster => Sys2Proof.Machine.execEvCopyStart cluster s
  | .evCopyComplete cluster elements => Sys2Proof.Machine.execEvCopyComplete cluster elements s
  | .evCopyFault cluster lost => Sys2Proof.Machine.execEvCopyFault cluster lost s
  | .evGovernorSample current => Sys2Proof.Machine.execEvGovernorSample current s
  | .evNotify queue value => Sys2Proof.Machine.execEvNotify queue value s
  | .evQueueResume queue => Sys2Proof.Machine.execEvQueueResume queue s
  | .evQueueEnable queue => Sys2Proof.Machine.execEvQueueEnable queue s
  | .evQueueDisable queue => Sys2Proof.Machine.execEvQueueDisable queue s
  | .evInvoke queue => Sys2Proof.Machine.execEvInvoke queue s
  | .evDispatch queue => Sys2Proof.Machine.execEvDispatch queue s
  | .evCopyPacket queue cluster => Sys2Proof.Machine.execEvCopyPacket queue cluster s
  | .evSignalPacket queue => Sys2Proof.Machine.execEvSignalPacket queue s
  | .evWaitPacket queue => Sys2Proof.Machine.execEvWaitPacket queue s
  | .evBarrierAnd queue => Sys2Proof.Machine.execEvBarrierAnd queue s
  | .evContinue die => Sys2Proof.Machine.execEvContinue die s
  | .evAdapterHint queue => Sys2Proof.Machine.execEvAdapterHint queue s
  | .evQueueUnblock queue => Sys2Proof.Machine.execEvQueueUnblock queue s
  | .evWaitTimeout queue => Sys2Proof.Machine.execEvWaitTimeout queue s
  | .evCommandComplete command => Sys2Proof.Machine.execEvCommandComplete command s
  | .evFaultResume region ref => Sys2Proof.Machine.execEvFaultResume region ref s
  | .evFaultCancel region ref => Sys2Proof.Machine.execEvFaultCancel region ref s
  | .evFaultRelease region ref => Sys2Proof.Machine.execEvFaultRelease region ref s
  | .evTrcbaseWrite region value => Sys2Proof.Machine.execEvTrcbaseWrite region value s
  | .evDebugHalt region operand => Sys2Proof.Machine.execEvDebugHalt region operand s
  | .evDebugRelease region operand => Sys2Proof.Machine.execEvDebugRelease region operand s
  | .evDump region operand => Sys2Proof.Machine.execEvDump region operand s
  | .evLoad region operand => Sys2Proof.Machine.execEvLoad region operand s
  | .evStopq region operand => Sys2Proof.Machine.execEvStopq region operand s
  | .evGoq region operand => Sys2Proof.Machine.execEvGoq region operand s
  | .evStepq region operand => Sys2Proof.Machine.execEvStepq region operand s
  | .evTraceSample region => Sys2Proof.Machine.execEvTraceSample region s
  | .evTblcmd value => Sys2Proof.Machine.execEvTblcmd value s
  | .evTableUpdate => Sys2Proof.Machine.execEvTableUpdate s
  | .evMailboxExtend offset bytes => Sys2Proof.Machine.execEvMailboxExtend offset bytes s
  | .evRegisterWrite address value => Sys2Proof.Machine.execEvRegisterWrite address value s
  | .evGetVersion req => Sys2Proof.Machine.execEvGetVersion req s
  | .evGetCapabilities req => Sys2Proof.Machine.execEvGetCapabilities req s
  | .evNegotiateAlgorithms req => Sys2Proof.Machine.execEvNegotiateAlgorithms req s
  | .evGetDigests req => Sys2Proof.Machine.execEvGetDigests req s
  | .evGetCertificate req => Sys2Proof.Machine.execEvGetCertificate req s
  | .evChallenge req => Sys2Proof.Machine.execEvChallenge req s
  | .evGetMeasurements req => Sys2Proof.Machine.execEvGetMeasurements req s
  | .evKeyExchange req => Sys2Proof.Machine.execEvKeyExchange req s
  | .evFinish req => Sys2Proof.Machine.execEvFinish req s
  | .evEndSession req => Sys2Proof.Machine.execEvEndSession req s
  | .evIdeKm req => Sys2Proof.Machine.execEvIdeKm req s
  | .evUnsupportedRequest req => Sys2Proof.Machine.execEvUnsupportedRequest req s
  | .evPackageReset => Sys2Proof.Machine.execEvPackageReset s
  | .evSecurityFailover => Sys2Proof.Machine.execEvSecurityFailover s
  | .evReadySet word bit => Sys2Proof.Machine.execEvReadySet word bit s
  | .evClusterFail cluster => Sys2Proof.Machine.execEvClusterFail cluster s
  | .evDieLost die => Sys2Proof.Machine.execEvDieLost die s
  | .evRootPortLinkDown port => Sys2Proof.Machine.execEvRootPortLinkDown port s
  | .evLinkRecoveryTimeout port => Sys2Proof.Machine.execEvLinkRecoveryTimeout port s
  | .evLinkRetrain port => Sys2Proof.Machine.execEvLinkRetrain port s
  | .evPoolRegionLostReport entry => Sys2Proof.Machine.execEvPoolRegionLostReport entry s
  | .evHostLinkDown => Sys2Proof.Machine.execEvHostLinkDown s
  | .evHostHdmAccess access => Sys2Proof.Machine.execEvHostHdmAccess access s
  | .evRideFlit flit => Sys2Proof.Machine.execEvRideFlit flit s
  | .evRideRailLost unit what => Sys2Proof.Machine.execEvRideRailLost unit what s
  | .evInstructionCacheFill core => Sys2Proof.Machine.execEvInstructionCacheFill core s
  | .evRidePortReturn port => Sys2Proof.Machine.execEvRidePortReturn port s
  | .evHostLinkRetrain => Sys2Proof.Machine.execEvHostLinkRetrain s
  | .evUnitFail word bit => Sys2Proof.Machine.execEvUnitFail word bit s

end Sys2Proof.Machine
end

