-- ==== Sys2Proof/Machine/Run.lean ====
section
/-! DEFINITION. What happens next (DESIGN CHOICE, notes/assumptions/1.md): which core acts at its bundle boundary (R26 to R31, R217, R446), which deed
of the device is due, and how the arithmetic clock advances (R15, R55, R409, R411, R412). -/

namespace Sys2Proof.Machine

/-! ## Contexts that wait (R26, R28) -/

/-- Whether what a BLOCKED context waits for has come about. Contexts at a rendezvous, a queue and a stream are woken by what
ends their wait (R218 to R220, R326, R328, R329), those of a cancelled phase by its refetch (R249). -/
def State.waitEnded (s : State) (k : Nat) (c : Ctx) : BlockCause → Bool
  | .queueEmpty _ => false
  | .streamShort _ => false
  | .queueFull _ => false
  | .streamFull _ => false
  | .continuationFull => (s.die (dieOf (clusterOf k))).contFree (s.regionOf k)
  | .dlqHead id => !(c.dlq.any fun d => d.id = id && d.fate = .waiting)
  | .canopyFull => s.engineRoom (coreOf k) false
  | .copyFull => s.engineRoom (coreOf k) true
  | .rendezvous _ => false
  | .wait m all => waitHolds all m (c.flagsSoon (s.core (coreOf k)).lt)
  | .barrier b gen => (s.barrier k b).generation.toNat ≠ gen
  | .refetch => false
  | .replayTurn kind obj => !s.replayHolds k kind obj 0 0
  | .restored => true

/-- Whether a number names a hardware context, and not a saved image. -/
def hardwareCtx (k : Nat) : Bool := decide (k < 4116)
/-- The hardware contexts that the state lists. -/
def State.listed (s : State) : List (Nat × Ctx) := s.ctxs.filter fun x => hardwareCtx x.1

/-- Contexts whose wait has ended become READY, and a debugger's HALT that waited for a drain, or for the end of an overrun,
acts (R28, R318, R416). -/
def State.settle (s : State) : State :=
  s.listed.foldl (fun s x =>
    let c := s.ctx x.1
    if c.haltReq && c.drain = .none && c.overrun.isNone then s.debugHaltCtx x.1
    else
      match c.phase, c.block with
      | .blocked, some b => if c.drain = .none && s.waitEnded x.1 c b then s.makeReady x.1 else s
      | _, _ => s) s

/-! ## The core that acts -/

/-- Whether the running context of a core stands at a bundle boundary of this cycle. -/
def State.able (s : State) (core : Nat) : Bool := (s.atBoundary core).isSome

/-- The arrival that a core's bundle is about to make at a rendezvous: group, latch and member index (R217). -/
def State.arrivalOf (s : State) (core : Nat) : Option (Nat × Nat × Nat) :=
  match issueEnvOf s core, (s.core core).bundle with
  | some e, some b =>
    b.ops.findSome? fun i => (opOf i).bind fun o =>
      if o.slot = 9 && o.active e s && arrives o.uf e s then
        let g := (csrE e s 0x004).toNat
        some (s.gid e.k, gangLatch g, memberIndex g (s.ctx e.k).pos)
      else none
  | _, _ => none

/-- The core that acts next in this cycle, if one does: the cores that have yet to prepare their bundles, then all in ascending
number (R185, R212, R325, R332, R446). (DESIGN CHOICE, notes/assumptions/1.md) -/
def State.nextCore (s : State) : Option Nat :=
  let able := (s.cores.map Prod.fst).filter s.able
  (able.find? fun n => (s.core n).bundle.isNone) <|> able.head?

/-- A core acts at its bundle boundary with the bundle that it holds (R29, R31, R101, R418): what comes before its issue, or the
issue. -/
def State.acts (s : State) (core : Nat) : State :=
  let s := { s with turn := core }
  match (s.core core).running, (s.core core).bundle with
  | some k, some b =>
    match s.earlyTrap k with
    | some t => s.trapOrWait k (s.core core).lt t
    | none =>
      if s.fairnessDue core then fairnessSwitch core s
      else if s.forcedDue core then forcedSwitch core s
      else issueBundle b.ops s
  | _, _ => s

/-- The cores of a list that stand at a bundle boundary act in their order. -/
def State.actAll (s : State) (cores : List Nat) : State := cores.foldl (fun s n => if s.able n then s.acts n else s) s

/-- A core arrives at a rendezvous with the bundle it holds: the bundle blocks with its arrival recorded, and has no other effect
(R26, R217). -/
def State.arriveOn (s : State) (core : Nat) : State :=
  match issueEnvOf s core, (s.core core).bundle with
  | some e, some b =>
    match ((b.ops.filterMap opOf).find? fun o => o.slot = 9 && o.active e s).map fun o => o.meet e s with
    | some (Meeting.wait record l) => (record s).blockCtx e.k e.t (.rendezvous l)
    | _ => s
  | _, _ => s

/-- Whether a context waits at a rendezvous latch. -/
def Ctx.waitsToMeet (c : Ctx) (l : Nat) : Bool := c.phase = .blocked && c.block = some (.rendezvous l)

/-- The cores after core n whose bundles arrive in this cycle at the rendezvous at which that of n arrives, as members of lesser index,
once the cores between them and n have acted: they arrive first, in ascending index (R217; DEDUCED, notes/assumptions/53.md). -/
def State.arriveBefore (s : State) (n : Nat) : List Nat :=
  match s.arrivalOf n with
  | none => []
  | some (g, l, i) =>
    let able := (s.cores.map Prod.fst).filter fun m => s.able m && decide (n < m)
    let index (m : Nat) : Nat := match s.arrivalOf m with
      | some (g', l', j) => if g = g' && l = l' then j else i
      | none => i
    let comes (m : Nat) : Bool :=
      decide (index m < i) && match (s.core m).running with
        | some k => ((s.actAll ((able.filter (· < m)) ++ [m])).ctx k).waitsToMeet l
        | none => false
    (List.range i).flatMap fun j => able.filter fun m => decide (index m = j) && comes m

/-- An instruction without OVR, where it is a bar. -/
def Instr.withoutOverrun : Instr → Instr
  | .bar f => .bar { f with aux := f.aux &&& ~~~8 }
  | i => i

/-- Whether the overrun that core n has begun in this cycle is one that its barrier completes in the same cycle, by the arrivals of the
cores that act after it (R446). -/
def State.completesNow (s : State) (n : Nat) : Bool :=
  match (s.core n).running.bind fun k => (s.ctx k).barrierWait.map fun w => (k, w) with
  | some (k, w) =>
    let t := s.actAll ((s.cores.map Prod.fst).filter fun m => decide (n < m))
    (t.barrier k w.barrier).generation.toNat ≠ w.generation
  | none => false

/-- Whether the context that runs on a core overruns a barrier. -/
def State.overruns (s : State) (n : Nat) : Bool :=
  match (s.core n).running with | some k => (s.ctx k).overrun.isSome | none => false

/-- The operations of a bundle issue: a single one by its meaning, several together. -/
def issueOpsHeld (is : List Instr) (s : State) : Host.Outcome State Fault Refusal :=
  match is with
  | [i] => exec i s
  | is => .next (issueBundle is s)

/-- The bundle that a core holds issues. Members of its rendezvous that come before it arrive first (R217). Where its bar would begin an
overrun of a barrier that completes in this same cycle, it blocks instead (R446). -/
def issueHeld (core : Nat) (s : State) : Host.Outcome State Fault Refusal :=
  let s := (s.arriveBefore core).foldl State.arriveOn s
  match (s.core core).bundle with
  | some b =>
    match issueOpsHeld b.ops s with
    | .next t => if !s.overruns core && t.overruns core && t.completesNow core then issueOpsHeld (b.ops.map Instr.withoutOverrun) s else .next t
    | o => o
  | none => .next s

/-- The next bundle of a core prepared, unless it stands in the issue stage already. -/
def State.withBundle (s : State) (core : Nat) : State := if (s.core core).bundle.isSome then s else prepareBundle core s

/-- A core at its bundle boundary (R29, R31, R73, R101, R262, R318, R418): a debugger stop that ends an overrun, a trap that comes
before fetch, or the next bundle, which gives
way to another context, waits for the cores that come first, or issues. -/
def stepCore (core : Nat) (s : State) : Host.Outcome State Fault Refusal :=
  let s := { s with turn := core }
  match (s.core core).running with
  | none => .next s
  | some k =>
    if (s.ctx k).overrun.isSome && (s.ctx k).haltReq then .next (s.blockCtx k (s.core core).lt (barrierBlock s k))
    else match s.earlyTrap k with
    | some t => .next (s.trapOrWait k (s.core core).lt t)
    | none =>
      let s := s.withBundle core
      if (s.core core).bundle.isNone then .next s
      else if s.fairnessDue core then .next (fairnessSwitch core s)
      else if s.forcedDue core then .next (forcedSwitch core s)
      else if s.nextCore ≠ some core then .next s
      else issueHeld core s

/-! ## The deeds of the device that are due -/

/-- A deed of the device. -/
abbrev Deed := State → State

/-- A deed where its condition holds. -/
def deedIf (b : Bool) (d : Deed) : Option Deed := if b then some d else none

/-- The end of a context's drain, where its work has drained (R63, R64, R244, R249, R317). -/
def State.drainDeed (s : State) (k : Nat) (c : Ctx) : Option Deed :=
  let ready := s.writtenBack k && !s.groupFaulted k
  match c.drain with
  | .none => none
  | .trap _ _ _ => deedIf ready (trapEntry k)
  | .halt _ => deedIf (ready && !s.frozen k) (debugStop k)
  | .exit =>
    deedIf (s.allLanded k) (contextDone k)
  | .cancel _ _ =>
    deedIf (s.drained k && !s.frozen k && !s.groupFaulted k && (c.phaseRec.bind PhaseRecord.bank).isSome) (phaseCancel k)
  | .rollback => deedIf (s.drained k && !s.frozen k && c.overrun.isSome) (overrunRollback k)
  | .preempt => none

/-- The maintenance operation of a context that completes (R252, R255, R290). -/
def Ctx.maintenanceDeed (c : Ctx) (k : Nat) : Option Deed :=
  c.maintenance.head?.map fun m => match m with
    | .tlbinv _ _ _ _ _ => tlbinvComplete k
    | .cacheop _ _ _ _ => cacheopComplete k
    | .ctxsave _ _ _ => ctxImageComplete k
    | .ctxrest _ _ _ _ => ctxImageComplete k

/-- The oldest access of a context performed; how many lines it misses in L1 is open (R285, R411). -/
def performOldest (k : Nat) (s : State) : State :=
  (s.performFirst k 1).clusterEvent (clusterOf k) 0x65 (s.openNat (2 ^ 30 + k))
/-- Whether an access is one of a vector operation. -/
def Access.isVector (a : Access) : Bool :=
  match a.kind with
  | .vload _ _ => true
  | .vstore _ => true
  | .vamo _ _ _ _ => true
  | .vred _ _ => true
  | _ => false
/-- Whether a context's memory slots still take rows of its vector accesses (R59). (DESIGN CHOICE, notes/assumptions/10.md) -/
def State.feedsRows (s : State) (k : Nat) : Bool :=
  let core := s.core (coreOf k)
  core.occupied.any fun o => o.ctx = k && (o.slot = 6 || o.slot = 7) && decide (core.lt < o.free)
/-- The oldest access of a context, unless replay holds it, or its slot still takes its rows (R59, R283, R285, R322, R421;
DESIGN CHOICE, notes/assumptions/10.md). -/
def State.accessDeed (s : State) (k : Nat) (c : Ctx) : Option Deed :=
  match c.accesses with
  | a :: _ => deedIf (!s.accessHeld k a && !(a.isVector && s.feedsRows k)) (performOldest k)
  | [] => none

/-- The reissue of a context whose phase input has been fetched again (R249). -/
def State.refetchDeed (s : State) (k : Nat) (c : Ctx) : Option Deed :=
  let mine (x : EngineCmd) : Bool := x.refetch && x.group.isSome && x.group = c.group && x.pos = c.pos
  deedIf (c.phase = .blocked && c.block = some .refetch && !(s.engine.any fun x => mine x.2) && !(s.heldOps.any fun h => mine h.cmd))
    (phaseRefetchComplete k)

/-- What is due of a context. -/
def State.ctxDeed (s : State) (k : Nat) (c : Ctx) : Option Deed :=
  (findPlace Watch.hit c.watches 0).map (fun w => watchFire k w.1)
    <|> s.drainDeed k c <|> s.accessDeed k c <|> c.maintenanceDeed k <|> s.refetchDeed k c

/-- The walks of a core's bundle end; each is a miss of the cluster's TLB (R279, R411). -/
def walksEnd (core : Nat) (s : State) : State :=
  let frozen := match (s.core core).freeze with | some (.walk ps) => ps.length | _ => 0
  (walkComplete core s).clusterEvent (clusterOfCore core) 0x66 ((s.core core).walking.length + frozen)

/-- What is due of a core (R28, R81, R278). -/
def State.coreDeed (s : State) (n : Nat) (c : Core) : Option Deed :=
  let walks := !c.walking.isEmpty || (match c.freeze with | some (.walk ps) => !ps.isEmpty | _ => false)
  let refills := match c.freeze with
    | some (.refill (_ :: _)) => c.running.isSome
    | some (.header _) => c.running.isSome
    | none => !c.refillQueue.isEmpty
    | _ => false
  deedIf (c.running.isNone && (s.longestWaiting n).isSome) (contextSelect n)
    <|> deedIf (walks && c.running.isSome) (walksEnd n)
    <|> deedIf refills (dictionaryRefill n)

/-- What is due of a cluster's banks (R253, R268). -/
def State.bankDeed (s : State) (n : Nat) (c : Cluster) : Option Deed :=
  deedIf (!(s.readySwitches n).isEmpty || c.bankOps.any fun o => !(c.switches.any fun x => x.op = o.op)) (bankSwitchComplete n)

/-- What is due of a cluster's engines (R185, R212, R214, R333). -/
def State.engineDeed (s : State) (cluster : Nat) : Option Deed :=
  let canopy := match s.canopyHead cluster with
    | some (n, c) =>
      if c.started then some (canopyComplete cluster 1)
      else deedIf (!s.waitsTile n c && !(c.uf = 0xD && decide (c.rows.length < 16))) (canopyStart cluster)
    | none => none
  let copies := match s.copyRuns cluster with
    | some (_, c) => deedIf c.desc.isSome (copyComplete cluster 4096)
    | none => none
  canopy <|> deedIf ((s.copyNext cluster).any fun x => !s.rowsBefore x.2) (copyStart cluster) <|> copies

/-- What is due at a rendezvous latch (R219, R220). -/
def State.latchDeed (s : State) (g : Nat) (l : Nat) (r : RendezvousLatch) : Option Deed :=
  let ended := match r.diverged with
    | some d => (d.listed.all d.trapped.contains) || expired d.since r.rvto.toNat s.clk
    | none => false
  deedIf ended (divergedStateEnd g l)
    <|> deedIf (r.key.isSome && expired r.start r.rvto.toNat s.clk) (rendezvousTimeout g l)

/-- Whether a group that is being pre-empted can be captured (R32). -/
def State.captureDue (s : State) (x : Group) : Bool :=
  match x.cluster with
  | some c => x.preempting && x.fault.isNone && !x.kept && x.keys.all s.capturable
      && !((s.cluster c).switches.any fun w => x.banks.contains w.bank)
  | none => false
/-- Whether every context of a group is DONE and its engines have finished (R25). -/
def State.groupOver (s : State) (g : Nat) (x : Group) : Bool :=
  x.fault.isNone && !x.kept && !x.preempting && x.cluster.isSome && !s.engineRuns g && x.keys.all fun k => (s.ctx k).phase = .done
/-- The positions of a pre-empted group that still have an access to complete (R33). -/
def State.pendingPlace (s : State) (g : Nat) (x : Group) : Option Nat :=
  if x.cluster.isSome then none
  else (List.range x.decl.n).find? fun p =>
    match (s.ctx (parkKey g p)).accesses with | a :: _ => !s.accessHeld (parkKey g p) a | [] => false
/-- What is due of a group. -/
def State.groupDeed (s : State) (g : Nat) (x : Group) : Option Deed :=
  (s.pendingPlace g x).map (pendingAccessComplete g)
    <|> deedIf (x.fault.isSome && s.stopped g x) (containedFault g)
    <|> deedIf (s.groupOver g x) (groupEnd g)
    <|> deedIf (s.captureDue x) (preempt g)
    <|> (x.latches.mapIdx fun l r => (l, r)).findSome? fun y => s.latchDeed g y.1 y.2

/-- What is due of a die's distributor (R19, R22, R34): a die that has run dry of a command steals before it places anything else. -/
def State.dieDeed (s : State) (d : Nat) : Option Deed :=
  let place := match s.nextPlacement d with
    | some (.resume g _) => some (resumption g d)
    | some (.fresh _ _ _) => some (groupPlace d)
    | none => none
  deedIf (s.stealTarget d).isSome (steal d) <|> place

/-- Whether the turn that is over may end now: with no time run since the last change, only one whose member is no longer ready. -/
def State.turnDeed (s : State) : Option Deed :=
  match s.turnOver with
  | some (_, m) =>
    let lapsed := (turnPairs 0 s.turnPath).any fun x => !(s.members x.1).contains x.2
    deedIf (s.turnPath.isEmpty || lapsed || decide (s.turnSince < s.clk)) (turnEnd m)
  | none => none

/-- What is due of the queues (R353, R358, R359): the firmware's rounds, context by context, and the queues that wait. -/
def State.queueDeed (s : State) : Option Deed :=
  ((List.range 16).findSome? fun j => deedIf (s.firmwareDue (4096 + j)) (firmwareStep (4096 + j)))
    <|> (s.queues.map Prod.fst).findSome? fun q =>
      deedIf (s.waitOver q) (waitTimeout q)
        <|> deedIf (!isCont q && s.queueState q = 4 && !s.stillBlocked q) (queueUnblock q)

/-- The first deed of the device that is due in this cycle, in a fixed order. -/
def State.dueDeed (s : State) : Option Deed :=
  deedIf (!s.doorbells.isEmpty) ringDoorbell
    <|> s.listed.findSome? (fun x => s.ctxDeed x.1 x.2)
    <|> s.cores.findSome? (fun x => s.coreDeed x.1 x.2)
    <|> s.clusters.findSome? (fun x => s.bankDeed x.1 x.2)
    <|> deedIf (s.engine.any fun x => !x.2.queued && s.engineRoom x.2.core x.2.copy) State.admitWaiting
    <|> s.engine.findSome? (fun x => s.engineDeed x.2.cluster)
    <|> s.groups.findSome? (fun x => s.groupDeed x.1 x.2)
    <|> deedIf (!s.tblQueue.isEmpty) tableUpdate
    <|> deedIf (!s.idleTurns.isEmpty) clearIdle
    <|> s.turnDeed
    <|> (List.range 8).findSome? s.dieDeed
    <|> s.queueDeed
    <|> s.commands.findSome? (fun x => deedIf (s.commandDone x.1) (commandComplete x.1))
    <|> s.traces.findSome? (fun x => deedIf (s.sampleDue x.1) (traceSample x.1))
    <|> s.pool.findSome? (fun x => deedIf (s.staleLocked x.2) (showLocked x.1))
    <|> s.debugWork.findSome? (fun x => deedIf (!x.2.halting.any s.haltUnderWay) (haltEnds x.1))
    <|> deedIf (!s.committers.isEmpty) overrunCommits

/-! ## Performance counters of a cycle (R411, R412) -/

/-- The place of a block cause in the order of R26 Table 8, from 0; 7 a replay turn; none where the cause is not of that table.
(DEDUCED, notes/assumptions/81.md) -/
def blockPlace : BlockCause → Option Nat
  | .queueEmpty _ => some 0
  | .streamShort _ => some 0
  | .queueFull _ => some 1
  | .streamFull _ => some 1
  | .continuationFull => some 1
  | .dlqHead _ => some 2
  | .canopyFull => some 3
  | .copyFull => some 3
  | .rendezvous _ => some 4
  | .wait _ _ => some 5
  | .barrier _ _ => some 6
  | .replayTurn _ _ => some 7
  | .refetch => none
  | .restored => none

/-- Whether a context is eligible in a cycle; one in the drain of an exit counts as DONE. (DEDUCED, notes/assumptions/81.md) -/
def Ctx.eligible (c : Ctx) : Bool := (c.phase = .ready || c.phase = .running) && c.drain ≠ .exit

/-- The context events of an unfrozen cycle. -/
def State.countCtxCycle (s : State) (k : Nat) : State :=
  let c := s.ctx k
  match c.phase, c.block with
  | .running, _ => s.event k 0x04 1
  | .blocked, some b =>
    let s := s.event k 0x08 1
    match blockPlace b with
    | some i => s.event k (0x09 + i) 1
    | none => s
  | _, _ => s

/-- The event to which a stall cycle is charged: the state of the oldest resident context. -/
def State.stallEvent (s : State) (ks : List Nat) : Option Nat :=
  match ks with
  | [] => some 0x5A
  | k :: ks =>
    let oldest := ks.foldl (fun a b => if (s.ctx b).placedAt < (s.ctx a).placedAt then b else a) k
    let c := s.ctx oldest
    match c.phase, c.block with
    | .blocked, some b => (blockPlace b).map fun i => 0x50 + i
    | .halted, _ => some 0x58
    | _, _ => some 0x59

/-- The events of a core's cycle counted by its contexts. -/
def State.countCycle (s : State) (n : Nat) : State :=
  let ks := (ctxsOfCore n).filter fun k => (s.ctx k).phase ≠ .free
  let all (evt : Nat) (s : State) : State := ks.foldl (fun s k => s.coreEvent k evt 1) s
  match (s.core n).freeze with
  | some (.refill _) => all 0x48 s
  | some (.header _) => all 0x48 s
  | some (.walk _) => all 0x49 s
  | some (.banks _) => all 0x4A s
  | some (.conflict _ _) => all 0x4B s
  | none =>
    let eligible := (ks.filter fun k => (s.ctx k).eligible).length
    let stall := s.stallEvent ks
    let s := ks.foldl State.countCtxCycle s
    let s := match (s.core n).running with
      | some k =>
        let c := s.core n
        let branch := decide (c.lt < c.gapUntil) && decide (c.gapUntil ≤ c.lt + 2)
        if branch || !c.walking.isEmpty then s.event k 0x05 1 else s
      | none => s
    let s := all (0x40 + eligible) s
    if eligible = 0 then
      let s := all 0x5B s
      match stall with | some e => all e s | none => s
    else s

/-! ## A cycle of the clock -/

/-- Rows of vector operations that are read in the cycle lt of a context's core (R55). fuel bounds them. -/
def State.runRows (s : State) (k lt : Nat) : Nat → Nat → State
  | 0, _ => s
  | n + 1, i =>
    match (s.ctx k).rows[i]? with
    | none => s
    | some r =>
      if lt < r.due then s.runRows k lt n (i + 1)
      else
        match rowStep s k r with
        | (s, some r) => (s.updCtx k fun c => { c with rows := setPlace c.rows i r }).runRows k lt n (i + 1)
        | (s, none) => (s.updCtx k fun c => { c with rows := c.rows.eraseIdx i }).runRows k lt n i

/-- What lands in a context at the start of cycle lt of its core: accesses that program order puts before a row of a scratchpad store
are performed first (R287, R291). (DEDUCED, notes/assumptions/22.md) -/
def State.landCycle (s : State) (k lt : Nat) : State :=
  let stores := (s.ctx k).pending.any fun p =>
    decide (p.due ≤ lt) && match p.what with | .spadRow _ _ => true | _ => false
  let s := if stores then s.flush k else s
  let s := s.landDue k lt
  s.runRows k lt (s.ctx k).rows.length 0

/-- A cycle of a frozen core (R30): it counts, the flag events of its contexts land, and a freeze whose end is known from the core
alone comes nearer or ends. -/
def State.frozenCycle (s : State) (n : Nat) (f : FreezeCause) : State :=
  let s := (ctxsOfCore n).foldl (fun s k => s.landEvents k (s.core n).lt) (s.updCore n fun c => { c with frozenCycles := c.frozenCycles + 1 })
  match f with
  | .refill [] => s.updCore n fun c => { c with freeze := none }
  | .conflict slot cycles =>
    s.updCore n fun c =>
      if cycles ≤ 1 then { c with freeze := none, conflictPaid := c.conflictPaid ++ [slot] }
      else { c with freeze := some (.conflict slot (cycles - 1)) }
  | .banks mask =>
    let cluster := clusterOfCore n
    let held := (List.range 16).any fun b => mask.getLsbD b && (s.switching cluster b || s.reserved cluster b)
    if held then s else s.updCore n fun c => { c with freeze := none }
  | _ => s

/-- A cycle of a core: the freeze goes on, or the pipelines advance and what is due lands. -/
def State.coreCycle (s : State) (n : Nat) : State :=
  let s := s.countCycle n
  match (s.core n).freeze with
  | some f => s.frozenCycle n f
  | none =>
    let s := s.updCore n fun c => { c with lt := c.lt + 1 }
    ((ctxsOfCore n).filter fun k => (s.ctx k).phase ≠ .free).foldl (fun s k => s.landCycle k (s.core n).lt) s

/-- What a context keeps of the start of a cycle: its counters (R411); and rows that have landed before an asynchronous write of an
earlier bundle, while one is in flight (R56). -/
def State.startCycle (s : State) (x : Nat × Ctx) : State :=
  let c := s.ctx x.1
  if c.pmc = c.pmcBefore && c.landed.isEmpty then s
  else s.setCtx x.1 { c with pmcBefore := c.pmc, landed := if (s.asyncRegs x.1).isEmpty then [] else c.landed }

/-- The arithmetic clock advances by one cycle: TSC rises by one (R409), every core goes on, and then the queue events of the cycle
take effect (R58, R326), and the governor acts (R441). Understory and security cores advance by one bundle cycle in it like every other core
(DESIGN CHOICE, notes/assumptions/88.md). -/
def State.tick (s : State) : State :=
  let cores := s.cores.map Prod.fst
  let s := cores.foldl State.coreCycle { s with clk := s.clk + 1 }
  let s := cores.foldl (fun s n => (ctxsOfCore n).foldl State.deliverEvents s) s
  s.listed.foldl State.startCycle s.governorCycle

/-! ## One step -/

/-- Whether a constructor is a deed of another agent, and not an instruction of a bundle.
(DESIGN CHOICE, notes/assumptions/85.md) -/
def isEvent (i : Instr) : Bool :=
  match i with
  | .idle _ _ => false
  | _ => (opOf i).isNone

/-- A step's next state. The clock, the index of the next free value and the queue of inputs are the step's alone to move (R409,
DESIGN CHOICE, notes/assumptions/1.md, DESIGN CHOICE, notes/assumptions/2.md); contexts whose wait has ended become READY. -/
def advance (clk free : Nat) (inputs : List Instr) (o : Host.Outcome State Fault Refusal) : Host.Outcome State Fault Refusal :=
  match o with
  | .next s => .next { s.settle with clk := clk, free := free + 1, inputs := inputs }
  | .fault r => .fault r
  | .refused r => .refused r

/-- TSC after an input: package reset starts it anew (R409). -/
def clockAfter (i : Instr) (clk : Nat) : Nat := match i with | .evPackageReset => 0 | _ => clk

/-- The next deed of another agent taken from the inputs. (DESIGN CHOICE, notes/assumptions/85.md) -/
def stepInput (i : Instr) (rest : List Instr) (s : State) : Host.Outcome State Fault Refusal :=
  if isEvent i then advance (clockAfter i s.clk) s.free rest (exec i s) else .fault .inputNotEvent

/-- What the device does where no bundle can issue: the first deed that is due, or else a cycle passes. -/
def stepDevice (s : State) : Host.Outcome State Fault Refusal :=
  match s.dueDeed with
  | some d => advance s.clk s.free s.inputs (.next (d s))
  | none => advance (s.clk + 1) s.free s.inputs (.next s.tick)

/-! ## Placing an instruction where the machine fetches -/

/-- The bytes of a bundle with one operation at index 0 of its class, in a slot, and three zero immediates (R67 to R69). -/
def singleBundle (slot : Nat) : List Byte := toBytes 2 (2 ^ slot + 3 * 1024) ++ [0] ++ List.replicate 12 0

/-- A line of code with some bytes from an offset on. -/
def codeLine (asid line off : Nat) (bs : List Byte) : CodeLine :=
  { asid := asid, line := line, valid := true, bytes := (List.replicate off 0 ++ bs ++ List.replicate 128 0).take 128, pins := [] }

/-- A control word with one slot field placed where the core named by turn fetches its next bundle: its container as entry 0 of the
bound dictionary, a bundle with that one index at the PC, and a mapping of the page for execution. The context runs in
supervisor state, as a privileged form asks (R87). (DESIGN CHOICE, notes/assumptions/6.md) -/
def State.placeWord (s : State) (slot container : Nat) : State :=
  let core := s.turn
  let k := ((s.core core).running).getD ((ctxsOfCore core).headD 0)
  let c := s.ctx k
  let h := c.dictHandle
  let asid := s.asidOf (s.regionOf k)
  let pc := c.pc.toNat
  let line := pc / 128
  let off := pc % 128
  let bs := singleBundle slot
  let cls := slotClass slot
  let handle : DictHandle :=
    { object := c.dictObj, asid := asid, counts := List.replicate 6 1, pinPages := List.replicate 6 0
      arrays := List.replicate 6 0, priv := true, bound := 0, loaded := false }
  let page : DecodePage := { cls := cls, handle := h, page := 0, entries := [(container, false)], dropped := false, used := 0 }
  let entry (l : Nat) : TlbEntry := { vpn := l * 128 / 4096, size := 12, asid := asid, pte := 0x9 }
  let s := s.setCtx k { c with
    phase := .running, drain := .none, block := none, fpPending := none, user := false, bpExempt := some c.pc }
  let s := s.updCluster (clusterOf k) fun x => { x with tlb := [entry line, entry (line + 1)] ++ x.tlb }
  s.updCore core fun x => { x with
    running := some k, freeze := none, bundle := none, walked := [], walking := [], fetchFaults := [], refillFault := none
    nextIssue := x.lt, handles := setPlace x.handles h (some handle), pages := page :: x.pages
    icache := [codeLine asid line off bs, codeLine asid (line + 1) 0 (bs.drop (128 - off))] ++ x.icache }

end Sys2Proof.Machine
end

