-- ==== Sys2Proof/Machine/Step.lean ====
section
/-! DEFINITION. One step of the machine, and an instruction placed where the next step fetches it. -/

namespace Sys2Proof.Machine

/-- One step (DESIGN CHOICE, notes/assumptions/1.md): the next deed of another agent; else the core that acts next in this cycle; else what the
device does. -/
def step (s : State) : Host.Outcome State Fault Refusal :=
  match s.inputs with
  | i :: rest => stepInput i rest s
  | [] =>
    match s.nextCore with
    | some core => advance s.clk s.free [] (stepCore core s)
    | none => stepDevice s

/-- The state with a control word that holds one slot field placed where step fetches its next instruction, as
DESIGN CHOICE, notes/assumptions/6.md says. -/
def State.withFetchWord (s : State) (_nbits w : Nat) : State :=
  match wordSlots w with
  | [(slot, _)] => { s with inputs := [] }.placeWord slot (w / 2 ^ slotBase slot % 2 ^ slotWidth slot)
  | _ => s

end Sys2Proof.Machine
end

