-- ==== Sys2Proof/Safety.lean ====
section
/-! DEFINITION. What counts as a safe run, and the terms in which claims speak of one bundle: that it stands ready, what its issue
changes, and what it puts in flight. -/

namespace Sys2Proof.Machine

/-! ## Runs -/

/-- The waiting inputs are deeds of other agents, and none is an instruction of a bundle. -/
def State.InputsAreDeeds (s : State) : Prop := ∀ i ∈ s.inputs, isEvent i = true

/-- A run of n steps from a state that meets neither a fault nor a refusal. -/
def Runs (n : Nat) (s : State) : Prop := ∃ t, core.run n s = .next t

/-- A state from which no run stops. -/
def Safe (s : State) : Prop := ∀ n, Runs n s

/-! ## A bundle of one operation -/

/-- A bundle of one operation in a slot, with a predicate, stands ready on the core that issues: e is what it knows of its issue,
the slot has accepted every row of what it accepted before (R59, R65), and the predicate is true (R44). -/
structure Ready (s : State) (e : Env) (slot : Nat) (pf : BitVec 4) (pn : Bool) : Prop where
  env : issueEnv s = some e
  slotFree : ∀ x ∈ (s.core e.core).occupied, x.slot = slot → x.free ≤ e.t
  active : predicate s e slot pf pn = true

/-- The same but for a predicate that is false. -/
structure ReadyInactive (s : State) (e : Env) (slot : Nat) (pf : BitVec 4) (pn : Bool) : Prop where
  env : issueEnv s = some e
  slotFree : ∀ x ∈ (s.core e.core).occupied, x.slot = slot → x.free ≤ e.t
  inactive : predicate s e slot pf pn = false

/-- The conditions of R31 and R262 under which a bundle of one operation issues: no check of step 2 traps, nothing blocks or holds
it, nothing of step 4 traps, its privilege suffices, it does not end overrun, and its rendezvous passes. -/
structure Passes (o : SlotOp) (e : Env) (s : State) : Prop where
  privilege : o.privileged = true → s.supervisor e.k = true
  check : o.check e (startIssue e s [o]) = none
  block : o.block e (startIssue e s [o]) = none
  hold : o.hold e (startIssue e s [o]) = none
  trap : o.trap e (startIssue e s [o]) = none
  overrun : (s.ctx e.k).overrun = none ∨ o.endsOverrun e (startIssue e s [o]) = false
  meet : o.slot = 9 → o.meet e s = .pass

/-! ## What changes -/

/-- t differs from s in context k and in core n alone: every other context and core, memory and all the rest are the same. -/
structure OnlyAt (s t : State) (k n : Nat) : Prop where
  ctxs : ∀ j, j ≠ k → t.ctx j = s.ctx j
  cores : ∀ j, j ≠ n → t.core j = s.core j
  rest : t = { s with ctxs := t.ctxs, cores := t.cores }

/-- A context as the issue of a bundle leaves it (R31, R59, R218): its PC names the next sequential bundle, its counters count, and
what a rendezvous left for this bundle is spent. -/
def Ctx.issued (c : Ctx) (e : Env) (pmc : Vector W64 16) : Ctx :=
  { c with
    pc := e.next, firstIssue := some (c.firstIssue.getD e.t), bpExempt := none, pmc := pmc
    rp := c.rp && decide (c.meetPc ≠ e.pc)
    rendezvousTrap := if c.meetPc = e.pc then none else c.rendezvousTrap }

/-- A core as the issue of an operation leaves it (R59, R60): the slot is occupied for occ cycles, and the next bundle may
issue at gap cycles after this one. -/
def Core.issued (c : Core) (e : Env) (slot occ gap : Nat) : Core :=
  { c with
    bundle := none, walking := [], nextIssue := e.t + gap, gapUntil := if 1 < gap then e.t + gap else c.gapUntil
    occupied := (c.occupied.filter fun x => decide (e.t < x.free)) ++ [{ slot := slot, free := e.t + occ, ctx := e.k }] }

/-- A result of a slot of the bundle e. -/
def resultOf (e : Env) (slot : Nat) (x : Nat × Landing) : Pending :=
  { due := x.1, issued := e.t, slot := slot, contested := 0, what := x.2 }

/-- The results in flight once some results of a bundle's slot, each with the cycle at which it can be read, have joined them. -/
def joined (ps : List Pending) (e : Env) (slot : Nat) (lands : List (Nat × Landing)) : List Pending :=
  lands.foldl (fun ps x => Machine.addPending ps (resultOf e slot x)) ps

/-- The rows still to be read by vector operations of earlier bundles are those of before: only the note that a later write has
overtaken one may be new (R56). -/
def SameRows (a b : List RowTask) : Prop :=
  (a.map fun r => { r with contested := [] }) = b.map fun r => { r with contested := [] }

/-- The bundle e has issued one operation whose whole effect is a list of results in flight: nothing else of the machine
changes but the PC, the counters, the issue stage, the slot's occupancy. -/
structure Results (s t : State) (e : Env) (slot occ gap : Nat) (lands : List (Nat × Landing)) : Prop where
  only : OnlyAt s t e.k e.core
  ctx : ∃ pmc rows, SameRows rows (s.ctx e.k).rows ∧
    t.ctx e.k = { (s.ctx e.k).issued e pmc with pending := joined (s.ctx e.k).pending e slot lands, rows := rows }
  core : t.core e.core = (s.core e.core).issued e slot occ gap

/-- The bundle e has issued one operation that changes its context as f says, and nothing else of the machine but the PC, the
counters, the issue stage and the slot's occupancy. -/
structure Changes (s t : State) (e : Env) (slot occ gap : Nat) (f : Ctx → Ctx) : Prop where
  only : OnlyAt s t e.k e.core
  ctx : ∃ pmc, t.ctx e.k = f ((s.ctx e.k).issued e pmc)
  core : t.core e.core = (s.core e.core).issued e slot occ gap

end Sys2Proof.Machine
end

