-- ==== Sys2Proof/Certificates/Slice0/Obligations.lean ====
section
/-! DEFINITION. The statements about the machine, and the terms of the spec that they use. -/

namespace Sys2Proof.Spec

open Sys2Proof.Machine

/-! ## Terms of the S class -/

/-- A result that a slot latch shows from t + L on and, unless WS = 1, a scalar register from t + L + 1 on (R103). -/
def scalarLands (u : SlotS) (f : FieldS) (e : Env) (lat : Nat) (x : W64) : List (Nat × Landing) :=
  (e.t + lat, .latchS u.index x) :: if f.ws then [] else [(e.t + lat + 1, .scalar f.dst.toNat x)]

/-- A 32-bit result, sign-extended (R105, R107). -/
def word32 (z : Int) : W64 := (BitVec.ofInt 32 z).signExtend 64

/-- The two-operand operations that only compute: slot, fields, latency, and the result as the spec gives it (R104 Table 7, R105,
R106, R107, R111, R112). -/
def twoOperand : Instr → Option (SlotS × FieldS × Nat × (W64 → W64 → W64))
  | .add u f => some (u, f, 1, fun a b => BitVec.ofNat 64 (a.toNat + b.toNat))
  | .sub u f => some (u, f, 1, fun a b => BitVec.ofInt 64 (a.toNat - b.toNat))
  | .addw u f => some (u, f, 1, fun a b => word32 (a.toNat + b.toNat))
  | .subw u f => some (u, f, 1, fun a b => word32 (a.toNat - b.toNat))
  | .and u f => some (u, f, 1, fun a b => a &&& b)
  | .or u f => some (u, f, 1, fun a b => a ||| b)
  | .xor u f => some (u, f, 1, fun a b => a ^^^ b)
  | .andn u f => some (u, f, 1, fun a b => a &&& ~~~b)
  | .orn u f => some (u, f, 1, fun a b => a ||| ~~~b)
  | .xnor u f => some (u, f, 1, fun a b => ~~~(a ^^^ b))
  | .min u f => some (u, f, 1, fun a b => if a.toInt < b.toInt then a else b)
  | .max u f => some (u, f, 1, fun a b => if b.toInt < a.toInt then a else b)
  | .minu u f => some (u, f, 1, fun a b => if a.toNat < b.toNat then a else b)
  | .maxu u f => some (u, f, 1, fun a b => if b.toNat < a.toNat then a else b)
  | .shl u f => some (u, f, 1, fun a b => BitVec.ofNat 64 (a.toNat * 2 ^ (b.toNat % 64)))
  | .shr u f => some (u, f, 1, fun a b => BitVec.ofNat 64 (a.toNat / 2 ^ (b.toNat % 64)))
  | .sar u f => some (u, f, 1, fun a b => BitVec.ofInt 64 (a.toInt / 2 ^ (b.toNat % 64)))
  | .rotl u f => some (u, f, 1, fun a b =>
      let n := b.toNat % 64
      if n = 0 then a else (a <<< n) ||| (a >>> (64 - n)))
  | .rotr u f => some (u, f, 1, fun a b =>
      let n := b.toNat % 64
      if n = 0 then a else (a >>> n) ||| (a <<< (64 - n)))
  | .mul u f => some (u, f, 3, fun a b => BitVec.ofNat 64 (a.toNat * b.toNat))
  | .mulh u f => some (u, f, 3, fun a b => BitVec.ofInt 64 (a.toInt * b.toInt / 2 ^ 64))
  | .mulhu u f => some (u, f, 3, fun a b => BitVec.ofNat 64 (a.toNat * b.toNat / 2 ^ 64))
  | .mulw u f => some (u, f, 3, fun a b => word32 (a.toNat * b.toNat))
  | .pack u f => some (u, f, 1, fun a b =>
      let n := f.aux.toNat % 64
      (b <<< n) ||| (a &&& BitVec.ofNat 64 (2 ^ n - 1)))
  | .lea u f => some (u, f, 1, fun a b => BitVec.ofNat 64 (a.toNat + b.toNat * 2 ^ (f.aux.toNat % 8)))
  | _ => none

/-- The one-operand operations: slot, fields, latency, and what the spec says of the result x of an operand a (R109, R110,
R111). -/
def oneOperand : Instr → Option (SlotS × FieldS × Nat × (W64 → W64 → Prop))
  | .clz u f => some (u, f, 2, fun a x =>
      x.toNat ≤ 64 ∧ (∀ i, 64 - x.toNat ≤ i → a.getLsbD i = false) ∧ (x.toNat < 64 → a.getLsbD (63 - x.toNat) = true))
  | .ctz u f => some (u, f, 2, fun a x =>
      x.toNat ≤ 64 ∧ (∀ i, i < x.toNat → a.getLsbD i = false) ∧ (x.toNat < 64 → a.getLsbD x.toNat = true))
  | .popc u f => some (u, f, 2, fun a x => x.toNat = ((List.range 64).filter fun i => a.getLsbD i).length)
  | .bswap u f => some (u, f, 2, fun a x =>
      ∀ j, j < 8 → x.extractLsb' (8 * (7 - j)) 8 = a.extractLsb' (8 * j) 8)
  | .sext u f => some (u, f, 1, fun a x =>
      ∀ i, i < 64 → x.getLsbD i = a.getLsbD (min i (f.aux.toNat % 64)))
  | .zext u f => some (u, f, 1, fun a x =>
      ∀ i, i < 64 → x.getLsbD i = (decide (i ≤ f.aux.toNat % 64) && a.getLsbD i))
  | .mov u f => some (u, f, 1, fun a x => x = a)
  | _ => none

/-- The divisions: slot, fields, the operand width, signed or not, quotient or remainder (R108). -/
def division : Instr → Option (SlotS × FieldS × Nat × Bool × Bool)
  | .div u f => some (u, f, 64, true, true)
  | .divu u f => some (u, f, 64, false, true)
  | .rem u f => some (u, f, 64, true, false)
  | .remu u f => some (u, f, 64, false, false)
  | .divw u f => some (u, f, 32, true, true)
  | .remw u f => some (u, f, 32, true, false)
  | _ => none

/-- What R108 says of a division: the integers that the operands stand for, with a corner case apart, determine the result, which
is extended to 64 bits, and the status bits. -/
def DivisionResult (w : Nat) (signed quo : Bool) (a b x : W64) (status : BitVec 8) : Prop :=
  let p : Int := if signed then ((a.truncate w).toInt) else (a.truncate w).toNat
  let q : Int := if signed then ((b.truncate w).toInt) else (b.truncate w).toNat
  let ext (z : Int) : W64 := if w = 32 then word32 z else BitVec.ofInt 64 z
  if q = 0 then x = ext (if quo then -1 else p) ∧ status = 0x20
  else if signed = true ∧ p = -(2 ^ (w - 1) : Int) ∧ q = -1 then x = ext (if quo then p else 0) ∧ status = 0x40
  else x = ext (if quo then p.tdiv q else p.tmod q) ∧ status = 0

/-! ## Terms of the V and F classes -/

/-- The V-class operations, and the F-class ones in vector mode: fields, occupancy, predicate (R59 Table 9, R129, R165). -/
def vectorOperation : Instr → Option (VectorFields × Nat × BitVec 4 × Bool)
  | .vadd u f | .vsub u f | .vmul u f | .vmulh u f | .vfma u f | .vfms u f | .vfnma u f | .vmin u f | .vmax u f | .vabs u f
  | .vneg u f | .vsadd u f | .vssub u f | .vand u f | .vor u f | .vxor u f | .vandn u f | .vnot u f | .vshl u f | .vshr u f
  | .vsar u f | .vcmp u f | .vsel u f | .vcvt u f | .vpack u f | .vunpk u f | .vdot4 u f | .vdot2 u f | .vclz u f
  | .vpopc u f | .vrotr u f | .vbcr u f | .vredr u f | .vscanr u f | .vshuf u f | .vvote u f | .vmov u f | .vput u f =>
    some (fieldsV u f 0, f.rn.toNat + 1, f.pf, f.pn)
  | .viota u f => some (fieldsV u f (f.aux.toNat % 8), f.rn.toNat + 1, f.pf, f.pn)
  | .vkmov u f => some (fieldsV u f (f.aux.toNat / 2 % 8), f.rn.toNat + 1, f.pf, f.pn)
  | .vdiv u f | .vrem u f => some (fieldsV u f 0, 8 * (f.rn.toNat + 1), f.pf, f.pn)
  | .vrotc u f | .vbcc u f | .vredc u f | .vscanc u f => some (fieldsV u f 0, 16, f.pf, f.pn)
  | .rcp f | .rsq f | .sqrt f | .exp2 f | .log2 f | .sinp f | .cosp f | .tanh f | .sigm f | .bnet f | .pdep f | .pext f
  | .bperm f | .gfmm f | .keccak f | .crcc f =>
    if vmF f then some (fieldsF f, (fieldsF f).rn + 1, f.pf, f.pn) else none
  | _ => none

/-- What a vector operation reads at its issue beside its sources (R45, R55). -/
def vectorInputs (s : State) (e : Env) (v : VectorFields) : VecIn :=
  { frm := (s.readCsr e.k e.t (v.slot * 4) 0x003).toNat
    mask := if v.slot = 5 then s.readLmask e.k e.t (v.slot * 4 + 3) else laneMask s e v.slot v.ks
    kaux := s.readK e.k e.t (v.slot * 4 + 2) v.kaux }

/-- Row row of a source as a row-axis operation reads it at t (R153); place 0, 1 or 2 for A, B, C. -/
def axisRow (s : State) (e : Env) (v : VectorFields) (type place : Nat) (sel : BitVec 6) (row : Nat) : Row :=
  sourceRow s e.k e.t (v.slot * 4 + place) (vectorOperand s e v.slot place type sel) row

/-- Row row of a source as a lane-wise operation reads it (R55). -/
def laneRow (s : State) (e : Env) (v : VectorFields) (type place : Nat) (sel : BitVec 6) (row : Nat) : Row :=
  sourceRow s e.k e.t (64 + v.slot * 4 + place) (vectorOperand s e v.slot place type sel) row

/-- A result row: the latch row from t + lat on and, unless WS = 1, the lanes of m of the register row from t + lat + 1 on,
with the status bits (R45, R55, R100). -/
def rowLands (e : Env) (v : VectorFields) (lat row : Nat) (latchRow : Row) (m : W64) (value : Row) (st : Status) :
    List (Nat × Landing) :=
  (e.t + lat, .latchV (vectorLatch v.slot) row latchRow) ::
    ((if v.ws then [] else [(e.t + lat + 1, .vrow v.dst row m value)])
      ++ if st = 0 then [] else [(e.t + lat + 1, .status v.slot st)])

/-- A mask result, unless WS = 1 (R142, R156). -/
def maskLands (e : Env) (v : VectorFields) (lat : Nat) (m bits : W64) : List (Nat × Landing) :=
  if v.ws then [] else [(e.t + lat + 1, .kmask (v.dst % 8) m bits)]

/-- The vector operation under way after its row 0: it reads row 1 at t + 1 (R55). -/
def rowTask (i : Instr) (s : State) (e : Env) (v : VectorFields) (form : VectorForm) (kept : List (Row × Row)) (acc : W64) :
    RowTask :=
  { due := e.t + 1, issued := e.t, slot := v.slot, k := 1, instr := i, rb := v.rb, rn := v.rn, lat := form.lat
    step := form.step, result := form.result, dst := v.dst, ws := v.ws, inp := vectorInputs s e v
    srcA := vectorOperand s e v.slot 0 form.typeA v.opa, srcB := vectorOperand s e v.slot 1 form.typeA v.opb
    srcC := vectorOperand s e v.slot 2 form.typeC v.opc, kept := kept, acc := acc, pat := patWords s e.k e.t i
    contested := [] }

/-- The bundle e has issued one vector operation: some results are in flight, and it may have rows left to read; nothing else
changes but the PC, the counters, the issue stage and the slot's occupancy. -/
structure Streams (s t : State) (e : Env) (slot occ : Nat) (lands : List (Nat × Landing)) (task : List RowTask) : Prop where
  only : OnlyAt s t e.k e.core
  ctx : ∃ pmc rows, SameRows rows (s.ctx e.k).rows ∧
    t.ctx e.k = { (s.ctx e.k).issued e pmc with pending := joined (s.ctx e.k).pending e slot lands, rows := rows ++ task }
  core : t.core e.core = (s.core e.core).issued e slot occ 1

/-- What a row result of a task puts in flight: the latch row at lat cycles after the issue and, unless WS = 1, the lanes of m of the
register row one cycle later, with the status bits; contested lanes are those that a later-issued write has overtaken (R55, R56). -/
def taskRow (r : RowTask) (lat row : Nat) (contested : W64) (x : Row × Status) : List Pending :=
  ([{ due := r.issued + lat, issued := r.issued, slot := r.slot, contested := 0
      what := .latchV (vectorLatch r.slot) row x.1 }] : List Pending)
    ++ (if r.ws then ([] : List Pending) else
      [{ due := r.issued + lat + 1, issued := r.issued, slot := r.slot, contested := contested
         what := .vrow r.dst row r.inp.mask x.1 }])
    ++ (if x.2 = 0 then ([] : List Pending) else
      [{ due := r.issued + lat + 1, issued := r.issued, slot := r.slot, contested := 0, what := .status r.slot x.2 }])

/-- Row row of the source of a task, as it reads it now. -/
def taskSource (s : State) (k : Nat) (r : RowTask) (place : Nat) (src : VSource) : Row :=
  sourceRow s k r.issued (64 + r.slot * 4 + place) src (r.rb + r.k)

/-- The conditions of Table 9 (R142), of whether either sub-element is a NaN, the first is less, or greater. -/
def vectorCondition (cond : Nat) (nan lt gt : Bool) : Bool :=
  match cond with
  | 0 => !nan && !lt && !gt
  | 1 => nan || lt || gt
  | 2 => !nan && lt
  | 3 => !nan && !lt
  | 4 => !nan && !gt
  | 5 => !nan && gt
  | 6 => nan
  | _ => !nan

/-- A condition of two sub-elements of an element type; UB reads ET 7 as unsigned (R142). -/
def subCondition (cond et : Nat) (ub : Bool) (x y : Nat) : Bool :=
  let w := subWidth et
  if etFloat et then
    let p := floatDecode (etFormat et) x
    let q := floatDecode (etFormat et) y
    vectorCondition cond (p.isNan || q.isNan) (p.lt q) (q.lt p)
  else
    let int (z : Nat) : Int := if etSigned et && !ub then signedOf w z else (z : Nat)
    vectorCondition cond false (decide (int x < int y)) (decide (int y < int x))

/-- The row-axis operations with one result row for each window row: slot, fields, latency, function of a row (R154, R155, R159). -/
def rowAxisOperation : Instr → Option (SlotV × FieldV × Nat × (VecIn → Row → Row → Row → Row × Status))
  | .vrotr u f => some (u, f, 3, rowRotr)
  | .vbcr u f => some (u, f, 3, rowBcr)
  | .vshuf u f => some (u, f, 4, rowShuf)
  | .vscanr u f => some (u, f, 8, rowScan (f.aux.toNat % 8) f.et.toNat (f.aux.getLsbD 3))
  | _ => none

/-- The column-axis operations: slot, fields, latency, cycles between result rows, function of the sixteen rows (R160 to R163). -/
def columnOperation : Instr → Option (SlotV × FieldV × Nat × Nat × (VecIn → List Row → List Row → List (Row × Status)))
  | .vrotc u f => some (u, f, 18, 1, colMove false)
  | .vbcc u f => some (u, f, 18, 1, colMove true)
  | .vredc u f => some (u, f, 20, 0, fun i as _ => colReduce (f.aux.toNat % 8) f.et.toNat i as)
  | .vscanc u f => some (u, f, 18, 1, fun i as _ => colScan (f.aux.toNat % 8) f.et.toNat (f.aux.getLsbD 3) i as)
  | _ => none

/-- The fixed tree of n levels: adjacent places combined (R158, R162). -/
def tree (f : W32 → W32 → W32) : Nat → (Nat → W32) → W32
  | 0, x => x 0
  | n + 1, x => f (tree f n x) (tree f n fun i => x (2 ^ n + i))

/-- The integer operations on sub-elements (R134, R139, R140, R144, R150): slot, fields, latency, and the result as an integer,
taken modulo 2^w, of the width w and of the three sub-elements as integers of their type. -/
def subElementOperation : Instr → Option (SlotV × FieldV × Nat × (Nat → Int → Int → Int → Int))
  | .vadd u f => some (u, f, 2, fun _ a b _ => a + b)
  | .vsub u f => some (u, f, 2, fun _ a b _ => a - b)
  | .vmul u f => some (u, f, 3, fun _ a b _ => a * b)
  | .vmulh u f => some (u, f, 3, fun w a b _ => a * b / 2 ^ w)
  | .vmin u f => some (u, f, 2, fun _ a b _ => min a b)
  | .vmax u f => some (u, f, 2, fun _ a b _ => max a b)
  | .vneg u f => some (u, f, 2, fun _ a _ _ => -a)
  | .vabs u f => some (u, f, 2, fun _ a _ _ => a.natAbs)
  | .vshl u f => some (u, f, 2, fun w a b _ => a * 2 ^ (b % w).toNat)
  | .vshr u f => some (u, f, 2, fun w a b _ => a % 2 ^ w / 2 ^ (b % w).toNat)
  | .vsel u f => some (u, f, 2, fun _ a b c => if c ≠ 0 then a else b)
  | .vmov u f => some (u, f, 2, fun _ a _ _ => a)
  | _ => none

/-- The number of one bits of b below bit i. -/
def onesBelow (b : W64) (i : Nat) : Nat := ((List.range i).filter fun j => b.getLsbD j).length
/-- A product in GF(2^8): the shifted multiplicands of y's one bits added, and bits 14 to 8 reduced by the polynomial (R178). -/
def gmul (poly x y : Nat) : Nat :=
  let p := (List.range 8).foldl (fun p i => if y.testBit i then p ^^^ (x * 2 ^ i) else p) 0
  (List.range 7).foldl (fun p i => if p.testBit (14 - i) then p ^^^ (poly * 2 ^ (6 - i)) else p) p % 256
/-- Bit i of the carry-less product: the parity of the pairs of one bits whose places add up to i (R178). -/
def clmulBit (a b : W64) (i : Nat) : Bool :=
  ((List.range (i + 1)).filter fun j => a.getLsbD j && b.getLsbD (i - j)).length % 2 = 1
/-- n bytes of data, in ascending order, fed into a reflected CRC (R179). -/
def crc (poly n start data : Nat) : Nat :=
  (List.range n).foldl (fun x i =>
    (List.range 8).foldl (fun x _ => if x % 2 = 1 then (x / 2) ^^^ poly else x / 2) (x ^^^ (data / 256 ^ i % 256))) start

/-! ## Values of the vector operations -/

/-- A result with NV raised beside its status where a condition holds (R131). -/
def withNv (b : Bool) (r : Nat × Status) : Nat × Status := (r.1, (if b then Status.nv else 0) ||| r.2)
/-- An exact number rounded once to a format, as FRM says; a NaN is canonical (R131). -/
def rounded (fmt : FloatFormat) (frm : Nat) : FloatNum → Nat × Status
  | .nan _ => (floatNan fmt, 0)
  | .inf n => (floatInf fmt n, 0)
  | .fin n m e => floatRound fmt frm n m e false
/-- The sum of two numbers, exact and then rounded once; ∞ - ∞ is invalid; an exact 0 of unlike signs is +0, or -0 toward -∞ (R131). -/
def roundedSum (fmt : FloatFormat) (frm : Nat) : FloatNum → FloatNum → Nat × Status
  | .nan _, _ => (floatNan fmt, 0)
  | _, .nan _ => (floatNan fmt, 0)
  | .inf a, .inf b => if a = b then (floatInf fmt a, 0) else (floatNan fmt, Status.nv)
  | .inf a, .fin _ _ _ => (floatInf fmt a, 0)
  | .fin _ _ _, .inf b => (floatInf fmt b, 0)
  | .fin g m e, .fin g' m' e' =>
    let low := min e e'
    let signed (g : Bool) (m : Nat) (e : Int) : Int := (if g then -1 else 1) * (m * 2 ^ (e - low).toNat : Nat)
    let z := signed g m e + signed g' m' e'
    if z = 0 then (floatZero fmt (if g = g' then g else frm = 2), 0) else floatRound fmt frm (z < 0) z.natAbs low false
/-- The exact product of two numbers; 0 × ∞ is no number (R131). -/
def product : FloatNum → FloatNum → FloatNum
  | .nan _, _ => .nan false
  | _, .nan _ => .nan false
  | .inf a, .inf b => .inf (a != b)
  | .inf a, .fin b m _ => if m = 0 then .nan false else .inf (a != b)
  | .fin a m _, .inf b => if m = 0 then .nan false else .inf (a != b)
  | .fin g m e, .fin g' m' e' => .fin (g != g') (m * m') (e + e')
/-- A number of the other sign. -/
def opposite : FloatNum → FloatNum
  | .nan s => .nan s
  | .inf n => .inf !n
  | .fin n m e => .fin (!n) m e
/-- Whether a product is 0 × ∞. -/
def zeroTimesInf (p q : FloatNum) : Bool := (product p q).isNan && !p.isNan && !q.isNan

/-- The range of an integer type of w bits. -/
def intRange (signed : Bool) (w : Nat) : Int × Int := if signed then (-2 ^ (w - 1), 2 ^ (w - 1) - 1) else (0, 2 ^ w - 1)
/-- An integer clamped to a range, modulo 2^w, with SAT on a clamp (R132). -/
def clamped (w : Nat) (range : Int × Int) (z : Int) : Nat × Status :=
  ((max range.1 (min range.2 z) % 2 ^ w).toNat, if z < range.1 ∨ range.2 < z then Status.sat else 0)
/-- A quotient or remainder with its corner cases (R137). -/
def divided (rem signed : Bool) (w : Nat) (x : Nat) (p q : Int) : Nat × Status :=
  if q = 0 then (if rem then x else 2 ^ w - 1, Status.idz)
  else if signed = true ∧ p = -2 ^ (w - 1) ∧ q = -1 then (if rem then 0 else 2 ^ (w - 1), Status.iov)
  else (((if rem then p.tmod q else p.tdiv q) % 2 ^ w).toNat, 0)
/-- A float rounded to an integer of a range (R146; that NX stands beside NV is the model's reading, log entry 93). -/
def toInteger (frm w : Nat) (range : Int × Int) : FloatNum → Nat × Status
  | .nan _ => (0, Status.nv)
  | .inf n => (((if n then range.1 else range.2) % 2 ^ w).toNat, Status.nv)
  | .fin n m e =>
    let r := roundAt frm n m e 0 false
    let z : Int := if n then -(r.1 : Int) else r.1
    ((max range.1 (min range.2 z) % 2 ^ w).toNat,
      (if z < range.1 ∨ range.2 < z then Status.nv else 0) ||| (if r.2 then Status.nx else 0))
/-- The smaller or the greater of two numbers, -0 below +0, and the other one of a NaN (R135). -/
def lesser (fmt : FloatFormat) (max : Bool) (x y : Nat) : Nat :=
  let p := floatDecode fmt x
  let q := floatDecode fmt y
  if p.isNan && q.isNan then floatNan fmt
  else if p.isNan then y
  else if q.isNan then x
  else if (p.lt q || (!q.lt p && x.testBit (fmt.ebits + fmt.mbits))) != max then x else y

/-- The sub-elements of a result element, each modulo 2^w, and its status, which is that of all of them (R129). -/
def subs (w : Nat) (f : Nat → Nat × Status) (x : W32) (st : Status) : Prop :=
  (∀ j, j < 32 / w → subOf w x j = (f j).1 % 2 ^ w) ∧
    ∀ i, st.getLsbD i = true ↔ ∃ j, j < 32 / w ∧ (f j).2.getLsbD i = true
/-- A result element that raises nothing. -/
def isJust (y x : W32) (st : Status) : Prop := x = y ∧ st = 0

/-- The lane-wise operations whose rows the spec gives lane by lane (R134 to R141, R144 to R149, R152, R165, R174, R176 to R179): the types
of OPA, OPB and of OPC, the latency, the cycles between rows, and what holds of lane l of a result and its status, of the lanes of the
sources. pat reads the pattern tables. -/
def laneValue (pat : Nat → Nat → Byte) :
    Instr → Option (Nat × Nat × Nat × Nat × (VecIn → Nat → W32 → W32 → W32 → W32 → Status → Prop)) := fun instr =>
  let num (et : Nat) (x : W32) (j : Nat) : FloatNum := floatDecode (etFormat et) (subOf (subWidth et) x j)
  let int (et : Nat) (x : W32) (j : Nat) : Int :=
    if etSigned et then signedOf (subWidth et) (subOf (subWidth et) x j) else (subOf (subWidth et) x j : Nat)
  let fused (f : FieldV) (np nc : Bool) : Nat × Nat × Nat × Nat × (VecIn → Nat → W32 → W32 → W32 → W32 → Status → Prop) :=
    let et := f.et.toNat
    (et, et, 4, 1, fun i _ a b c => subs (subWidth et) fun j =>
      let (p, q, r) := (num et a j, num et b j, num et c j)
      withNv (zeroTimesInf p q || p.isSignalling || q.isSignalling || r.isSignalling)
        (roundedSum (etFormat et) i.frm (if np then opposite (product p q) else product p q) (if nc then opposite r else r)))
  let floats (f : FieldV) (op : Nat → FloatNum → FloatNum → Nat × Status) :=
    let et := f.et.toNat
    if etFloat et then
      some (et, et, 4, 1, fun (i : VecIn) (_ : Nat) (a b _ : W32) => subs (subWidth et) fun j =>
        let (p, q) := (num et a j, num et b j)
        withNv (p.isSignalling || q.isSignalling) (op i.frm p q))
    else none
  let extreme (f : FieldV) (max : Bool) :=
    let et := f.et.toNat
    if etFloat et then
      some (et, et, 4, 1, fun (_ : VecIn) (_ : Nat) (a b _ : W32) => subs (subWidth et) fun j =>
        withNv ((num et a j).isSignalling || (num et b j).isSignalling)
          (lesser (etFormat et) max (subOf (subWidth et) a j) (subOf (subWidth et) b j), 0))
    else none
  let sign (f : FieldV) (g : Nat → Nat → Nat) :=
    let et := f.et.toNat
    if etFloat et then
      some (et, et, 4, 1, fun (_ : VecIn) (_ : Nat) (a _ _ : W32) => subs (subWidth et) fun j =>
        withNv (num et a j).isSignalling
          (if (num et a j).isNan then floatNan (etFormat et) else g (2 ^ (subWidth et - 1)) (subOf (subWidth et) a j), 0))
    else none
  let word (f : FieldV) (g : W32 → W32 → W32) :=
    some (f.et.toNat, f.et.toNat, 2, 1, fun (_ : VecIn) (_ : Nat) (a b _ : W32) => isJust (g a b))
  let unary (f : FieldF) (lat : Nat) (g : Nat → W32 → W32 × Status) :=
    if vmF f then some (2, 2, lat, 1, fun (i : VecIn) (_ : Nat) (a _ _ x : W32) (st : Status) => (x, st) = g i.frm a) else none
  let bits (f : FieldF) (lat : Nat) (rel : W32 → W32 → W32 → Prop) :=
    if vmF f then some (0, 0, lat, 1, fun (_ : VecIn) (_ : Nat) (a b _ x : W32) (st : Status) => rel a b x ∧ st = 0) else none
  match instr with
  | .vadd _ f => floats f fun frm p q => roundedSum (etFormat f.et.toNat) frm p q
  | .vsub _ f => floats f fun frm p q => roundedSum (etFormat f.et.toNat) frm p (opposite q)
  | .vmul _ f => floats f fun frm p q => withNv (zeroTimesInf p q) (rounded (etFormat f.et.toNat) frm (product p q))
  | .vfma _ f => some (fused f false false)
  | .vfms _ f => some (fused f false true)
  | .vfnma _ f => some (fused f true false)
  | .vmin _ f => extreme f false
  | .vmax _ f => extreme f true
  | .vabs _ f => sign f fun top x => x % top
  | .vneg _ f => sign f fun top x => x ^^^ top
  | .vsadd _ f =>
    let et := f.et.toNat
    some (et, et, 2, 1, fun _ _ a b _ => subs (subWidth et) fun j =>
      clamped (subWidth et) (intRange (etSigned et) (subWidth et)) (int et a j + int et b j))
  | .vssub _ f =>
    let et := f.et.toNat
    some (et, et, 2, 1, fun _ _ a b _ => subs (subWidth et) fun j =>
      clamped (subWidth et) (intRange (etSigned et) (subWidth et)) (int et a j - int et b j))
  | .vdiv _ f =>
    let et := f.et.toNat
    some (et, et, 12, 8, fun _ _ a b _ => subs (subWidth et) fun j =>
      divided false (etSigned et) (subWidth et) (subOf (subWidth et) a j) (int et a j) (int et b j))
  | .vrem _ f =>
    let et := f.et.toNat
    some (et, et, 12, 8, fun _ _ a b _ => subs (subWidth et) fun j =>
      divided true (etSigned et) (subWidth et) (subOf (subWidth et) a j) (int et a j) (int et b j))
  | .vand _ f => word f fun a b => a &&& b
  | .vor _ f => word f fun a b => a ||| b
  | .vxor _ f => word f fun a b => a ^^^ b
  | .vandn _ f => word f fun a b => a &&& ~~~b
  | .vnot _ f => word f fun a _ => ~~~a
  | .vsar _ f =>
    let w := subWidth f.et.toNat
    some (f.et.toNat, f.et.toNat, 2, 1, fun _ _ a b _ => subs w fun j =>
      ((signedOf w (subOf w a j) / 2 ^ (subOf w b j % w) % 2 ^ w).toNat, 0))
  | .vclz _ f =>
    let w := subWidth f.et.toNat
    some (f.et.toNat, f.et.toNat, 2, 1, fun _ _ a _ _ x st => st = 0 ∧ ∀ j, j < 32 / w →
      let n := subOf w x j
      n ≤ w ∧ (∀ i, i < w → w - n ≤ i → (subOf w a j).testBit i = false) ∧ (n < w → (subOf w a j).testBit (w - 1 - n) = true))
  | .vpopc _ f =>
    let w := subWidth f.et.toNat
    some (f.et.toNat, f.et.toNat, 2, 1, fun _ _ a _ _ => subs w fun j =>
      (((List.range w).filter fun i => (subOf w a j).testBit i).length, 0))
  | .vcvt _ f =>
    let dst := f.et.toNat
    let src := f.aux.toNat % 8
    let w := subWidth dst
    some (src, dst, 4, 1, fun i _ a _ _ => subs w fun j =>
      let x := subOf w a j
      let p := floatDecode (etFormat src) x
      let z : Int := if etSigned src then signedOf w x else (x : Nat)
      if etFloat src && etFloat dst then withNv p.isSignalling (rounded (etFormat dst) i.frm p)
      else if etFloat src then toInteger i.frm w (intRange (etSigned dst) w) p
      else if etFloat dst then floatRound (etFormat dst) i.frm (z < 0) z.natAbs 0 false
      else clamped w (intRange (etSigned dst) w) z)
  | .vpack _ f =>
    let et := f.et.toNat
    let wide : Bool := !f.aux.getLsbD 0
    some (if etFloat et then 2 else if et = 7 then 3 else 0, et, 3, 1, fun i _ a b _ =>
      if etFloat et then subs 16 fun j =>
        let p := floatDecode .binary32 (if j = 0 then a else b).toNat
        withNv p.isSignalling (rounded (etFormat et) i.frm p)
      else if et = 7 then subs 8 fun j =>
        let x := subOf 16 (if j < 2 then a else b) (j % 2)
        clamped 8 (intRange (!f.aux.getLsbD 1) 8) (if wide then signedOf 16 x else (x : Nat))
      else subs 16 fun j =>
        let x := (if j = 0 then a else b).toNat
        clamped 16 (intRange (etSigned et) 16) (if wide then signedOf 32 x else (x : Nat)))
  | .vunpk _ f =>
    let et := f.et.toNat
    let half := f.aux.toNat % 2
    some (et, et, 3, 1, fun _ _ a _ _ =>
      if etFloat et then subs 32 fun _ =>
        let p := floatDecode (etFormat et) (subOf 16 a half)
        withNv p.isSignalling (rounded .binary32 0 p)
      else if et = 7 then subs 16 fun j =>
        let x := subOf 8 a (2 * half + j)
        (((if f.aux.getLsbD 1 then (x : Int) else signedOf 8 x) % 2 ^ 16).toNat, 0)
      else isJust (BitVec.ofInt 32 (if etSigned et then signedOf 16 (subOf 16 a half) else (subOf 16 a half : Nat))))
  | .vdot4 _ f =>
    some (f.et.toNat, 0, 3, 1, fun _ _ a b c =>
      let byte (unsigned : Bool) (x : W32) (j : Nat) : Int := if unsigned then (subOf 8 x j : Nat) else signedOf 8 (subOf 8 x j)
      let term (j : Nat) : Int := byte (f.aux.getLsbD 0) a j * byte (f.aux.getLsbD 1) b j
      isJust (BitVec.ofInt 32 (c.toNat + (term 0 + term 1 + term 2 + term 3))))
  | .vdot2 _ f =>
    let et := f.et.toNat
    some (et, 0, 3, 1, fun _ _ a b c =>
      let half (x : W32) (j : Nat) : Int := if etSigned et then signedOf 16 (subOf 16 x j) else (subOf 16 x j : Nat)
      isJust (BitVec.ofInt 32 (c.toNat + (half a 0 * half b 0 + half a 1 * half b 1))))
  | .viota _ f =>
    some (f.et.toNat, 0, 2, 1, fun i l a _ _ =>
      isJust (a + BitVec.ofNat 32 ((List.range l).filter fun j => i.kaux.getLsbD j && i.mask.getLsbD j).length))
  | .vkmov _ f =>
    if f.aux.getLsbD 0 then none
    else some (0, 0, 2, 1, fun i l _ _ _ => isJust (if i.kaux.getLsbD l then 0xFFFFFFFF else 0))
  | .rcp f => unary f 6 fnRcp
  | .rsq f => unary f 6 fun _ => fnRsq
  | .sqrt f => unary f 6 fnSqrt
  | .exp2 f => unary f 8 fun _ => fnExp2
  | .log2 f => unary f 8 fun _ => fnLog2
  | .sinp f => unary f 10 fun _ => fnSinp
  | .cosp f => unary f 10 fun _ => fnCosp
  | .tanh f => unary f 10 fun _ => fnTanh
  | .sigm f => unary f 10 fun _ => fnSigm
  | .bnet f => bits f 2 fun a b x => ∀ i, i < 32 →
      let entry := (pat (b.toNat % 8) i).toNat
      x.getLsbD i = ((!entry.testBit 7 && a.getLsbD (i ^^^ (entry % 32))) != entry.testBit 6)
  | .pdep f => bits f 3 fun a b x => ∀ i, i < 32 → x.getLsbD i = (b.getLsbD i && a.getLsbD (onesBelow (b.zeroExtend 64) i))
  | .pext f => bits f 3 fun a b x =>
      (∀ i, i < 32 → b.getLsbD i = true → x.getLsbD (onesBelow (b.zeroExtend 64) i) = a.getLsbD i) ∧
      ∀ i, onesBelow (b.zeroExtend 64) 32 ≤ i → x.getLsbD i = false
  | .bperm f => bits f 3 fun a b x => ∀ i, i < 4 →
      subOf 8 x i = if b.getLsbD (4 * i + 3) then 0 else subOf 8 a (b.toNat / 2 ^ (4 * i) % 4)
  | .gfmm f => bits f 3 fun a b x => ∀ i, i < 4 → subOf 8 x i = gmul 0x11B (subOf 8 a i) (subOf 8 b i)
  | .crcc f => bits f 3 fun a b x => x.toNat = crc 0x82F63B78 4 a.toNat b.toNat
  | _ => none

/-- The scalar mode of the F-class operations (R165, R169, R173, R175 to R180): fields, latency, and the result and status as a
function of FRM, the pattern tables and the two sources. -/
def scalarFunction : Instr → Option (FieldF × Nat × (Nat → (Nat → Nat → Byte) → W64 → W64 → W64 × Status))
  | .rcp f => some (f, 6, fun m _ a _ => ((fnRcp m (low32 a)).1.zeroExtend 64, (fnRcp m (low32 a)).2))
  | .rsq f => some (f, 6, fun _ _ a _ => ((fnRsq (low32 a)).1.zeroExtend 64, (fnRsq (low32 a)).2))
  | .sqrt f => some (f, 6, fun m _ a _ => ((fnSqrt m (low32 a)).1.zeroExtend 64, (fnSqrt m (low32 a)).2))
  | .exp2 f => some (f, 8, fun _ _ a _ => ((fnExp2 (low32 a)).1.zeroExtend 64, (fnExp2 (low32 a)).2))
  | .log2 f => some (f, 8, fun _ _ a _ => ((fnLog2 (low32 a)).1.zeroExtend 64, (fnLog2 (low32 a)).2))
  | .sinp f => some (f, 10, fun _ _ a _ => ((fnSinp (low32 a)).1.zeroExtend 64, (fnSinp (low32 a)).2))
  | .cosp f => some (f, 10, fun _ _ a _ => ((fnCosp (low32 a)).1.zeroExtend 64, (fnCosp (low32 a)).2))
  | .tanh f => some (f, 10, fun _ _ a _ => ((fnTanh (low32 a)).1.zeroExtend 64, (fnTanh (low32 a)).2))
  | .sigm f => some (f, 10, fun _ _ a _ => ((fnSigm (low32 a)).1.zeroExtend 64, (fnSigm (low32 a)).2))
  | _ => none

/-- The scalar mode of the bit functions (R174, R176 to R179): fields, latency, and what holds of the result x of the pattern tables
and the sources a and b. -/
def bitFunction : Instr → Option (FieldF × Nat × ((Nat → Nat → Byte) → W64 → W64 → W64 → Prop))
  | .pdep f => some (f, 3, fun _ a b x =>
      ∀ i, i < 64 → x.getLsbD i = (b.getLsbD i && a.getLsbD (onesBelow b i)))
  | .pext f => some (f, 3, fun _ a b x =>
      (∀ i, i < 64 → b.getLsbD i = true → x.getLsbD (onesBelow b i) = a.getLsbD i) ∧
      ∀ i, onesBelow b 64 ≤ i → x.getLsbD i = false)
  | .bperm f => some (f, 3, fun _ a b x =>
      ∀ i, i < 8 → x.extractLsb' (8 * i) 8 =
        if b.getLsbD (4 * i + 3) then 0 else a.extractLsb' (8 * (b.toNat / 2 ^ (4 * i) % 8)) 8)
  | .crcc f => some (f, 3, fun _ a b x =>
      x.toNat = crc (if f.aux.getLsbD 2 then 0xEDB88320 else 0x82F63B78) (2 ^ (f.aux.toNat % 4)) (a.toNat % 2 ^ 32) b.toNat)
  | .gfmm f => some (f, 3, fun _ a b x =>
      let mode := f.aux.toNat % 8
      (mode < 2 → ∀ i, i < 8 →
        x.toNat / 256 ^ i % 256 = gmul (if mode = 0 then 0x11B else 0x11D) (a.toNat / 256 ^ i % 256) (b.toNat / 256 ^ i % 256)) ∧
      (mode = 2 ∨ mode = 3 → ∀ i, i < 64 → x.getLsbD i = clmulBit a b (i + if mode = 3 then 64 else 0)))
  | .bnet f => some (f, 2, fun pat a _ x => ∀ i, i < 64 →
      let entry := (pat (f.aux.toNat % 8) i).toNat
      x.getLsbD i = ((!entry.testBit 7 && a.getLsbD (i ^^^ (entry % 64))) != entry.testBit 6))
  | _ => none

/-! ## Values of the elementary functions and of keccak -/

/-- A finite number in units of 2^-1000, which hold every binary32 number exactly; 0 for the others. -/
def scaled : FloatNum → Int
  | .fin n m e => (if n then -1 else 1) * (m * 2 ^ (e + 1000).toNat : Nat)
  | _ => 0
/-- A binary32 pattern stands for a finite number, which is x times 2^-1 (R171). -/
def halves (p : W32) (x : Int) : Prop :=
  (∃ n m e, floatDecode .binary32 p.toNat = .fin n m e) ∧ scaled (floatDecode .binary32 p.toNat) * 2 = x * 2 ^ 1000
/-- A binary32 pattern stands for a finite number below 0. -/
def negative (p : W32) : Prop := ∃ m e, floatDecode .binary32 p.toNat = .fin true m e ∧ m ≠ 0

/-- The special and exact cases of R171 Table 3, and of a NaN. -/
structure SpecialCases : Prop where
  nan : ∀ frm (x : W32) s, floatDecode .binary32 x.toNat = .nan s →
    ∀ y ∈ [fnRcp frm x, fnRsq x, fnSqrt frm x, fnExp2 x, fnLog2 x, fnSinp x, fnCosp x, fnTanh x, fnSigm x],
      y = (0x7FC00000, if s then Status.nv else 0)
  rcp : ∀ frm, fnRcp frm 0 = (0x7F800000, Status.dz) ∧ fnRcp frm 0x80000000 = (0xFF800000, Status.dz) ∧
    fnRcp frm 0x7F800000 = (0, 0) ∧ fnRcp frm 0xFF800000 = (0x80000000, 0)
  rsq : fnRsq 0 = (0x7F800000, Status.dz) ∧ fnRsq 0x80000000 = (0xFF800000, Status.dz) ∧ fnRsq 0x7F800000 = (0, 0) ∧
    fnRsq 0xFF800000 = (0x7FC00000, Status.nv) ∧ ∀ x, negative x → fnRsq x = (0x7FC00000, Status.nv)
  sqrt : ∀ frm, fnSqrt frm 0 = (0, 0) ∧ fnSqrt frm 0x80000000 = (0x80000000, 0) ∧ fnSqrt frm 0x7F800000 = (0x7F800000, 0) ∧
    fnSqrt frm 0xFF800000 = (0x7FC00000, Status.nv) ∧ ∀ x, negative x → fnSqrt frm x = (0x7FC00000, Status.nv)
  exp2 : fnExp2 0xFF800000 = (0, 0) ∧ fnExp2 0x7F800000 = (0x7F800000, 0) ∧
    (∀ x (n : Int), -149 ≤ n → n ≤ 127 → halves x (2 * n) →
      (fnExp2 x).2 = 0 ∧ scaled (floatDecode .binary32 (fnExp2 x).1.toNat) = 2 ^ (n + 1000).toNat) ∧
    ∀ x n m e, floatDecode .binary32 x.toNat = .fin n m e →
      (128 * 2 ^ 1000 ≤ scaled (.fin n m e) → fnExp2 x = (0x7F800000, Status.of ||| Status.nx)) ∧
      (scaled (.fin n m e) < -150 * 2 ^ 1000 → fnExp2 x = (0, Status.uf ||| Status.nx))
  log2 : fnLog2 0 = (0xFF800000, Status.dz) ∧ fnLog2 0x80000000 = (0xFF800000, Status.dz) ∧ fnLog2 0x7F800000 = (0x7F800000, 0) ∧
    fnLog2 0xFF800000 = (0x7FC00000, Status.nv) ∧ (∀ x, negative x → fnLog2 x = (0x7FC00000, Status.nv)) ∧
    ∀ (x : W32) (m : Nat) (e : Int), floatDecode .binary32 x.toNat = .fin false (2 ^ m) e →
      (fnLog2 x).2 = 0 ∧ halves (fnLog2 x).1 (2 * (m + e)) ∧ (m + e = 0 → (fnLog2 x).1 = 0)
  sinp : fnSinp 0 = (0, 0) ∧ fnSinp 0x80000000 = (0x80000000, 0) ∧ fnSinp 0x7F800000 = (0x7FC00000, Status.nv) ∧
    fnSinp 0xFF800000 = (0x7FC00000, Status.nv) ∧
    ∀ x (n : Int), (n ≠ 0 → halves x (2 * n) → fnSinp x = (if 0 < n then 0 else 0x80000000, 0)) ∧
      (halves x (2 * n + 1) → fnSinp x = (if n % 2 = 0 then 0x3F800000 else 0xBF800000, 0))
  cosp : fnCosp 0x7F800000 = (0x7FC00000, Status.nv) ∧ fnCosp 0xFF800000 = (0x7FC00000, Status.nv) ∧
    ∀ x (n : Int), (halves x (2 * n) → fnCosp x = (if n % 2 = 0 then 0x3F800000 else 0xBF800000, 0)) ∧
      (halves x (2 * n + 1) → fnCosp x = (0, 0))
  tanh : fnTanh 0 = (0, 0) ∧ fnTanh 0x80000000 = (0x80000000, 0) ∧ fnTanh 0x7F800000 = (0x3F800000, 0) ∧
    fnTanh 0xFF800000 = (0xBF800000, 0)
  sigm : fnSigm 0 = (0x3F000000, 0) ∧ fnSigm 0x80000000 = (0x3F000000, 0) ∧ fnSigm 0x7F800000 = (0x3F800000, 0) ∧
    fnSigm 0xFF800000 = (0, 0)

/-- The bounds of R170 Table 2. rcp and sqrt round once the quotient and the root, given by their leading digits and whether something is
left, as FRM says; rsq rounds the reciprocal root down or up, exp2 a number between 1 and 2 times the power of two of the operand's
integer part, and log2 a number between the integers about the exact one; tanh lies in [-1, 1] and has its operand's sign, sigm lies in
[0, 1], and on its operand's side of one half. -/
structure WithinBounds : Prop where
  rcp : ∀ frm (x : W32) n m e, floatDecode .binary32 x.toNat = .fin n m e → m ≠ 0 →
    ∃ k q : Nat, 2 ^ 25 ≤ q ∧ q * m ≤ 2 ^ k ∧ 2 ^ k < (q + 1) * m ∧
      let r := floatRound .binary32 frm n q (-e - k) (q * m ≠ 2 ^ k)
      fnRcp frm x = (BitVec.ofNat 32 r.1, r.2)
  sqrt : ∀ frm (x : W32) m e, floatDecode .binary32 x.toNat = .fin false m e → m ≠ 0 →
    ∃ k r : Nat, 2 ^ 25 ≤ r ∧ r * r ≤ m * 2 ^ k ∧ m * 2 ^ k < (r + 1) * (r + 1) ∧ (e - k) % 2 = 0 ∧
      let y := floatRound .binary32 frm false r ((e - k) / 2) (r * r ≠ m * 2 ^ k)
      fnSqrt frm x = (BitVec.ofNat 32 y.1, y.2)
  rsq : ∀ (x : W32) m e, floatDecode .binary32 x.toNat = .fin false m e → m ≠ 0 →
    ∃ k r : Nat, 2 ^ 25 ≤ r ∧ r * r * m ≤ 2 ^ k ∧ 2 ^ k < (r + 1) * (r + 1) * m ∧ (k + e) % 2 = 0 ∧
      ∃ mode : Nat, (mode = 1 ∨ mode = 3) ∧
        (fnRsq x).1 = BitVec.ofNat 32 (floatRound .binary32 mode false r (-((k + e) / 2)) (r * r * m ≠ 2 ^ k)).1
  exp2 : ∀ (x : W32) (i : Int), -150 ≤ i → i < 128 → (∃ n m e, floatDecode .binary32 x.toNat = .fin n m e) →
    i * 2 ^ 1000 < scaled (floatDecode .binary32 x.toNat) → scaled (floatDecode .binary32 x.toNat) < (i + 1) * 2 ^ 1000 →
    ∃ r mode : Nat, 2 ^ 300 ≤ r ∧ r < 2 ^ 301 ∧ (mode = 1 ∨ mode = 3) ∧
      (fnExp2 x).1 = BitVec.ofNat 32 (floatRound .binary32 mode false r (i - 300) true).1
  log2 : ∀ (x : W32) m e, floatDecode .binary32 x.toNat = .fin false m e → m ≠ 0 → m ≠ 2 ^ Nat.log2 m →
    let i : Int := e + Nat.log2 m
    ∃ r mode : Nat, (mode = 1 ∨ mode = 3) ∧ (r : Int) < (if i < 0 then -i else i + 1) * 2 ^ 200 ∧ (if i < 0 then -i - 1 else i) * 2 ^ 200 ≤ (r : Int) ∧
      (fnLog2 x).1 = BitVec.ofNat 32 ((if i < 0 then 2 ^ 31 else 0) + (floatRound .binary32 mode false r (-200) true).1)
  tanh : ∀ (x : W32) n m e, floatDecode .binary32 x.toNat = .fin n m e → m ≠ 0 →
    (fnTanh x).1.toNat % 2 ^ 31 ≤ 0x3F800000 ∧ (fnTanh x).1.getLsbD 31 = n
  sigm : ∀ (x : W32) n m e, floatDecode .binary32 x.toNat = .fin n m e → m ≠ 0 →
    (fnSigm x).1.toNat ≤ 0x3F800000 ∧ (n = true → (fnSigm x).1.toNat ≤ 0x3F000000) ∧
      (n = false → 0x3F000000 ≤ (fnSigm x).1.toNat)

/-- The column of ρ's walk at a step, as x and y (FIPS 202; R180). -/
def walkAt : Nat → Nat × Nat
  | 0 => (1, 0)
  | t + 1 => ((walkAt t).2, (2 * (walkAt t).1 + 3 * (walkAt t).2) % 5)
/-- The shift register of ι after n shifts, with feedback x^8 + x^6 + x^5 + x^4 + 1 (FIPS 202; R180). -/
def register : Nat → BitVec 8
  | 0 => 1
  | n + 1 => (register n <<< 1) ^^^ if (register n).getLsbD 7 then 0x71 else 0
/-- A state is the one that a Keccak-f[1600] round makes of another, lane (x, y) at 5y + x: θ, ρ and π, χ, and ι with bit 2^j - 1 of
its constant the lowest bit of the register after j + 7 ir shifts (FIPS 202; R180). -/
def KeccakRound (ir : Nat) (a new : Nat → W64) : Prop :=
  let parity (x : Nat) : W64 := a x ^^^ a (x + 5) ^^^ a (x + 10) ^^^ a (x + 15) ^^^ a (x + 20)
  let theta (w : Nat) : W64 := a w ^^^ parity ((w + 4) % 5) ^^^ (parity ((w + 1) % 5)).rotateLeft 1
  ∃ b : Nat → W64, b 0 = theta 0 ∧
    (∀ t, t < 24 → let (x, y) := walkAt t
      b (5 * ((2 * x + 3 * y) % 5) + y) = (theta (5 * y + x)).rotateLeft ((t + 1) * (t + 2) / 2 % 64)) ∧
    ∀ w, w < 25 → ∀ z, z < 64 →
      let next (d : Nat) : Bool := (b (w / 5 * 5 + (w + d) % 5)).getLsbD z
      let iota : Bool := w = 0 && decide (ir < 24) && (List.range 7).any fun j => z + 1 = 2 ^ j && (register (j + 7 * ir)).getLsbD 0
      (new w).getLsbD z = ((next 0 != (!next 1 && next 2)) != iota)

/-- The reduction tree of n levels over the places that are there: a node with one child passes it on (R158). -/
def treeOf (f : W32 → W32 → W32) : Nat → (Nat → Option W32) → Option W32
  | 0, x => x 0
  | n + 1, x =>
    match treeOf f n x, treeOf f n fun i => x (2 ^ n + i) with
    | some a, some b => some (f a b)
    | some a, none => some a
    | none, b => b

/-! ## Terms of the M, C and E classes -/

/-- The bundle e has begun its effects: its operation has left the issue stage, and nothing else of the machine has changed than
the PC, the counters, the issue stage and the slot's occupancy (R31, R59, R60). -/
structure Begun (s b : State) (e : Env) (slot occ : Nat) : Prop where
  only : OnlyAt s b e.k e.core
  ctx : ∃ pmc, b.ctx e.k = (s.ctx e.k).issued e pmc
  core : b.core e.core = (s.core e.core).issued e slot occ 1

/-- Results of a slot of the bundle e put in flight, each with the cycle at which it can be read. -/
def inFlight (b : State) (e : Env) (slot : Nat) (lands : List (Nat × Landing)) : State :=
  lands.foldl (fun s x => s.addPending e.k (resultOf e slot x)) b

/-- A scalar result of an M-class operation (R323, R326): the slot latch at t + L and, unless WS = 1, the register at t + L + 1. -/
def memoryLands (u : SlotM) (f : FieldM) (e : Env) (lat : Nat) (x : W64) : List (Nat × Landing) :=
  (e.t + lat, .latchS (scalarLatch u.index) x) :: if f.ws then [] else [(e.t + lat + 1, .scalar f.dst.toNat x)]

/-- The active elements of a vector access, in row-major, lane order, each at the address that the spec gives it, at its place, and
with its data (R279, R285, R286). -/
def ElementsOf (m : W64) (addr : Nat → Nat → W64) (place : W64 → Option Place) (data : Nat → Nat → W64) (xs : List Element) :
    Prop :=
  xs.map (fun x => 64 * x.row + x.lane) = (List.range 1024).filter (fun i => m.getLsbD (i % 64)) ∧
  ∀ x ∈ xs, x.lane < 64 ∧ x.va = addr x.row x.lane ∧ place x.va = some x.place ∧ x.data = data x.row x.lane

/-- The global vector accesses: slot, fields, whether a store, whether indexed (R285, R286). -/
def vectorAccess : Instr → Option (SlotM × FieldM × Bool × Bool)
  | .vld u f => some (u, f, false, false)
  | .vst u f => some (u, f, true, false)
  | .vgat u f => some (u, f, false, true)
  | .vsct u f => some (u, f, true, true)
  | _ => none

/-- An access issued in cycle now that joins those of a context, numbered by its place in program order; a st, red or vred takes an
entry of the store queue (R322). -/
def queued (now : Nat) (c : Ctx) (kind : AccessKind) (size scope ord : Nat) (xs : List Element) : Ctx :=
  { c with
    accesses := c.accesses ++
      [{ id := c.nextAccess, issued := now
         stored := match kind with | .store => true | .red _ => true | .vred _ _ => true | _ => false
         kind := kind, size := size, scope := scope, ord := ord, elements := xs }]
    nextAccess := c.nextAccess + 1 }

/-- A DLQ entry that waits for the next access (R322). -/
def entered (c : Ctx) : Ctx := { c with dlq := c.dlq ++ [{ id := c.nextAccess, value := 0, fate := .waiting }] }

/-- A reduction that joins: the held ones of a phase that is not exposed while they are fewer than 32, where it gives its entry of
the store queue back, and which the 33rd exposes; else the accesses (R322, R377, R378). -/
def reduced (now : Nat) (c : Ctx) (kind : AccessKind) (size scope ord : Nat) (xs : List Element) : Ctx :=
  match c.phaseRec with
  | some p =>
    if p.exposed then queued now c kind size scope ord xs
    else if p.held.length < 32 then
      { c with
        phaseRec := some { p with held := p.held ++
          [{ id := c.nextAccess, issued := now, stored := false, kind := kind, size := size, scope := scope, ord := ord
             elements := xs }] }
        nextAccess := c.nextAccess + 1 }
    else queued now c.expose kind size scope ord xs
  | none => queued now c kind size scope ord xs

/-- No scratchpad row of a lower slot of the bundle of cycle t waits in a context: so it is where the bundle is of one operation
(R282). -/
def Alone (c : Ctx) (t : Nat) : Prop := ∀ p ∈ c.pending, ∀ order es, p.what = .spadRow order es → p.issued ≠ t

/-- The place of a global address for an access that nothing forbids and no walk delays (R277). -/
def globalPlace (t : Translation) : Option Place := match t with | .place p => some p | _ => none
/-- The place of a scratchpad address whose bank is in SCRATCH mode (R266, R277). -/
def padPlace (s : State) (k size : Nat) (va : W64) : Option Place :=
  match s.spadCheck k size va with
  | .bank bank key => if s.bankMode (clusterOf k) bank = .scratch then some { key := key, nc := false } else none
  | .fault _ => none

/-- The active addresses of each row of an access over sixteen rows. -/
def activeRows (m : W64) (addr : Nat → Nat → W64) : List (List W64) :=
  (List.range 16).map fun r => (List.range 64).filterMap fun l => if m.getLsbD l then some (addr r l) else none

/-- The planes that hold memory: tiers 0, 1 and 3, the pool devices, the banks and the tiles. -/
def realPlane (p : Nat) : Bool := p = 0 || p = 1 || p = 3 || (8 ≤ p && p ≤ 15) || p = 40 || p = 41


/-- The bundle e has issued one operation of CT: the next bundle issues gap cycles later at target, some results of a slot are in
flight, and the context changes as f says; nothing else of the machine does but the counters, the issue stage and the slot's
occupancy (R60, R236). -/
structure Transfers (s t : State) (e : Env) (target : BitVec 57) (gap slot : Nat) (lands : List (Nat × Landing)) (f : Ctx → Ctx) :
    Prop where
  only : OnlyAt s t e.k e.core
  ctx : ∃ pmc, t.ctx e.k =
    f { (s.ctx e.k).issued e pmc with pc := target, pending := joined (s.ctx e.k).pending e slot lands }
  core : t.core e.core = (s.core e.core).issued e 8 1 gap

/-- A trap of slot CT of a decoded bundle. -/
def trapCT (cause : Cause) (tval : W64) : Trap := { cause := cause, slot := 8, tval := tval, decoded := true }

/-- The lines that a range of ipf, pin or unpin names: AUX[4:0] + 1 of them from the line that holds pc + a (R238). -/
def linesFrom (f : FieldC) (e : Env) (a : W64) : List Nat :=
  (List.range (f.aux.toNat % 32 + 1)).map fun i => ((e.pc + a.truncate 57).toNat / 128 + i) % 2 ^ 50

/-- The CSR accesses that are no deeds of their own: fields, and the new value from the old one and the operand (R250). -/
def csrAccess : Instr → Option (FieldC × Option (W64 → W64 → W64))
  | .csrr f => some (f, none)
  | .csrw f => some (f, some fun _ a => a)
  | .csrs f => some (f, some fun old a => old ||| a)
  | .csrc f => some (f, some fun old a => old &&& ~~~a)
  | _ => none

/-- The Canopy commands: fields and unit function (R210 Table 1). -/
def canopyCommand : Instr → Option (FieldE × Nat)
  | .mma f => some (f, 1)
  | .mmaz f => some (f, 2)
  | .mmas f => some (f, 3)
  | .mmaa f => some (f, 4)
  | .mmai f => some (f, 5)
  | .lsl f => some (f, 8)
  | .tzero f => some (f, 9)
  | .txp f => some (f, 0xA)
  | .tcvt f => some (f, 0xB)
  | .t2v f => some (f, 0xC)
  | .v2t f => some (f, 0xD)
  | _ => none

/-- The copy commands: fields, unit function, and the completion flag, which TA names for tload and TD for the others (R335). -/
def copyCommand : Instr → Option (FieldE × Nat × Nat)
  | .tcopy f => some (f, 0x10, f.td.toNat % 16)
  | .tgath f => some (f, 0x11, f.td.toNat % 16)
  | .tload f => some (f, 0x12, f.ta.toNat % 16)
  | .tstore f => some (f, 0x13, f.td.toNat % 16)
  | _ => none

/-- The cycles for which EN is occupied: BEATS, with 0 for 256 (R213). -/
def beatsOf (f : FieldE) : Nat := if f.beats = 0 then 256 else f.beats.toNat


/-! ## Terms of results that land -/

/-- What a csrr of a CSR returns once a write of x has landed, where that is x's own legalisation (R99, R102, R125, R174, R186, R189,
R204, R207, R218, R250, R264). -/
def csrStored (n : Nat) (x : W64) : Option W64 :=
  if n = 0x001 ∨ n = 0x004 ∨ n = 0x103 ∨ n = 0x109 ∨ 0x020 ≤ n ∧ n ≤ 0x02F ∨ 0x040 ≤ n ∧ n ≤ 0x05F ∨ 0x090 ≤ n ∧ n ≤ 0x0CF then some x
  else if n = 0x002 then some (BitVec.ofNat 64 (x.toNat % 2 ^ 13))
  else if n = 0x003 then some (if x.toNat % 8 ≤ 4 then BitVec.ofNat 64 (x.toNat % 8) else 0)
  else if n = 0x060 then some (BitVec.ofNat 64 (x.toNat / 64 * 64))
  else if n = 0x0D0 then some (BitVec.ofNat 64 (max 1000 (min 1000000000 x.toNat)))
  else if n = 0x100 ∨ n = 0x102 ∨ n = 0x105 then some (BitVec.ofNat 64 (x.toNat % 2 ^ 57))
  else if n = 0x101 then some (BitVec.ofNat 64 (x.toNat % 2 ^ 12))
  else none

/-- A result in flight is due, and nothing issued later has overtaken a part of it (R55, R56). -/
structure Due (c : Ctx) (now : Nat) (p : Pending) (w : Landing) : Prop where
  here : p ∈ c.pending
  what : p.what = w
  due : p.due ≤ now
  whole : p.contested = 0

/-! ## Terms of phases, barriers and launches -/

/-- The lowest-numbered bank that nobody owns, or none (R246). -/
def LowestFree (banks : List CheckpointBank) (bank : Option Nat) : Prop :=
  match bank with
  | some n => (∃ x, banks[n]? = some x ∧ x.owner = none) ∧ ∀ m x, m < n → banks[m]? = some x → x.owner ≠ none
  | none => ∀ x ∈ banks, x.owner ≠ none

/-- A phase of a context has opened (R246): its record names the descriptor, the output range and the bundle that opened it; a
checkpoint bank holds the context's state before that bundle, with its PC, or the phase is exposed without one; nothing else of the
machine changes. -/
structure PhaseOpened (s t : State) (e : Env) (bank : Option Nat) (desc base length : W64) : Prop where
  rest : t = { s with ctxs := t.ctxs, cores := t.cores }
  ctx : t.ctx e.k = { s.ctx e.k with
    phaseRec := some
      { desc := desc, base := base, length := length, opening := e.pc, bank := bank, exposed := bank.isNone, held := []
        opened := s.clk } }
  others : ∀ j, j ≠ e.k → t.ctx j = s.ctx j
  checkpoint : ∀ n, bank = some n → n < (s.core (coreOf e.k)).banks.length → ∃ x, (t.core (coreOf e.k)).banks[n]? = some x ∧
    x.owner = some e.k ∧ x.stores = [] ∧ x.failures = [] ∧ x.snapshot.taken = e.t ∧ x.snapshot.pc = e.pc ∧
    x.snapshot.s = (s.ctx e.k).s ∧ x.snapshot.fl = (s.ctx e.k).fl ∧ x.snapshot.v = (s.ctx e.k).v ∧ x.snapshot.k = (s.ctx e.k).k ∧
    x.snapshot.csrs = checkpointCsrs.map fun n => (n, s.csrRead e.k n)
  kept : ∀ core n, ¬ (core = coreOf e.k ∧ bank = some n) → (t.core core).banks[n]? = (s.core core).banks[n]?

/-- A phase of a context has committed (R248): its held reductions follow its accesses in program order, its checkpoint bank is free,
and no phase is open; nothing else of the machine changes but a counter. -/
structure PhaseCommitted (s t : State) (k : Nat) (p : PhaseRecord) : Prop where
  rest : t = { s with ctxs := t.ctxs, cores := t.cores }
  ctx : ∃ pmc, t.ctx k = { s.ctx k with
    accesses := (s.ctx k).accesses ++ (if p.exposed then [] else p.held), phaseRec := none, cancels := 0, pmc := pmc }
  others : ∀ j, j ≠ k → t.ctx j = s.ctx j
  checkpoint : ∀ n, p.bank = some n → n < (s.core (coreOf k)).banks.length →
    ∃ x, (t.core (coreOf k)).banks[n]? = some x ∧ x.owner = none
  kept : ∀ core n, ¬ (core = coreOf k ∧ p.bank = some n) → (t.core core).banks[n]? = (s.core core).banks[n]?

/-- An overrunner has committed (R319): it is in overrun no more, its timestamp is not below that of the completion, its bank is free
from the next cycle on, and it is READY where it stood at the barrier. -/
structure OverrunCommitted (s t : State) (j bank b : Nat) (tc : W64) : Prop where
  ctx : (t.ctx j).overrun = none ∧ (t.ctx j).committing = none ∧ (t.ctx j).barrierWait = none
  lts : tc.toNat ≤ (t.ctx j).lts.toNat
  freed : bank < (s.core (coreOf j)).banks.length →
    ∃ x, (t.core (coreOf j)).banks[bank]? = some x ∧ x.owner = none ∧ x.freed = s.clk + 1
  ready : ∀ gen, (s.ctx j).block = some (.barrier b gen) → (s.ctx j).phase = .blocked → (s.ctx j).drain = .none →
    (t.ctx j).phase = .ready

/-- A launch has been submitted (R22, R357): its command runs, with what the block says, and the i-th of the ready dies has taken its
share of the groups. -/
structure Submitted (s t : State) (x : LaunchSpec) : Prop where
  next : t.nextCommand = s.nextCommand + 1
  command : ∃ c, mapGet? t.commands s.nextCommand = some c ∧ c.queue = x.queue ∧ c.seq = x.seq ∧ c.type = x.type ∧
    c.region = x.region ∧ c.entry = x.entry ∧ c.dictObj = x.dictObj ∧ c.args = x.args ∧ c.gcount = x.gcount ∧ c.decl = x.decl ∧
    c.bas = x.bas ∧ c.left = x.gcount ∧ c.unplaced = x.gcount ∧ c.lts = x.lts
  shares : ∀ i d, s.readyDies[i]? = some d →
    let share : GroupRange :=
      { command := s.nextCommand, first := i, stride := s.readyDies.length, next := 0
        stop := (x.gcount + s.readyDies.length - 1 - i) / s.readyDies.length }
    (t.die d).ranges = (s.die d).ranges ++ if share.stop = 0 then [] else [share]

/-! ## Terms of the whole machine -/

/-- The forms that ask for supervisor state: slot, unit function, predicate (R87, R243, R250, R252, R255, R257, R290). -/
def privilegedForm : Instr → Option (Nat × Nat × BitVec 4 × Bool)
  | .eret f => some (8, 0x17, f.pf, f.pn)
  | .tlbinv f => some (8, 0x26, f.pf, f.pn)
  | .ctxsave f => some (8, 0x28, f.pf, f.pn)
  | .ctxrest f => some (8, 0x29, f.pf, f.pn)
  | .halt f => some (8, 0x2A, f.pf, f.pn)
  | .csrr f => if 0x100 ≤ csrNumber f then some (8, 0x20, f.pf, f.pn) else none
  | .csrw f => if 0x100 ≤ csrNumber f then some (8, 0x21, f.pf, f.pn) else none
  | .csrs f => if 0x100 ≤ csrNumber f then some (8, 0x22, f.pf, f.pn) else none
  | .csrc f => if 0x100 ≤ csrNumber f then some (8, 0x23, f.pf, f.pn) else none
  | .uclaim f => if 0x100 ≤ csrNumber f then some (8, 0x20, f.pf, f.pn) else none
  | .uret f => if 0x100 ≤ csrNumber f then some (8, 0x21, f.pf, f.pn) else none
  | .ulaunch f => if 0x100 ≤ csrNumber f then some (8, 0x21, f.pf, f.pn) else none
  | .userve f => if 0x100 ≤ csrNumber f then some (8, 0x21, f.pf, f.pn) else none
  | .cacheop u f => if f.aux.toNat % 8 ≠ 0 then some (u.index, 0x24, f.pf, f.pn) else none
  | _ => none

/-- The flag event of a completion: FL[f] is set, for bundles issued three cycles later or after; f = 0 sets nothing (R58, R98; that
it takes effect two cycles after the deed is the model's choice, log entry 10). -/
def flagged (c : Ctx) (now : Nat) (own : Bool) (f : Nat) : List Pending :=
  if f = 0 then c.pending
  else Machine.addPending c.pending
    { due := now + 3, issued := now, slot := if own then 16 else 15, contested := 0, what := .flags (flagMask f) (flagMask f) }

/-- A context as a switch leaves it: its latch results in flight are lost, register results stay (R27). -/
def sameRegisters (a b : Ctx) : Prop :=
  a.s = b.s ∧ a.fl = b.fl ∧ a.v = b.v ∧ a.k = b.k ∧ a.pc = b.pc ∧ a.tepc = b.tepc ∧ a.tnpc = b.tnpc ∧ a.tval = b.tval ∧
    a.tcause = b.tcause ∧ a.user = b.user

/-! ## Terms of the scheduler's and the drains' deeds -/

/-- A context of a core that stands READY, with no drain under way, in a group that neither ends nor is pre-empted (R28, R32,
R376). -/
structure WaitsReady (s : State) (core k : Nat) : Prop where
  here : k ∈ ctxsOfCore core
  ready : (s.ctx k).phase = .ready
  still : (s.ctx k).drain = .none
  runs : s.mayRun k = true

/-- The running context of a core stands at a bundle boundary at which its next bundle could issue (R29). -/
structure AtBoundary (s : State) (core k : Nat) : Prop where
  running : (s.core core).running = some k
  here : coreOf k = core
  still : (s.ctx k).drain = .none
  runs : s.mayRun k = true
  due : (s.core core).nextIssue ≤ (s.core core).lt
  unfrozen : (s.core core).freeze = none
  fetched : (s.core core).walking = []

/-- A context has given up its core at a bundle boundary and stands READY from that cycle on (R27, R29): its latch results in flight
are lost, the latches read zero, no register changes, and the core issues no earlier than two cycles later. -/
structure GaveWay (s t : State) (core k : Nat) : Prop where
  only : OnlyAt s t k core
  ready : (t.ctx k).phase = .ready
  since : (t.ctx k).readySince = (s.core core).lt
  same : sameRegisters (t.ctx k) (s.ctx k)
  inFlight : (t.ctx k).pending = dropLatchResults (s.ctx k).pending
  idle : (t.core core).running = none
  latches : (t.core core).lat = Latches.zero
  later : (t.core core).nextIssue = (s.core core).lt + 2

/-- What a trap leaves the context with once its handler is entered (R64, R260). -/
def handling (c : Ctx) (lat : Latches) (trap : Trap) (pc next : BitVec 57) : Ctx :=
  { c with
    shadow := lat, tcause := BitVec.ofNat 12 (causeCode trap.cause + trap.slot * 256), tval := trap.tval, tepc := pc, tnpc := next
    prevUser := c.user, user := false, nesting := c.nesting + 1, pc := c.tvec, drain := .none
    fpPending := if trap.cause = .fpTrap then none else c.fpPending }

/-- Context k is the one that a checkpoint gave back (R249, R254, R317): registers, flags, masks, PC and DLQ are the checkpoint's. -/
structure RolledBack (c : Ctx) (x : Snapshot) : Prop where
  pc : c.pc = x.pc
  s : c.s = x.s
  fl : c.fl = x.fl
  v : c.v = x.v
  dlq : c.dlq = x.dlq
  accesses : c.accesses = []
  phase : c.phase = .blocked
  drain : c.drain = .none

/-! ## Terms of accesses in flight -/

/-- n bytes from a key on lie in one line of tier 0 or 1, within fitted memory, behind links that are up, and hold no uncorrectable
data; no partial of a reduction is open on the line, and the line is not held modified (R273, R292, R309, R388, R389). -/
structure Plain (s : State) (key n : Nat) : Prop where
  tier : planeOf key ≤ 1
  good : s.uncorrectable key = false
  merged : mapGet? s.partials (lineOf key) = none
  line : 0 < n ∧ lineOf key = lineOf (key + n - 1)
  home : s.modified.contains (lineOf key) = false

/-- Only lines of the tiers are held modified (R272, R388). -/
def TiersOnly (s : State) : Prop := ∀ l ∈ s.modified, planeOf (l * 64) < 16

/-- The oldest access of a context, at the head of its queue, outside overrun. -/
structure Oldest (s : State) (k : Nat) (a : Access) (rest : List Access) : Prop where
  head : (s.ctx k).accesses = a :: rest
  straight : (s.ctx k).overrun = none

/-- What is common to a performed access of a context that writes no memory: it leaves the queue, and no byte and no other context
changes. -/
structure Performed (s t : State) (k : Nat) (rest : List Access) : Prop where
  queue : (t.ctx k).accesses = rest
  mem : t.mem = s.mem
  others : ∀ j, j ≠ k → t.ctx j = s.ctx j
  scalars : (t.ctx k).s = (s.ctx k).s ∧ (t.ctx k).fl = (s.ctx k).fl ∧ (t.ctx k).pc = (s.ctx k).pc ∧ (t.ctx k).k = (s.ctx k).k

/-- An event that performs the oldest access of context k: the event of the access's own kind, or that of a pre-empted group's
pending access, whose parked context k then is (R33). -/
def performs (own : Instr) (k : Nat) (i : Instr) : Prop :=
  i = own ∨ ∃ g p, k = parkKey g p ∧ i = .evPendingAccessComplete g p

/-- Nothing else that writes a vector register is in flight or has landed since an access was issued (R56). -/
structure Uncontested (c : Ctx) (reg : Nat) : Prop where
  pending : ∀ p ∈ c.pending, ∀ row m x, p.what ≠ .vrow reg row m x
  rows : ∀ r ∈ c.rows, r.dst ≠ reg
  landed : ∀ x ∈ c.landed, x.2.1 ≠ reg

/-! ## Terms of maintenance -/

/-- Whether a tlbinv with a mode, a slot and an address removes a TLB entry (R252). -/
def invalidates (mode slot : Nat) (a : W64) (e : TlbEntry) : Prop :=
  let covers := e.vpn = a.toNat / 2 ^ e.size
  match mode with
  | 0 => True
  | 1 => e.asid = slot
  | 2 => e.asid = slot ∧ covers
  | _ => covers

/-- A maintenance operation of context k has completed: it leaves the context's list, its flag is set for the next cycle, and no
other context has changed. -/
structure Maintained (s t : State) (k : Nat) (rest : List Maintenance) (flag : Nat) : Prop where
  left : (t.ctx k).maintenance = rest
  flag : (t.ctx k).pending = flagged (s.ctx k) (s.core (coreOf k)).lt false flag
  same : (t.ctx k).s = (s.ctx k).s ∧ (t.ctx k).fl = (s.ctx k).fl ∧ (t.ctx k).v = (s.ctx k).v ∧ (t.ctx k).pc = (s.ctx k).pc

/-- Entry i of the page of a dictionary, as its bytes and the install filter give it (R81, R82). -/
def filtered (core : Nat) (d : DictHandle) (cls : Nat) (bs : List Byte) (i : Nat) : Nat × Bool :=
  let x := fieldAt bs (8 * i) 8
  (x, (filterContainer (kindOf core) d.priv (classSlot cls) x).isNone)

/-! ## Terms of groups -/

/-- A context as a launch leaves it (R21): READY at its entry, s0 to s2 hold the group index, the group count and the argument word,
every other register is zero, FL reads 1, LMASK is all ones and BA is the packet's. -/
structure Launched (c : Ctx) (group pos : Nat) (entry gidx gcount args : W64) : Prop where
  phase : c.phase = .ready
  group : c.group = some group
  pos : c.pos = pos
  pc : c.pc = entry.truncate 57
  s0 : c.sreg 0 = gidx
  s1 : c.sreg 1 = gcount
  s2 : c.sreg 2 = args
  others : ∀ r, 3 ≤ r → r < 32 → c.sreg r = 0
  fl : c.flags = 1
  lmask : c.lmask = BitVec.allOnes 64
  rows : ∀ v row, v < 16 → row < 16 → c.vrow v row = Row.zero
  clear : c.accesses = [] ∧ c.dlq = [] ∧ c.pending = [] ∧ c.watches = []

/-- The registers that an image carries are the same in two contexts (R32, R34, R256). -/
def sameImage (a b : Ctx) : Prop :=
  a.pc = b.pc ∧ a.s = b.s ∧ a.fl = b.fl ∧ a.v = b.v ∧ a.k = b.k ∧ a.lmask = b.lmask ∧ a.ts = b.ts ∧ a.fmt = b.fmt ∧
    a.ba = b.ba ∧ a.dlq = b.dlq ∧ a.tepc = b.tepc ∧ a.tval = b.tval

/-- A context with nothing in flight that pre-emption would have to undo (R35). -/
structure Quiet (c : Ctx) : Prop where
  pending : c.pending = []
  overrun : c.overrun = none
  phase : c.phaseRec = none
  maintenance : c.maintenance = []

/-! ## Terms of the engines -/

/-- The oldest command of a kind on a cluster, as the engine's queues list it. -/
def heads (s : State) (n : Nat) (c : EngineCmd) (next : Option (Nat × EngineCmd)) : Prop :=
  next = some (n, c) ∧ mapGet? s.engine n = some c

/-- A member of a joint command, or the issuer of another, learns that it has completed (R213, R296): its flag event follows. -/
def told (s t : State) (k flag : Nat) : Prop :=
  (t.ctx k).pending = flagged (s.ctx k) (s.core (coreOf k)).lt false flag

/-- The fixed tree of n levels over binary32 codes: adjacent places added (R198). -/
def tree32 : Nat → (Nat → Nat) → Nat
  | 0, x => x 0
  | n + 1, x => add32 (tree32 n x) (tree32 n fun i => x (2 ^ n + i))

/-- Element t of row i of the A tile of a command (R183, R222); rd reads the tile. -/
def aNum (rd : Nat → Nat) (c : EngineCmd) (i t : Nat) : FloatNum :=
  classDecode (fwCa c.word) (c.format (fwFa c.word)) (rowElem rd (i * tsRowBytes (c.shape c.ta)) c.widthA t)
/-- Element (t, n) of the block that a stationary latch holds, decoded by FMT[FB] of the command (R222, R226). -/
def bNum (c : EngineCmd) (r : LatchRecord) (t n : Nat) : FloatNum :=
  classDecode (fwCb c.word) (c.format (fwFb c.word))
    (rowElem (fun o => (r.data.getD o 0).toNat) (4 * c.widthB * t) c.widthB n)
/-- The scale of K-block b of row i of A: its byte behind the row's codes where SCM[0] is set, else 127 (R194, R222). -/
def aScale (rd : Nat → Nat) (c : EngineCmd) (r : LatchRecord) (i b : Nat) : Nat :=
  if fwScm c.word % 2 = 1 then rd (i * tsRowBytes (c.shape c.ta) + r.k * c.widthA / 8 + b) else 127
/-- The scale of K-block b of column n of the latch: its byte where SCM[1] is set, else 127 (R194, R226). -/
def bScale (c : EngineCmd) (r : LatchRecord) (b n : Nat) : Nat :=
  if 2 ≤ fwScm c.word then (r.scales.getD (32 * b + n) 127).toNat else 127

/-- K-block b added into an accumulator element, or for mmas subtracted from it: the exact integer sum, wrapped or clamped, where ACCT is
int32; else the tree of the products, scaled (R197, R198, R199, R222). -/
def blockStep (rd : Nat → Nat) (c : EngineCmd) (r : LatchRecord) (i n acc b : Nat) : Nat :=
  if fwAcct c.word = 1 then
    let dot : Int := (List.range 32).foldl (fun z t => z + numInt (aNum rd c i (32 * b + t)) * numInt (bNum c r (32 * b + t) n)) 0
    let z : Int := signedOf 32 acc + if c.uf = 3 then -dot else dot
    wrapInt 32 (if fwSat c.word then max (-2 ^ 31) (min (2 ^ 31 - 1) z) else z)
  else
    let p := scale32 (tree32 5 fun t => numMul32 (aNum rd c i (32 * b + t)) (bNum c r (32 * b + t) n)) (aScale rd c r i b)
      (bScale c r b n)
    add32 acc (if c.uf = 3 ∧ (floatDecode .binary32 p).isNan = false then floatFlip .binary32 p else p)

/-- The adapter term of a row at column n: ALPHA times the sum over the rank of h[q] times U[q][n] (R224). -/
def adapterTerm (rd : Nat → Nat) (c : EngineCmd) (r : LatchRecord) (a : Adapter) (i n : Nat) : Nat :=
  let h (q : Nat) : Nat := (List.range (r.k / 32)).foldl (fun h b =>
    add32 h (scale32 (tree32 5 fun t => numMul32 (aNum rd c i (32 * b + t)) ((a.down.getD q []).getD (32 * b + t) (.fin false 0 0)))
      (aScale rd c r i b) 127)) 0
  mul32 a.alpha ((List.range a.rank).foldl (fun u q =>
    add32 u (numMul32 (floatDecode .binary32 (h q)) ((a.up.getD q []).getD n (.fin false 0 0)))) 0)

/-- The new value of element n of an accumulator row that row i of A adds into: from its old value, or from 0 for mmaz, K-block after
K-block, and then the term of the row's adapter, where it has one of rank above 0 (R222, R223, R224). -/
def accumulated (rd : Nat → Nat) (c : EngineCmd) (r : LatchRecord) (a : Option Adapter) (old i n : Nat) : Nat :=
  let acc := (List.range (r.k / 32)).foldl (blockStep rd c r i n) (if c.uf = 2 then 0 else old)
  match a with
  | some a => if a.rank = 0 then acc else add32 acc (adapterTerm rd c r a i n)
  | none => acc

/-- The accumulator row of a member that row i of A adds into: row i, or for mmai the one that the index tile names (R223). -/
def targetRow (s : State) (x : Group) (c : EngineCmd) (m : Member) (i : Nat) : Nat := if c.uf = 5 then s.indexOf x m i else i

/-- A value as a code of a tile's class: RNE with the canonical NaN for the named classes and for an accumulator, R192 for a narrow
one (R230). -/
def codeOf (cls fmt : Nat) (acc : Bool) (x : FloatNum) : Nat :=
  let float (f : FloatFormat) : Nat := match x with
    | .nan _ => floatNan f
    | .inf n => floatInf f n
    | .fin n m e => (floatRound f 0 n m e false).1
  if acc then float .binary32
  else if cls = 0 then fmtConvert fmt x
  else if cls = 1 then float .binary16
  else if cls = 2 then float .bfloat16
  else float .binary32

/-- The address of element e of a copy: the base plus its digits, the lowest dimension fastest, each times its stride, modulo 2^64; steer
stands in place of digit 1 (R337). -/
def elementAddress (base : Nat) (ext : List Nat) (strides : List Int) (steer : Option Int) (e : Nat) : Nat :=
  let digit (j : Nat) : Int :=
    match if j = 1 then steer else none with
    | some z => z
    | none => ((e / (ext.take j).foldl (· * ·) 1 % ext.getD j 1 : Nat) : Int)
  (((List.range ext.length).foldl (fun (a : Int) j => a + digit j * strides.getD j 0) base) % 2 ^ 64).toNat

/-- Where n bytes of an address in a space of a copy command stand: in memory through its address space, in the scratchpad, or in a
tile (R265, R266, R277, R334). -/
def copyCell (s : State) (x : Group) (c : EngineCmd) (use : PageUse) (space : Nat) (tile : Option Nat) (va n : Nat) : Option Nat :=
  match space with
  | 0 => match s.enginePlace c use n va with | .ok p => some p.key | .error _ => none
  | 1 => match s.enginePad c n va with | .ok key => some key | .error _ => none
  | _ => match s.engineTile c tile va with
    | .ok (j, off) => some (tileKey (x.cluster.getD 0) (x.tile j) off)
    | .error _ => none

/-- A cell of tier 0 or 1, of a pool device, of a bank or of a tile that can be read and written (R273, R389). -/
structure Cell (s : State) (key : Nat) : Prop where
  plane : realPlane (planeOf key) = true ∧ planeOf key ≠ 3
  good : s.uncorrectable key = false

/-- An element of n bytes has been moved: the destination holds a value, and no other byte of memory has changed (R337). -/
def elementMoved (s t : State) (key n value : Nat) : Prop :=
  t.wordAt key n = value ∧
    ∀ a, realPlane (planeOf a) = true → a < key ∨ key + n ≤ a → t.byteAt a = s.byteAt a

/-! ## Terms of queues -/

/-- The events by which the Understory's firmware serves the head of a queue: the packet's type and the cluster that runs a COPY
(R349 Table 5); a CONTINUE packet stands at the head of a continuation queue of its die (R361). -/
def packetEvent (s : State) (q : Nat) : Instr → Option (Nat × Nat)
  | .evInvoke p => if p = q then some (1, 0) else none
  | .evDispatch p => if p = q then some (2, 0) else none
  | .evCopyPacket p cluster => if p = q then some (3, cluster) else none
  | .evSignalPacket p => if p = q then some (4, 0) else none
  | .evWaitPacket p => if p = q then some (5, 0) else none
  | .evBarrierAnd p => if p = q then some (6, 0) else none
  | .evAdapterHint p => if p = q then some (8, 0) else none
  | .evContinue die => if s.contToServe die = some q then some (7, 0) else none
  | _ => none

/-- The control block of a user queue stands in memory that answers (R344, R345). -/
def Controlled (s : State) (q : Nat) : Prop := q < 65536 ∧ Plain s (tierKey 0 (s.qcbAddr q)) 64

/-- The control blocks of a queue hold as before all that n bytes at an offset do not. -/
def onlyField (s t : State) (q off n : Nat) : Prop :=
  ∀ a, realPlane (planeOf a) = true → a < tierKey 0 (s.qcbAddr q) + off ∨ tierKey 0 (s.qcbAddr q) + off + n ≤ a →
    t.byteAt a = s.byteAt a

/-- The head packet of a queue that stands in a lane of an Understory context k, or comes into one now, read and checked up to its
action (R354 steps 1 to 5, R358). -/
structure Arrives (s owned : State) (q k h w : Nat) (lts : W64) (read : State) : Prop where
  head : s.headToServe q = some h
  lane : s.inLane q = some (k, owned)
  running : s.heldByDebugger q = false
  header : ∃ lts₁ s₁, owned.headerAt q (owned.ctx k).lts (s.hold q).held = (.ok (h, lts₁), s₁) ∧
    headerError (isCont q) h = none ∧ s₁.barHeld q h = false ∧
    s₁.ringRead (s₁.queueRegion q) lts₁ (s₁.slotAddr q (s.hold q).held) 64 = (.ok (w, lts), read)



/-- A write of 8 bytes at an offset of the security mailbox (R436). -/
def mailboxAfter (m : List Byte) (offset : Nat) (bytes : List Byte) : List Byte :=
  m.take offset ++ bytes ++ m.drop (offset + 8)

/-- Whether two machines differ in the driver registers alone (R427). -/
def driverOnly (s t : State) : Prop :=
  t = { s with
    devid := t.devid, bases := t.bases, tblQueue := t.tblQueue, govlim := t.govlim, routes := t.routes, inbound := t.inbound
    mailbox := t.mailbox, mr := t.mr, counters := t.counters }


/-- The entry of a pool region after its STATE has changed; LOCKED and the discarded bytes of its next record aside (R405, R406). -/
def atState (t : State) (j : Nat) (e : PoolEntry) (st : PoolState) : Prop :=
  ∃ lost locked, mapGet? t.pool j = some { e with state := st, discarded := lost, locked := locked }

/-- The pool map has one entry for each index, and no context has an access that waits. -/
structure Settled (s : State) : Prop where
  once : (s.pool.map Prod.fst).Nodup
  idle : ∀ c ∈ s.ctxs, c.2.accesses = []

/-- Field [hi:lo] of a flit's header (R432). -/
def headerField (f : RideFlit) (hi lo : Nat) : Nat := bitsOf f.header.toNat hi lo
/-- A flit that is taken at its port: the port is usable and up, the check code over its header and payload holds, it is the next of its
virtual channel, and this device is its destination (R432, R434). -/
structure Taken (s : State) (f : RideFlit) : Prop where
  port : f.port < 12
  up : s.rideLive f.port = true
  good : f.check = flitCheck f
  next : headerField f 55 48 = (mapGet s.rideSeen 0 (16 * f.port + headerField f 47 44)).toNat
  mine : headerField f 21 0 = s.devid.toNat
/-- A flit leaves through a port (R432): it goes from this device to another, with the next sequence number of its virtual channel and a
check code that holds. -/
structure Leaves (s : State) (f : RideFlit) (port device : Nat) (m : RideMessage) : Prop where
  at_ : f.port = port
  carries : f.message = m
  good : f.check = flitCheck f
  destination : headerField f 21 0 = device
  source : headerField f 43 22 = s.devid.toNat
  next : headerField f 55 48 = (mapGet s.rideSent 0 (16 * port + headerField f 47 44)).toNat

/-- A request of a peer, or of the host, at a plain place: nothing changes but the memory that it writes, and an answer leaves. -/
def answered (s t : State) (x : List Output) : Prop := t.outputs = s.outputs ++ x ∧ t.ready = s.ready ∧ t.pool = s.pool
/-- A request of a peer is answered through the port on which it came. -/
def answeredRide (s t : State) (f : RideFlit) (m : RideMessage) : Prop :=
  ∃ x, Leaves s x f.port (headerField f 43 22) m ∧ answered s t [.ride x]

/-- What an SPDM request leaves as it was: all of the machine but the responder, the IDE keys and the answers. -/
def responderOnly (s t : State) : Prop :=
  t = { s with outputs := t.outputs, spdm := t.spdm, ideKeys := t.ideKeys }
/-- An SPDM message leaves: in the open, or as the keys of its session protect it (R437). -/
def sends (s t : State) (id : Nat) (code p1 p2 : Byte) (body : List Byte) : Prop :=
  t.outputs = s.outputs ++ [match s.spdm.session id with
    | none => .spdm code p1 p2 body
    | some x => .spdmGuarded id (spdmGuard id x.responseSecret x.responses (spdmMessage code p1 p2 body))]
/-- An SPDM request is answered, and the IDE keys stay. -/
structure Answers (s t : State) (id : Nat) (code p1 p2 : Byte) (body : List Byte) : Prop where
  only : responderOnly s t
  out : sends s t id code p1 p2 body
  keys : t.ideKeys = s.ideKeys
/-- An SPDM request gets ERROR with a code: the connection and the sessions stay as they are. -/
structure Errs (s t : State) (id : Nat) (code : Byte) : Prop extends Answers s t id 0x7F code 0 [] where
  stands : t.spdm.version = s.spdm.version ∧ t.spdm.capabilities = s.spdm.capabilities ∧ t.spdm.algorithms = s.spdm.algorithms ∧
    t.spdm.sessions.map SpdmSession.id = s.spdm.sessions.map SpdmSession.id
/-- The responder answers, and no failover has cut its connection (R437, R438). -/
def Responsive (s : State) : Prop := s.responds = true ∧ s.spdm.resynch = false
/-- A request of a code comes in a session, under its keys (R437). -/
structure InSession (s : State) (req : SpdmRequest) (code : Byte) (x : SpdmSession) : Prop where
  here : s.spdm.session req.session = some x
  guarded : req.guarded = spdmGuard x.id x.requestSecret x.requests (spdmMessage code req.param1 req.param2 req.body)


end Sys2Proof.Spec

open Sys2Proof Sys2Proof.Machine

/-- The two-operand operations of the S class (R104, R105, R106, R107, R112) and the one-operand operations (R109, R110, R111 mov):
each completes for every operand value, its result is that of the spec's table, the slot latch can be read at t + L and the
register at t + L + 1, and nothing else changes: no flag, no VSTAT bit, no other register, no byte of memory. -/
def Obligations.ScalarOperationResults : Prop :=
  (∀ (i : Instr) (u : SlotS) (f : FieldS) (lat : Nat) (fn : W64 → W64 → W64), Spec.twoOperand i = some (u, f, lat, fn) →
    ∀ (s : State) (e : Env), Ready s e u.index f.pf f.pn →
      ∃ t, exec i s = .next t ∧
        Results s t e u.index 1 1
          (Spec.scalarLands u f e lat (fn (scalarOperand s e u.index 0 f.opa) (scalarOperand s e u.index 1 f.opb)))) ∧
  (∀ (i : Instr) (u : SlotS) (f : FieldS) (lat : Nat) (rel : W64 → W64 → Prop), Spec.oneOperand i = some (u, f, lat, rel) →
    ∀ (s : State) (e : Env), Ready s e u.index f.pf f.pn →
      ∃ t x, exec i s = .next t ∧ rel (scalarOperand s e u.index 0 f.opa) x ∧
        Results s t e u.index 1 1 (Spec.scalarLands u f e lat x))

/-- Integer division (R108): it never traps, whatever the divisor, and its corner cases have the results and the VSTAT bits of
Table 8. -/
def Obligations.DivisionNeverTraps : Prop :=
  ∀ (i : Instr) (u : SlotS) (f : FieldS) (w : Nat) (signed quo : Bool), Spec.division i = some (u, f, w, signed, quo) →
  ∀ (s : State) (e : Env), Ready s e u.index f.pf f.pn →
    ∃ t x status, exec i s = .next t ∧
      Spec.DivisionResult w signed quo (scalarOperand s e u.index 0 f.opa) (scalarOperand s e u.index 1 f.opb) x status ∧
      Results s t e u.index 20 1
        (Spec.scalarLands u f e 20 x ++ if status = 0 then [] else [(e.t + 21, .status u.index status)])

/-- cmp (R114): the condition of Table 9, on 64 or 32 bits, goes to the latch and, unless WS = 1, to the flag; no other flag
changes, and FL0 never does. Also sel, flset, flget, kget, kset, ident and vget (R113, R115 to R120): what each reads, what each writes; vget takes element b[9:0] of
OPA in vector meaning, its row b[9:6] and lane b[5:0], extended as AUX[0] says. -/
def Obligations.CompareFlagAndMaskResults : Prop :=
  (∀ (u : SlotS) (f : FieldS) (s : State) (e : Env), Ready s e u.index f.pf f.pn →
      let a := scalarOperand s e u.index 0 f.opa
      let b := scalarOperand s e u.index 1 f.opb
      let word := f.aux.getLsbD 4
      let cond := f.aux.toNat % 16
      let sa : Int := if word then (a.truncate 32).toInt else a.toInt
      let sb : Int := if word then (b.truncate 32).toInt else b.toInt
      let ua : Nat := if word then (a.truncate 32).toNat else a.toNat
      let ub : Nat := if word then (b.truncate 32).toNat else b.toNat
      let tst : Bool := if word then (a.truncate 32 &&& b.truncate 32) ≠ 0 else a &&& b ≠ 0
      cond < 8 →
      ∃ t r, exec (.cmp u f) s = .next t ∧
        (r = true ↔ match cond with
          | 0 => sa = sb | 1 => sa ≠ sb | 2 => sa < sb | 3 => sb ≤ sa | 4 => ua < ub | 5 => ub ≤ ua
          | 6 => tst = true | _ => tst = false) ∧
        Results s t e u.index 1 1
          ((e.t + 1, .latchS u.index (if r then 1 else 0)) ::
            if f.ws then []
            else [(e.t + 2, .flags (flagMask (f.dst.toNat % 16)) (if r then flagMask (f.dst.toNat % 16) else 0))])) ∧
  ∀ (u : SlotS) (f : FieldS) (s : State) (e : Env), Ready s e u.index f.pf f.pn →
      let a := scalarOperand s e u.index 0 f.opa
      let b := scalarOperand s e u.index 1 f.opb
      let fl := s.readFlags e.k e.t (u.index * 4 + 2)
      let n := f.aux.toNat % 16
      let row := sourceRow s e.k e.t (u.index * 4) (vectorOperand s e u.index 0 0 f.opa) (b.toNat / 64 % 16)
      let w := laneOf row (b.toNat % 64)
      let new : BitVec 16 := ((fl &&& ~~~(b.truncate 16)) ||| (a.truncate 16 &&& b.truncate 16)) ||| 1
      (∃ t, exec (.sel u f) s = .next t ∧
        Results s t e u.index 1 1 (Spec.scalarLands u f e 1 (if n = 0 ∨ fl.getLsbD n = true then a else b))) ∧
      (∃ t, exec (.flset u f) s = .next t ∧
        Results s t e u.index 1 1
          ((e.t + 1, .latchS u.index (new.zeroExtend 64)) :: if f.ws then [] else [(e.t + 2, .flags (b.truncate 16) new)])) ∧
      (∃ t, exec (.flget u f) s = .next t ∧
        Results s t e u.index 1 1 (Spec.scalarLands u f e 1 (fl.zeroExtend 64))) ∧
      (∃ t, exec (.kget u f) s = .next t ∧
        Results s t e u.index 1 1 (Spec.scalarLands u f e 1 (s.readK e.k e.t (u.index * 4) (f.aux.toNat % 8)))) ∧
      (∃ t, exec (.kset u f) s = .next t ∧
        Results s t e u.index 1 1
          ((e.t + 1, .latchS u.index a) ::
            if f.ws then [] else [(e.t + 2, .kmask (f.dst.toNat % 8) (BitVec.allOnes 64) a)])) ∧
      (∃ t, exec (.ident u f) s = .next t ∧
        Results s t e u.index 1 1 (Spec.scalarLands u f e 1 (identItem s e.k n))) ∧
      (∃ t, exec (.vget u f) s = .next t ∧
        Results s t e u.index 1 1
          (Spec.scalarLands u f e 3 (if f.aux.getLsbD 0 then w.signExtend 64 else w.zeroExtend 64)))

/-- Lanewise vector operations (R55, R121 to R123, R134 to R141): the operation issues with row 0 read at t, whose result lands at
t + L, and goes on with the later rows, one in each cycle, each read when it is its turn. -/
def Obligations.LanewiseResults : Prop :=
  (∀ (i : Instr) (v : VectorFields) (occ : Nat) (pf : BitVec 4) (pn : Bool), Spec.vectorOperation i = some (v, occ, pf, pn) →
    ∀ (s : State) (e : Env) (form : VectorForm) (f : VecIn → Row → Row → Row → Row × Status),
      vectorForm (patEntry (patWords s e.k e.t i)) i = some form → form.kind = .lanes f → Ready s e v.slot pf pn →
      let inp := Spec.vectorInputs s e v
      let r := f inp (Spec.laneRow s e v form.typeA 0 v.opa v.rb) (Spec.laneRow s e v form.typeA 1 v.opb v.rb)
        (Spec.laneRow s e v form.typeC 2 v.opc v.rb)
      ∃ t, exec i s = .next t ∧
        Spec.Streams s t e v.slot occ (Spec.rowLands e v form.lat v.rb r.1 inp.mask r.1 r.2)
          (if v.rn = 0 then [] else [Spec.rowTask i s e v form [] 0])) ∧
  ∀ (s : State) (k : Nat) (r : RowTask) (form : VectorForm) (f : VecIn → Row → Row → Row → Row × Status),
      vectorForm (patEntry r.pat) r.instr = some form → form.kind = .lanes f → r.slot < 16 →
      let tag := 64 + r.slot * 4
      let row := r.rb + r.k
      let x := f r.inp (sourceRow s k r.issued tag r.srcA row) (sourceRow s k r.issued (tag + 1) r.srcB row)
        (sourceRow s k r.issued (tag + 2) r.srcC row)
      (rowStep s k r).2 = (if r.k = r.rn then none else some { r with k := r.k + 1, due := r.due + 1 }) ∧
      OnlyAt s (rowStep s k r).1 k (coreOf k) ∧
      ((rowStep s k r).1.ctx k).pending =
        (Spec.taskRow r (r.lat + r.step * r.k) row (r.contestedAt row) x).foldl Machine.addPending (s.ctx k).pending

/-- Vector arithmetic, per sub-element of an active lane (R134 to R141, R144 to R150, R152, R165, R169, R174, R176 to R179): the result row
that is in flight holds, modulo 2^w, the integer that the spec's table gives, the exact value rounded once, the clamped one with SAT, the
quotient with its corner cases, or what else the table says, and raises the status of its active lanes; a masked lane holds 0 in the
latch and is not written in the register (R45). That NX stands beside NV where a float out of range is converted is the model's reading
(log entry 93). -/
def Obligations.IntegerVectorArithmetic : Prop :=
  (∀ (i : Instr) (u : SlotV) (f : FieldV) (lat : Nat) (fn : Nat → Int → Int → Int → Int),
    Spec.subElementOperation i = some (u, f, lat, fn) → etFloat f.et.toNat = false →
  ∀ (s : State) (e : Env), Ready s e u.index f.pf f.pn →
    let v := fieldsV u f 0
    let et := f.et.toNat
    let w := subWidth et
    let m := laneMask s e u.index f.ks
    let int (x : W32) (j : Nat) : Int := if etSigned et then signedOf w (subOf w x j) else (subOf w x j : Nat)
    let a := Spec.laneRow s e v et 0 v.opa v.rb
    let b := Spec.laneRow s e v et 1 v.opb v.rb
    let c := Spec.laneRow s e v et 2 v.opc v.rb
    ∃ t x, exec i s = .next t ∧
      (∀ l j, l < 64 → j < 32 / w →
        ((subOf w (laneOf x l) j : Nat) : Int) =
          if m.getLsbD l then fn w (int (laneOf a l) j) (int (laneOf b l) j) (int (laneOf c l) j) % 2 ^ w else 0) ∧
      Spec.Streams s t e u.index (f.rn.toNat + 1)
        (Spec.rowLands e v lat v.rb x m x 0)
        (if v.rn = 0 then [] else
          [{ due := e.t + 1, issued := e.t, slot := u.index, k := 1, instr := i, rb := v.rb, rn := v.rn, lat := lat, step := 1
             result := .rows, dst := v.dst, ws := v.ws, inp := Spec.vectorInputs s e v, srcA := vectorOperand s e u.index 0 et v.opa
             srcB := vectorOperand s e u.index 1 et v.opb, srcC := vectorOperand s e u.index 2 et v.opc, kept := [], acc := 0
             pat := [], contested := [] }])) ∧
  ∀ (i : Instr) (v : VectorFields) (occ : Nat) (pf : BitVec 4) (pn : Bool), Spec.vectorOperation i = some (v, occ, pf, pn) →
  ∀ (s : State) (e : Env) (typeA typeC lat step : Nat) (rel : VecIn → Nat → W32 → W32 → W32 → W32 → Status → Prop),
    Spec.laneValue (patEntry (patWords s e.k e.t i)) i = some (typeA, typeC, lat, step, rel) → Ready s e v.slot pf pn →
    let inp := Spec.vectorInputs s e v
    let a := Spec.laneRow s e v typeA 0 v.opa v.rb
    let b := Spec.laneRow s e v typeA 1 v.opb v.rb
    let c := Spec.laneRow s e v typeC 2 v.opc v.rb
    ∃ (t : State) (x : Row) (st : Status) (each : Nat → Status), exec i s = .next t ∧
      (∀ l, l < 64 → if inp.mask.getLsbD l then rel inp l (laneOf a l) (laneOf b l) (laneOf c l) (laneOf x l) (each l)
        else laneOf x l = 0) ∧
      (∀ n, st.getLsbD n = true ↔ ∃ l, l < 64 ∧ inp.mask.getLsbD l = true ∧ (each l).getLsbD n = true) ∧
      Spec.Streams s t e v.slot occ (Spec.rowLands e v lat v.rb x inp.mask x st)
        (if v.rn = 0 then [] else
          [Spec.rowTask i s e v
            { typeA := typeA, typeC := typeC, lat := lat, step := step, kind := .lanes fun _ _ _ _ => (Row.zero, 0) } [] 0])

/-- vcmp and vkmov to a mask (R142, R143, R145): each window row gives its latch row, all ones in the active lanes where the
condition holds, row 0 at t + 2 and row k, read at t + k, at t + 2 + k; the mask is the OR of the rows, or their AND with COMB, can be
read at t + 3 + RN and leaves the bits of inactive lanes as they are. The condition of a lane is that of Table 9 for some
sub-element, or for all of them with COMB. -/
def Obligations.VectorMaskResults : Prop :=
  (∀ (i : Instr) (v : VectorFields) (occ : Nat) (pf : BitVec 4) (pn : Bool), Spec.vectorOperation i = some (v, occ, pf, pn) →
    ∀ (s : State) (e : Env) (form : VectorForm) (all : Bool) (f : VecIn → Row → Row → Row → Row × Status),
      vectorForm (patEntry (patWords s e.k e.t i)) i = some form → form.kind = .mask all f → Ready s e v.slot pf pn →
      let inp := Spec.vectorInputs s e v
      let r := f inp (Spec.laneRow s e v form.typeA 0 v.opa v.rb) (Spec.laneRow s e v form.typeA 1 v.opb v.rb)
        (Spec.laneRow s e v form.typeC 2 v.opc v.rb)
      ∃ t, exec i s = .next t ∧
        Spec.Streams s t e v.slot occ
          (Spec.rowLands e { v with ws := true } form.lat v.rb r.1 inp.mask r.1 r.2
            ++ if v.rn = 0 then Spec.maskLands e v form.lat inp.mask (maskOfRow r.1) else [])
          (if v.rn = 0 then [] else [Spec.rowTask i s e v form [] (maskOfRow r.1)])) ∧
  (∀ (u : SlotV) (f : FieldV) (s : State) (e : Env), Ready s e u.index f.pf f.pn →
    let et := f.et.toNat
    (let v := fieldsV u f 0
     let all := f.aux.getLsbD 4
     let fn := rowCmp (f.aux.toNat % 16) et all (f.aux.getLsbD 5)
     let inp := Spec.vectorInputs s e v
     let r := fn inp (Spec.laneRow s e v et 0 v.opa v.rb) (Spec.laneRow s e v et 1 v.opb v.rb) Row.zero
     ∃ t, exec (.vcmp u f) s = .next t ∧
       Spec.Streams s t e u.index (f.rn.toNat + 1)
         (Spec.rowLands e { v with ws := true } 2 v.rb r.1 inp.mask r.1 r.2
           ++ if v.rn = 0 then Spec.maskLands e v 2 inp.mask (maskOfRow r.1) else [])
         (if v.rn = 0 then [] else
           [Spec.rowTask (.vcmp u f) s e v { typeA := et, typeC := et, lat := 2, step := 1, kind := .mask all fn } []
             (maskOfRow r.1)])) ∧
    (f.aux.getLsbD 0 = true →
     let v := fieldsV u f (f.aux.toNat / 2 % 8)
     let inp := Spec.vectorInputs s e v
     let r := rowNonZero inp (Spec.laneRow s e v 0 0 v.opa v.rb) Row.zero Row.zero
     ∃ t, exec (.vkmov u f) s = .next t ∧
       Spec.Streams s t e u.index (f.rn.toNat + 1)
         (Spec.rowLands e { v with ws := true } 2 v.rb r.1 inp.mask r.1 r.2
           ++ if v.rn = 0 then Spec.maskLands e v 2 inp.mask (maskOfRow r.1) else [])
         (if v.rn = 0 then [] else
           [Spec.rowTask (.vkmov u f) s e v { typeA := 0, typeC := 0, lat := 2, step := 1, kind := .mask false rowNonZero } []
             (maskOfRow r.1)]))) ∧
  (∀ (s : State) (k : Nat) (r : RowTask) (form : VectorForm) (all : Bool) (f : VecIn → Row → Row → Row → Row × Status),
    vectorForm (patEntry r.pat) r.instr = some form → form.kind = .mask all f → r.slot < 16 → 1 ≤ r.k →
    let row := r.rb + r.k
    let x := f r.inp (Spec.taskSource s k r 0 r.srcA) (Spec.taskSource s k r 1 r.srcB) (Spec.taskSource s k r 2 r.srcC)
    let acc := if all then r.acc &&& maskOfRow x.1 else r.acc ||| maskOfRow x.1
    (rowStep s k r).2 = (if r.k = r.rn then none else some { r with k := r.k + 1, due := r.due + 1, acc := acc }) ∧
    OnlyAt s (rowStep s k r).1 k (coreOf k) ∧
    ((rowStep s k r).1.ctx k).pending =
      (Spec.taskRow { r with ws := true } (r.lat + r.k) row 0 x
        ++ if r.k = r.rn ∧ r.ws = false then
            ([{ due := r.issued + (r.lat + r.rn) + 1, issued := r.issued, slot := r.slot, contested := r.contestedAt 0
                what := .kmask (r.dst % 8) r.inp.mask acc }] : List Pending)
          else []).foldl Machine.addPending (s.ctx k).pending) ∧
  ∀ (cond et : Nat) (all ub : Bool) (inp : VecIn) (a b : Row) (l : Nat), l < 64 →
    let n := 32 / subWidth et
    let holds (j : Nat) : Bool :=
      Spec.subCondition cond et ub (subOf (subWidth et) (laneOf a l) j) (subOf (subWidth et) (laneOf b l) j)
    let lane : Bool := if all then (List.range n).all holds else (List.range n).any holds
    ((cond < 6 ∨ etFloat et = true) →
      laneOf (rowCmp cond et all ub inp a b Row.zero).1 l = if inp.mask.getLsbD l && lane then 0xFFFFFFFF else 0) ∧
    laneOf (rowNonZero inp a Row.zero Row.zero).1 l = (if inp.mask.getLsbD l && laneOf a l != 0 then 0xFFFFFFFF else 0) ∧
    (maskOfRow a).getLsbD l = (laneOf a l != 0)

/-- Row-axis operations (R153 to R155, R159): vrotr, vbcr, vshuf and vscanr read every window row at t, and result row k
lands at t + L + k. A rotation takes lane l from lane l - n, a broadcast from lane n, n being lane 0 of OPB (R154); a shuffle takes it
from the lane that its own lane of OPB names, or 0 where bit 31 is set (R155); an inclusive scan gives an active lane the combination of
its own element with the scan of the active lane before it, and an exclusive one the inclusive scan of that lane, or the identity in
the first active lane (R159). Masked lanes are 0. -/
def Obligations.RowAxisResults : Prop :=
  (∀ (i : Instr) (v : VectorFields) (occ : Nat) (pf : BitVec 4) (pn : Bool), Spec.vectorOperation i = some (v, occ, pf, pn) →
    ∀ (s : State) (e : Env) (form : VectorForm) (f : VecIn → Row → Row → Row → Row × Status),
      vectorForm (patEntry []) i = some form → form.kind = .rowAxis f → Ready s e v.slot pf pn →
      let inp := Spec.vectorInputs s e v
      let r (j : Nat) := f inp (Spec.axisRow s e v form.typeA 0 v.opa (v.rb + j)) (Spec.axisRow s e v form.typeA 1 v.opb (v.rb + j))
        Row.zero
      ∃ t, exec i s = .next t ∧
        Results s t e v.slot occ 1
          ((List.range (v.rn + 1)).flatMap fun j =>
            Spec.rowLands e v (form.lat + form.step * j) (v.rb + j) (r j).1 inp.mask (r j).1 (r j).2)) ∧
  (∀ (i : Instr) (u : SlotV) (f : FieldV) (lat : Nat) (fn : VecIn → Row → Row → Row → Row × Status),
    Spec.rowAxisOperation i = some (u, f, lat, fn) →
    ∀ (s : State) (e : Env), Ready s e u.index f.pf f.pn →
      let v := fieldsV u f 0
      let m := laneMask s e u.index f.ks
      let r (j : Nat) := fn (Spec.vectorInputs s e v) (Spec.axisRow s e v f.et.toNat 0 v.opa (v.rb + j))
        (Spec.axisRow s e v f.et.toNat 1 v.opb (v.rb + j)) Row.zero
      ∃ t, exec i s = .next t ∧
        Results s t e u.index (f.rn.toNat + 1) 1
          ((List.range (v.rn + 1)).flatMap fun j => Spec.rowLands e v (lat + j) (v.rb + j) (r j).1 m (r j).1 (r j).2)) ∧
  (∀ (inp : VecIn) (a b c : Row) (l : Nat), l < 64 → inp.mask.getLsbD l = true →
      let n := (laneOf b 0).toNat % 64
      laneOf (rowRotr inp a b c).1 l = laneOf a ((l + 64 - n) % 64) ∧ laneOf (rowBcr inp a b c).1 l = laneOf a n ∧
      (∀ x, x < 64 → inp.mask.getLsbD ((x + n) % 64) = true → laneOf (rowRotr inp a b c).1 ((x + n) % 64) = laneOf a x) ∧
      laneOf (rowShuf inp a b c).1 l =
        if (laneOf b l).getLsbD 31 then 0 else laneOf a ((laneOf b l).toNat % 64)) ∧
  (∀ (op et : Nat) (inp : VecIn) (a b c : Row) (l : Nat), l < 64 → inp.mask.getLsbD l = true →
      let scan (excl : Bool) (j : Nat) : W32 := laneOf (rowScan op et excl inp a b c).1 j
      match ((List.range l).filter fun j => inp.mask.getLsbD j).getLast? with
      | none => scan false l = laneOf a l ∧ scan true l = combineIdentity op et
      | some p => scan false l = (combine op et inp.frm (scan false p) (laneOf a l)).1 ∧ scan true l = scan false p) ∧
  ∀ (op et : Nat) (excl : Bool) (inp : VecIn) (a b c : Row) (l : Nat), l < 64 → inp.mask.getLsbD l = false →
      laneOf (rowRotr inp a b c).1 l = 0 ∧ laneOf (rowBcr inp a b c).1 l = 0 ∧ laneOf (rowShuf inp a b c).1 l = 0 ∧
      laneOf (rowScan op et excl inp a b c).1 l = 0

/-- vvote, vredr and vput (R151, R156, R157, R158): one result each, of rows all read at t. A voting lane gets its segment's any, all or
uni; element k of the reduced row is the tree over the active lanes of window row k, or the identity where there is none, of the
combining operation that Table 11 gives for each sub-element. That vput and vredr write their row where no lane is active is the model's
reading (log entry 100). -/
def Obligations.SingleVectorResults : Prop :=
  ∀ (u : SlotV) (f : FieldV) (s : State) (e : Env), Ready s e u.index f.pf f.pn →
    let v := fieldsV u f 0
    let m := laneMask s e u.index f.ks
    let inp := Spec.vectorInputs s e v
    let rows (type : Nat) := tabulate (Spec.axisRow s e v type 0 v.opa) (v.rn + 1) v.rb
    (let bits := voteMask (f.aux.toNat % 4) (f.aux.toNat / 4 % 8) m (rows 0)
     ∃ t, exec (.vvote u f) s = .next t ∧
       Results s t e u.index (f.rn.toNat + 1) 1
         (((List.range (v.rn + 1)).map fun j => (e.t + 4, Landing.latchV (vectorLatch v.slot) (v.rb + j) (rowOfMask m bits)))
           ++ Spec.maskLands e v 4 m bits) ∧
       ∀ l, l < 64 →
         let size := 2 ^ (f.aux.toNat / 4 % 8)
         let vote (j : Nat) : Prop := ∃ r ∈ rows 0, laneOf r j ≠ 0
         let counted (j : Nat) : Prop := j < 64 ∧ j / size = l / size ∧ m.getLsbD j = true
         laneOf (rowOfMask m bits) l = (if m.getLsbD l && bits.getLsbD l then 0xFFFFFFFF else 0) ∧
         (bits.getLsbD l = true ↔ m.getLsbD l = true ∧ match f.aux.toNat % 4 with
           | 0 => ∃ j, counted j ∧ vote j
           | 1 => ∀ j, counted j → vote j
           | _ => (∀ j, counted j → vote j) ∨ ∀ j, counted j → ¬ vote j)) ∧
    (let x := rowsReduce (f.aux.toNat % 8) f.et.toNat inp (rows f.et.toNat)
     ∃ t, exec (.vredr u f) s = .next t ∧
       Results s t e u.index (f.rn.toNat + 1) 1
         (Spec.rowLands e v 6 v.rb x.1 (BitVec.allOnes 64) x.1 x.2
           ++ (List.range v.rn).map fun j => (e.t + 6, Landing.latchV (vectorLatch v.slot) (v.rb + 1 + j) Row.zero)) ∧
       ∀ l, l < 64 →
         laneOf x.1 l =
           if l ≤ v.rn then
             (Spec.treeOf (fun p q => (combine (f.aux.toNat % 8) f.et.toNat inp.frm p q).1) 6 fun j =>
               if m.getLsbD j then some (laneOf ((rows f.et.toNat).getD l Row.zero) j) else none).getD
                 (combineIdentity (f.aux.toNat % 8) f.et.toNat)
           else 0) ∧
    (∀ (op et frm : Nat) (p q : W32) (j : Nat), op < 6 → j < 32 / subWidth et →
      let w := subWidth et
      let int (x : W32) : Int := if etSigned et then signedOf w (subOf w x j) else (subOf w x j : Nat)
      let num (x : W32) : FloatNum := floatDecode (etFormat et) (subOf w x j)
      let both := subOf w (combine op et frm p q).1 j
      let none' := subOf w (combineIdentity op et) j
      match op with
      | 0 => none' = 0 ∧ if etFloat et then both = (Spec.roundedSum (etFormat et) frm (num p) (num q)).1 % 2 ^ w
        else both = ((int p + int q) % 2 ^ w).toNat
      | 1 => if etFloat et then none' = floatInf (etFormat et) false ∧ both = Spec.lesser (etFormat et) false (subOf w p j) (subOf w q j) % 2 ^ w
        else none' = ((Spec.intRange (etSigned et) w).2 % 2 ^ w).toNat ∧ both = (min (int p) (int q) % 2 ^ w).toNat
      | 2 => if etFloat et then none' = floatInf (etFormat et) true ∧ both = Spec.lesser (etFormat et) true (subOf w p j) (subOf w q j) % 2 ^ w
        else none' = ((Spec.intRange (etSigned et) w).1 % 2 ^ w).toNat ∧ both = (max (int p) (int q) % 2 ^ w).toNat
      | 3 => none' = 2 ^ w - 1 ∧ both = subOf w p j &&& subOf w q j
      | 4 => none' = 0 ∧ both = subOf w p j ||| subOf w q j
      | _ => none' = 0 ∧ both = subOf w p j ^^^ subOf w q j) ∧
    (let i := (laneOf (Spec.axisRow s e v f.et.toNat 1 v.opb 0) 0).toNat % 1024
     let old := s.readVrow e.k e.t (u.index * 4 + 2) v.dst (i / 64)
     let new := if m.getLsbD (i % 64) then old.setIfInBounds (i % 64) (laneOf (Spec.axisRow s e v f.et.toNat 0 v.opa 0) 0) else old
     ∃ t, exec (.vput u f) s = .next t ∧
       Results s t e u.index (f.rn.toNat + 1) 1 (Spec.rowLands e v 2 (i / 64) new (BitVec.allOnes 64) new 0))

/-- Column-axis operations (R160 to R163): vrotc, vbcc, vredc and vscanc, with the window of sixteen rows that they need, read row 0
at t and go on row by row; they occupy the slot for sixteen cycles, and nothing is in flight before the last row has been read, which
puts result row k in flight for t + 18 + k, or every row for t + 20 (vredc). Each active lane is computed from its own column: a
rotation, a broadcast of row n (R161), the tree over the rows in every row (R162), and the scans (R163). -/
def Obligations.ColumnAxisIssue : Prop :=
  (∀ (i : Instr) (v : VectorFields) (occ : Nat) (pf : BitVec 4) (pn : Bool), Spec.vectorOperation i = some (v, occ, pf, pn) →
    ∀ (s : State) (e : Env) (form : VectorForm) (f : VecIn → List Row → List Row → List (Row × Status)),
      vectorForm (patEntry []) i = some form → form.kind = .column f → v.rn = 15 → Ready s e v.slot pf pn →
      occ = 16 ∧
      ∃ t, exec i s = .next t ∧
        Spec.Streams s t e v.slot 16 []
          [Spec.rowTask i s e v form
            [(Spec.laneRow s e v form.typeA 0 v.opa v.rb, Spec.laneRow s e v form.typeA 1 v.opb v.rb)] 0]) ∧
  (∀ (i : Instr) (u : SlotV) (f : FieldV) (lat step : Nat) (fn : VecIn → List Row → List Row → List (Row × Status)),
    Spec.columnOperation i = some (u, f, lat, step, fn) → f.rn = 15 →
    ∀ (s : State) (e : Env), Ready s e u.index f.pf f.pn →
      let v := fieldsV u f 0
      ∃ t, exec i s = .next t ∧
        Spec.Streams s t e u.index 16 []
          [Spec.rowTask i s e v { typeA := f.et.toNat, typeC := 0, lat := lat, step := step, kind := .column fn }
            [(Spec.laneRow s e v f.et.toNat 0 v.opa v.rb, Spec.laneRow s e v f.et.toNat 1 v.opb v.rb)] 0]) ∧
  (∀ (s : State) (k : Nat) (r : RowTask) (form : VectorForm) (f : VecIn → List Row → List Row → List (Row × Status)),
    vectorForm (patEntry r.pat) r.instr = some form → form.kind = .column f → r.slot < 16 →
    let kept := r.kept ++ [(Spec.taskSource s k r 0 r.srcA, Spec.taskSource s k r 1 r.srcB)]
    (r.k ≠ r.rn → rowStep s k r = (s, some { r with kept := kept, k := r.k + 1, due := r.due + 1 })) ∧
    (r.k = r.rn →
      let rows := f r.inp (kept.map Prod.fst) (kept.map Prod.snd)
      (rowStep s k r).2 = none ∧ OnlyAt s (rowStep s k r).1 k (coreOf k) ∧
      ((rowStep s k r).1.ctx k).pending =
        ((List.range rows.length).flatMap fun j =>
          Spec.taskRow r (r.lat + r.step * j) j (r.contestedAt j) (rows.getD j (Row.zero, 0))).foldl Machine.addPending
            (s.ctx k).pending)) ∧
  ∀ (op et : Nat) (inp : VecIn) (as bs : List Row) (c r : Nat), as.length = 16 → c < 64 → r < 16 → inp.mask.getLsbD c = true →
    let a (j : Nat) : W32 := laneOf (as.getD j Row.zero) c
    let n := (laneOf (bs.getD 0 Row.zero) c).toNat % 16
    let at' (rows : List (Row × Status)) (j : Nat) : W32 := laneOf (rows.getD j (Row.zero, 0)).1 c
    let f (x y : W32) : W32 := (combine op et inp.frm x y).1
    at' (colMove false inp as bs) r = a ((r + 16 - n) % 16) ∧ at' (colMove true inp as bs) r = a n ∧
    at' (colReduce op et inp as) r = Spec.tree f 4 a ∧
    at' (colScan op et false inp as) 0 = a 0 ∧ at' (colScan op et true inp as) 0 = combineIdentity op et ∧
    (r + 1 < 16 →
      at' (colScan op et false inp as) (r + 1) = f (at' (colScan op et false inp as) r) (a (r + 1)) ∧
      at' (colScan op et true inp as) (r + 1) = at' (colScan op et false inp as) r)

/-- The function unit in scalar mode, and keccak: the elementary functions (R164, R165, R169) and the bit functions (R174, R176 to R179)
give their result in FN.l at t + L and in the register at t + L + 1, as their tables say; the special and exact cases are those of R171,
the others lie within the bounds of R170; keccak makes one round of the state in elements 0 to 49 of a row and copies the others (R180). -/
def Obligations.FunctionUnitResults : Prop :=
  (∀ (i : Instr) (f : FieldF) (lat : Nat) (fn : Nat → (Nat → Nat → Byte) → W64 → W64 → W64 × Status),
      Spec.scalarFunction i = some (f, lat, fn) → vmF f = false →
    ∀ (s : State) (e : Env), Ready s e 5 f.pf f.pn →
      let r := fn (s.readCsr e.k e.t 20 0x003).toNat (fun _ _ => 0) (scalarOperand s e 5 0 f.opa) (scalarOperand s e 5 1 f.opb)
      ∃ t, exec i s = .next t ∧
        Results s t e 5 1 1
          ((e.t + lat, .latchS 2 r.1) :: ((if f.ws then [] else [(e.t + lat + 1, .scalar f.dst.toNat r.1)])
            ++ if r.2 = 0 then [] else [(e.t + lat + 1, .status 5 r.2)]))) ∧
  (∀ (i : Instr) (f : FieldF) (lat : Nat) (rel : (Nat → Nat → Byte) → W64 → W64 → W64 → Prop),
      Spec.bitFunction i = some (f, lat, rel) → vmF f = false →
    ∀ (s : State) (e : Env), Ready s e 5 f.pf f.pn →
      ∃ t x, exec i s = .next t ∧
        rel (patEntry (patWords s e.k e.t (.bnet f))) (scalarOperand s e 5 0 f.opa) (scalarOperand s e 5 1 f.opb) x ∧
        Results s t e 5 1 1 ((e.t + lat, .latchS 2 x) :: if f.ws then [] else [(e.t + lat + 1, .scalar f.dst.toNat x)])) ∧
  Spec.SpecialCases ∧ Spec.WithinBounds ∧
  (∀ (f : FieldF) (s : State) (e : Env), vmF f = true → (fieldsF f).rn = 0 → Ready s e 5 f.pf f.pn →
    let v := fieldsF f
    let m := (Spec.vectorInputs s e v).mask
    let a := Spec.laneRow s e v 0 0 v.opa v.rb
    let ir := (laneOf (Spec.laneRow s e v 0 1 v.opb v.rb) 0).toNat % 32
    ∃ (t : State) (x : Row) (new : Nat → W64), exec (.keccak f) s = .next t ∧
      Spec.KeccakRound ir (fun w => laneOf a (2 * w + 1) ++ laneOf a (2 * w)) new ∧
      (∀ l, l < 64 → laneOf x l =
        if !m.getLsbD l then 0
        else if l < 50 then (new (l / 2)).extractLsb' (32 * (l % 2)) 32
        else laneOf a l) ∧
      Spec.Streams s t e 5 1 (Spec.rowLands e v 4 v.rb x m x 0) [])

/-- ld and st (R283, R322): the address is (a + b) mod 2^64; a ld takes the last DLQ entry and a st its data, and either joins the
accesses of its context in program order; a st outside the output range exposes an open phase (R377). Registers, flags, memory
and all the rest stay. -/
def Obligations.LoadsAndStoresQueue : Prop :=
  ∀ (u : SlotM) (f : FieldM) (s : State) (e : Env) (p : Place), Ready s e u.index f.pf f.pn → (s.ctx e.k).overrun = none →
    let now := (s.core (coreOf e.k)).lt
    let va := scalarOperand s e u.index 0 f.opa + scalarOperand s e u.index 1 f.opb
    let size := 2 ^ f.sz.toNat
    let x (data : W64) : Element := { va := va, place := p, row := 0, lane := 0, data := data }
    (s.globalCheck e.k .load size va = .place p → (s.ctx e.k).dlq.length < 16 →
      ∃ t, exec (.ld u f) s = .next t ∧
        Changes s t e u.index 1 1 fun c =>
          Spec.queued now (Spec.entered c) (.load c.nextAccess (f.aux.getLsbD 0)) size f.sc.toNat (ordM f) [x 0]) ∧
    (s.globalCheck e.k .store size va = .place p → (s.ctx e.k).storeQueue < 32 →
      ∃ t, exec (.st u f) s = .next t ∧
        Changes s t e u.index 1 1 fun c =>
          Spec.queued now (if c.inOutput va size then c else c.expose) .store size f.sc.toNat (ordM f)
            [x (s.readS e.k e.t (u.index * 4 + 2) f.dst.toNat)])

/-- vld, vst, vgat and vsct (R279, R285, R286): sixteen rows; element (row, lane) lies at a + size × (64 × row + lane), or at
a + size × index with the index extended as AUX[4] says; the active elements join the accesses of the context in row-major,
lane order. The slot is occupied for sixteen cycles; registers and memory stay. -/
def Obligations.VectorAccessesQueue : Prop :=
  ∀ (i : Instr) (u : SlotM) (f : FieldM) (store indexed : Bool), Spec.vectorAccess i = some (u, f, store, indexed) →
  ∀ (s : State) (e : Env), Ready s e u.index f.pf f.pn → (s.ctx e.k).overrun = none →
    let now := (s.core (coreOf e.k)).lt
    let m := laneMask s e u.index f.ks
    let size := 2 ^ f.sz.toNat
    let index (row lane : Nat) : W64 :=
      let w := laneOf (sourceRow s e.k e.t (u.index * 4 + 1) (vectorOperand s e u.index 1 0 f.opb) row) lane
      if f.aux.getLsbD 4 then w.zeroExtend 64 else w.signExtend 64
    let addr (row lane : Nat) : W64 := scalarOperand s e u.index 0 f.opa +
      if indexed then BitVec.ofNat 64 size * index row lane else BitVec.ofNat 64 (size * (64 * row + lane))
    let place (va : W64) : Option Place := Spec.globalPlace (s.globalCheck e.k (if store then .store else .load) size va)
    let data (row lane : Nat) : W64 :=
      if store then (laneOf (s.readVrow e.k e.t (u.index * 4 + 2) (f.dst.toNat % 16) row) lane).zeroExtend 64 else 0
    (∀ row lane, row < 16 → lane < 64 → m.getLsbD lane = true → (place (addr row lane)).isSome = true) →
    ∃ t xs, exec i s = .next t ∧ Spec.ElementsOf m addr place data xs ∧
      Changes s t e u.index 16 1 fun c =>
        Spec.queued now (if store && !xs.all (fun x => c.inOutput x.va size) then c.expose else c)
          (if store then .vstore (f.aux.toNat % 16) else .vload (f.dst.toNat % 16) (f.aux.toNat % 16))
          size f.sc.toNat (ordM f) xs

/-- amo and red (R304, R305, R377, R378), on global memory and on the scratchpad: an amo exposes an open phase and takes a DLQ
entry; a red joins the held reductions of a phase or the accesses. Registers, flags and memory stay. -/
def Obligations.AtomicsQueue : Prop :=
  ∀ (u : SlotM) (f : FieldM) (s : State) (e : Env) (p : Place), Ready s e u.index f.pf f.pn → (s.ctx e.k).overrun = none →
    Spec.Alone (s.ctx e.k) e.t →
    let now := (s.core (coreOf e.k)).lt
    let va := scalarOperand s e u.index 0 f.opa
    let size := 2 ^ f.sz.toNat
    let op := f.aux.toNat % 32
    let pad := f.aux.getLsbD 5
    let reaches (use : PageUse) (returning : Bool) : Prop :=
      if pad then Spec.padPlace s e.k size va = some p ∧ s.spadHold e.k size u.index [[va]] = none
      else s.atomicCheck e.k use size returning op va = .place p
    let x : Element := { va := va, place := p, row := 0, lane := 0, data := scalarOperand s e u.index 1 f.opb }
    (reaches .update true → (s.ctx e.k).dlq.length < 16 →
      ∃ t, exec (.amo u f) s = .next t ∧
        Changes s t e u.index 1 1 fun c =>
          Spec.queued now (Spec.entered c.expose) (.amo c.nextAccess op (s.readS e.k e.t (u.index * 4 + 2) f.dst.toNat))
            size f.sc.toNat (ordM f) [x]) ∧
    (reaches .store false → (s.ctx e.k).storeQueue < 32 →
      ∃ t, exec (.red u f) s = .next t ∧
        Changes s t e u.index 1 1 fun c => Spec.reduced now c (.red op) size f.sc.toNat (ordM f) [x])

/-- vamo and vred (R303, R306), on global memory (indices sign-extended) and on the scratchpad (SC = 1, zero-extended): the active
elements join, at 4 bytes each, with the operation that AUX[5:4] names. -/
def Obligations.VectorAtomicsQueue : Prop :=
  ∀ (u : SlotM) (f : FieldM) (s : State) (e : Env), Ready s e u.index f.pf f.pn → (s.ctx e.k).overrun = none →
    Spec.Alone (s.ctx e.k) e.t →
    let now := (s.core (coreOf e.k)).lt
    let m := laneMask s e u.index f.ks
    let pad := decide (f.sc = 1)
    let op := match f.aux.toNat / 16 % 4 with | 0 => 0 | 1 => 10 | 2 => 7 | _ => 2
    let index (row lane : Nat) : W64 :=
      let w := laneOf (sourceRow s e.k e.t (u.index * 4 + 1) (vectorOperand s e u.index 1 0 f.opb) row) lane
      if pad then w.zeroExtend 64 else w.signExtend 64
    let addr (row lane : Nat) : W64 := scalarOperand s e u.index 0 f.opa + 4 * index row lane
    let data (row lane : Nat) : W64 :=
      (laneOf (s.readVrow e.k e.t (u.index * 4 + 2) (f.dst.toNat % 16) row) lane).zeroExtend 64
    let place (use : PageUse) (returning : Bool) (va : W64) : Option Place :=
      if pad then Spec.padPlace s e.k 4 va else Spec.globalPlace (s.atomicCheck e.k use 4 returning op va)
    let reaches (use : PageUse) (returning : Bool) : Prop :=
      (∀ row lane, row < 16 → lane < 64 → m.getLsbD lane = true → (place use returning (addr row lane)).isSome = true) ∧
      (pad = true → s.spadHold e.k 4 u.index (Spec.activeRows m addr) = none)
    (reaches .update true →
      ∃ t xs, exec (.vamo u f) s = .next t ∧ Spec.ElementsOf m addr (place .update true) data xs ∧
        Changes s t e u.index 16 1 fun c =>
          Spec.queued now c.expose (.vamo (f.dst.toNat % 16) (!f.ws) op (f.aux.toNat % 16)) 4 f.sc.toNat (ordM f) xs) ∧
    (reaches .store false → (s.ctx e.k).storeQueue < 32 →
      ∃ t xs, exec (.vred u f) s = .next t ∧ Spec.ElementsOf m addr (place .store false) data xs ∧
        Changes s t e u.index 16 1 fun c => Spec.reduced now c (.vred op (f.aux.toNat % 16)) 4 f.sc.toNat (ordM f) xs)

/-- lds and sts (R284): with nothing queued before them, a lds reads its bytes at t, extended as AUX[0] says, into the latch at
t + 6 and the register at t + 7; a sts stores the low bytes of its data at t, and every other byte of memory stays. -/
def Obligations.ScratchpadScalarAccesses : Prop :=
  ∀ (u : SlotM) (f : FieldM) (s : State) (e : Env) (p : Place), Ready s e u.index f.pf f.pn → (s.ctx e.k).overrun = none →
    Spec.Alone (s.ctx e.k) e.t →
    let va := scalarOperand s e u.index 0 f.opa + scalarOperand s e u.index 1 f.opb
    let size := 2 ^ f.sz.toNat
    let word := ofBytes (s.bytesAt p.key size)
    let data := (s.readS e.k e.t (u.index * 4 + 2) f.dst.toNat).toNat
    Spec.padPlace s e.k size va = some p → s.spadHold e.k size u.index [[va]] = none → (s.ctx e.k).accesses = [] →
    Memory.wf s.mem = true → planeOf p.key = 40 →
    mapGet? s.partials (lineOf p.key) = none → s.poisoned.contains (lineOf p.key) = false →
    (∃ b, Spec.Begun s b e u.index 1 ∧
      exec (.lds u f) s = .next (Spec.inFlight
        ((b.stampLoad (s.ctx e.k).lts p.key).2.updCtx e.k fun c =>
          { c with lts := (b.stampLoad (s.ctx e.k).lts p.key).1 }) e u.index
        (Spec.memoryLands u f e 6
          (if f.aux.getLsbD 0 then BitVec.ofInt 64 (signedOf (8 * size) word) else BitVec.ofNat 64 word)))) ∧
    (∃ t, exec (.sts u f) s = .next t ∧ Memory.wf t.mem = true ∧
      (∀ j, j < size → (t.byteAt (p.key + j)).toNat = data / 256 ^ j % 256) ∧
      (∀ a, Spec.realPlane (planeOf a) = true → a < p.key ∨ p.key + size ≤ a → t.byteAt a = s.byteAt a) ∧
      (t.ctx e.k).s = (s.ctx e.k).s ∧ (t.ctx e.k).fl = (s.ctx e.k).fl ∧ (t.ctx e.k).v = (s.ctx e.k).v ∧
      (t.ctx e.k).pending = (s.ctx e.k).pending ∧ (t.ctx e.k).pc = e.next)

/-- vlds, vgats, vsts and vscts (R287): rows RB to RB + RN of the register; with nothing queued before them, a load puts row k in
flight for t + 8 + k (latch) and t + 9 + k (register), with 0 in the lanes that are masked off, and leaves memory as it is; a store
performs row 0 at t and row k at t + k. The slot is occupied for RN + 1 cycles. That every row of a load holds the bytes that memory
has at the issue is the model's reading (log entry 22). -/
def Obligations.ScratchpadVectorAccesses : Prop :=
  ∀ (u : SlotM) (f : FieldM) (s : State) (e : Env) (indexed : Bool), Ready s e u.index f.pf f.pn →
    (s.ctx e.k).overrun = none → (s.ctx e.k).accesses = [] → Spec.Alone (s.ctx e.k) e.t →
    let m := laneMask s e u.index f.ks
    let size := 2 ^ f.sz.toNat
    let rb := f.aux.toNat / 16
    let rn := f.aux.toNat % 16
    let index (row lane : Nat) : W64 :=
      (laneOf (sourceRow s e.k e.t (u.index * 4 + 1) (vectorOperand s e u.index 1 0 f.opb) row) lane).zeroExtend 64
    let va (k lane : Nat) : W64 := scalarOperand s e u.index 0 f.opa +
      if indexed then BitVec.ofNat 64 size * index (rb + k) lane else BitVec.ofNat 64 (size * (64 * k + lane))
    let key (k lane : Nat) : Nat := ((Spec.padPlace s e.k size (va k lane)).map Place.key).getD 0
    let lanes := (List.range 64).filter fun l => m.getLsbD l
    (∀ k l, k ≤ rn → l ∈ lanes → (Spec.padPlace s e.k size (va k l)).isSome = true ∧ planeOf (key k l) = 40 ∧
      mapGet? s.partials (lineOf (key k l)) = none ∧ s.poisoned.contains (lineOf (key k l)) = false) →
    s.spadHold e.k size u.index ((List.range (rn + 1)).map fun k => lanes.map (va k)) = none →
    (let row (k : Nat) : Row := Vector.ofFn fun l =>
        if m.getLsbD l.val then BitVec.ofNat 32 (ofBytes (s.bytesAt (key k l.val) size)) else 0
     ∃ t, exec (if indexed then .vgats u f else .vlds u f) s = .next t ∧ t.mem = s.mem ∧
      (t.ctx e.k).pending = joined (s.ctx e.k).pending e u.index ((List.range (rn + 1)).flatMap fun k =>
        (e.t + 8 + k, .latchV (vectorLatch u.index) (rb + k) (row k)) ::
          if f.ws then [] else [(e.t + 9 + k, .vrow (f.dst.toNat % 16) (rb + k) m (row k))]) ∧
      (t.ctx e.k).s = (s.ctx e.k).s ∧ (t.ctx e.k).fl = (s.ctx e.k).fl ∧ (t.ctx e.k).v = (s.ctx e.k).v ∧
      (t.ctx e.k).pc = e.next ∧ t.core e.core = (s.core e.core).issued e u.index (rn + 1) 1) ∧
    (let order := (s.ctx e.k).nextAccess
     let stored (k l : Nat) : Nat × List Byte :=
      (key k l, toBytes size (laneOf (s.readVrow e.k e.t (u.index * 4 + 2) (f.dst.toNat % 16) (rb + k)) l).toNat)
     ∃ b, Spec.Begun s b e u.index (rn + 1) ∧
      exec (if indexed then .vscts u f else .vsts u f) s = .next (Spec.inFlight
        (lanes.foldl (fun b l => b.writeFor e.k true false (rowPlace e.t order 0) 0 (stored 0 l).1 (stored 0 l).2)
          (b.updCtx e.k fun c => { c with nextAccess := order + 1 })) e u.index
        ((List.range rn).map fun k => (e.t + (k + 1) + 1, .spadRow (rowPlace e.t order (k + 1)) (lanes.map (stored (k + 1)))))))

/-- fence, pref, waita and cacheop (R288, R289, R290, R310): a fence at a scope beyond the device issues once nothing that it orders
waits, performs what is queued and acquires unless it only releases, and one at a nearer scope changes nothing; a pref changes
nothing but what its walk does; a waita arms one watch in place of one with the same flag, and reads it at once; a cacheop performs
what is queued and joins the maintenance of its context, iinv having dropped its lines at once; one whose length is 2^32 or more
takes ACCESS_FAULT. That a far fence and a cacheop perform what is queued at once is the model's choice (log entry 10), and so is that
iinv drops its lines at issue (log entry 42). -/
def Obligations.FenceWatchAndMaintenance : Prop :=
  ∀ (u : SlotM) (f : FieldM) (s : State) (e : Env), Ready s e u.index f.pf f.pn → (s.ctx e.k).overrun = none →
    let a := scalarOperand s e u.index 0 f.opa
    let b := scalarOperand s e u.index 1 f.opb
    let size := 2 ^ f.sz.toNat
    let flag := f.aux.toNat % 16
    let far := decide (3 ≤ f.sc.toNat)
    (far = false ∨ fenceWaits (ordM f) e.t (s.ctx e.k) = false →
      ∃ t, Spec.Begun s t e u.index 1 ∧
        exec (.fence u f) s =
          .next (if far then (if ordM f ≠ 2 then (t.flush e.k).acquire e.k else t.flush e.k) else t)) ∧
    (s.globalCheck e.k .load 1 (a + b) ≠ .walk →
      ∃ t, Spec.Begun s t e u.index 1 ∧ exec (.pref u f) s = .next t) ∧
    (s.globalCheck e.k .load 1 (a + b) = .walk →
      ∃ t, Spec.Begun s t e u.index 1 ∧ exec (.pref u f) s = .next (t.walkPage e.k ((a + b).toNat / 4096))) ∧
    (∀ p : Place,
      (if f.aux.getLsbD 5 then Spec.padPlace s e.k size a = some p ∧ s.spadHold e.k size u.index [[a]] = none
       else s.globalCheck e.k .load size a = .place p) →
      ((s.ctx e.k).watches.filter fun w => w.flag ≠ flag).length < 4 → (s.ctx e.k).accesses = [] →
      (f.aux.getLsbD 5 = true → Spec.Alone (s.ctx e.k) e.t) →
      let w (hit : Bool) : Watch :=
        { flag := flag, va := a, place := p, size := size, scope := f.sc.toNat, spad := f.aux.getLsbD 5
          eq := f.aux.getLsbD 4, value := BitVec.ofNat 64 (b.toNat % 2 ^ (8 * size)), hit := hit }
      ∃ t hit, exec (.waita u f) s = .next t ∧ (t.ctx e.k).watches.getLast? = some (w hit) ∧
        (t.ctx e.k).watches.length = ((s.ctx e.k).watches.filter fun x => x.flag ≠ flag).length + 1 ∧ (t.ctx e.k).pc = e.next ∧
        (mapGet? s.partials (lineOf p.key) = none → hit = s.watchHolds (w false) ∧
          Changes s t e u.index 1 1 fun c =>
            { c with watches := (c.watches.filter fun x => x.flag ≠ flag) ++ [w hit] })) ∧
    (b.toNat < 2 ^ 32 → (f.aux.toNat % 8 = 0 ∨ s.supervisor e.k = true) →
      ∃ t, Spec.Begun s t e u.index 1 ∧
        let x := t.flush e.k
        exec (.cacheop u f) s = .next
          ((if f.aux.toNat % 8 = 3 then x.dropCode e.k a.toNat b.toNat else x).updCtx e.k fun c =>
            { c with maintenance := c.maintenance ++ [.cacheop (f.aux.toNat % 8) a b (f.aux.toNat / 8 % 8)] })) ∧
    (2 ^ 32 ≤ b.toNat → (f.aux.toNat % 8 = 0 ∨ s.supervisor e.k = true) →
      exec (.cacheop u f) s = .next (s.takeTrap e.k e.t e.pc e.next
        { cause := .accessFault, slot := u.index, tval := b, decoded := true }))

/-- popq (R323) follows the head of the DLQ: it takes a value that has arrived, waits for one that has not, and traps on an entry
that failed and on an empty DLQ. -/
def Obligations.PopqFollowsTheHead : Prop :=
  ∀ (u : SlotM) (f : FieldM) (s : State) (e : Env), Ready s e u.index f.pf f.pn → (s.ctx e.k).overrun = none →
    ((s.ctx e.k).dlq = [] →
      exec (.popq u f) s = .next (s.takeTrap e.k e.t e.pc e.next
        { cause := .queueProtocol, slot := u.index, tval := BitVec.ofNat 64 (u.index + 2 ^ 11), decoded := true })) ∧
    (∀ d rest, (s.ctx e.k).dlq = d :: rest →
      match d.fate with
      | .ready => ∃ b, Spec.Begun s b e u.index 1 ∧
          exec (.popq u f) s = .next (Spec.inFlight (b.updCtx e.k fun c => { c with dlq := rest }) e u.index
            (Spec.memoryLands u f e 1 d.value))
      | .waiting => exec (.popq u f) s = .next (s.blockCtx e.k e.t (.dlqHead d.id))
      | .poisoned => exec (.popq u f) s = .next (s.takeTrap e.k e.t e.pc e.next
          { cause := .poison, slot := u.index, tval := d.value, decoded := true })
      | .lost => exec (.popq u f) s = .next (s.takeTrap e.k e.t e.pc e.next
          { cause := .poolRegionLost, slot := u.index, tval := d.value, decoded := true }))

/-- qpush and qpop (R325, R326): a qpush appends one entry, uses one of its producer's allowances and wakes the consumers blocked on
the empty queue; a qpop takes the oldest entry, returns the allowance, wakes its producer where it is blocked on the full queue, takes
its value at t + 4 and t + 5, and sets the producer's flag as an event at t + 4; a full queue or an empty one blocks, and a number the
group did not declare traps. -/
def Obligations.NamedQueueOperations : Prop :=
  ∀ (u : SlotM) (f : FieldM) (s : State) (e : Env) (g : Group), Ready s e u.index f.pf f.pn → (s.ctx e.k).overrun = none →
    s.groupOf e.k = some g →
    let n := (scalarOperand s e u.index 0 f.opa).toNat % 16
    let pos := (s.ctx e.k).pos
    let q := s.namedQueue e.k n
    (g.decl.queues ≤ n →
      exec (.qpush u f) s = .next (s.takeTrap e.k e.t e.pc e.next
        { cause := .accessFault, slot := u.index, tval := BitVec.ofNat 64 (n + 7 * 32 + 256), decoded := true }) ∧
      exec (.qpop u f) s = .next (s.takeTrap e.k e.t e.pc e.next
        { cause := .accessFault, slot := u.index, tval := BitVec.ofNat 64 (n + 7 * 32 + 256), decoded := true })) ∧
    (n < g.decl.queues → s.fifoBank e.k g.decl.b = true →
      (q.allowance.getD pos 0 = 0 → exec (.qpush u f) s = .next (s.blockCtx e.k e.t (.queueFull n))) ∧
      (q.entries = [] → exec (.qpop u f) s = .next (s.blockCtx e.k e.t (.queueEmpty n))) ∧
      (s.heldBefore e.k e.t = false → q.allowance.getD pos 0 ≠ 0 → s.replayHolds e.k 2 n 0 0 = false →
        ∃ b, Spec.Begun s b e u.index 1 ∧
          let value := s.readS e.k e.t (u.index * 4 + 2) f.dst.toNat
          let p := (b.updCtx e.k Ctx.expose).flush e.k
          let me := (p.ctx e.k).pos
          let pushed := p.updQueue e.k n fun q => { q with
            entries := q.entries ++ [{ value := value, producer := me, notify := f.aux.toNat % 16, lts := (p.ctx e.k).lts }]
            allowance := setPlace q.allowance me (q.allowance.getD me 0 - 1) }
          let noted := pushed.noteLocal e.k (((pushed.groupOf e.k).map fun g => g.decl.b).getD 0) (toBytes 8 value.toNat)
          exec (.qpush u f) s = .next (((noted.wakeBlocked e.k (.queueEmpty n)).updCtx e.k fun c =>
              { c with lts := laterOf c.lts ((p.namedQueue e.k n).returned.getD me 0) }).logEvent e.k 2 n 0 0)) ∧
      (∀ x rest, s.heldBefore e.k e.t = false → q.entries = x :: rest → s.replayHolds e.k 3 n 0 0 = false →
        ∃ b, Spec.Begun s b e u.index 1 ∧
          let p := (b.updCtx e.k Ctx.expose).flush e.k
          let lts := laterOf (p.ctx e.k).lts x.lts
          let taken := (p.updCtx e.k fun c => { c with lts := lts }).updQueue e.k n fun q =>
            { entries := q.entries.tail
              allowance := setPlace q.allowance x.producer (q.allowance.getD x.producer 0 + 1)
              returned := setPlace q.returned x.producer lts }
          let told := match (taken.groupOf e.k).bind fun g => g.keys[x.producer]? with
            | none => taken
            | some j =>
              let woken := if (taken.ctx j).block = some (.queueFull n) ∧ (taken.ctx j).drain = .none then taken.makeReady j
                else taken
              if x.notify = 0 then woken
              else woken.addPending e.k { due := e.t + 4, issued := e.t, slot := 15, contested := 0, what := .notify j x.notify }
          exec (.qpop u f) s =
            .next ((Spec.inFlight told e u.index (Spec.memoryLands u f e 4 x.value)).logEvent e.k 3 n 0 0)))

/-- cspush and cspop (R327 to R329): a cspush appends one record for each active lane, in lane order, and a mark where a[4] is set,
and wakes who is blocked on the short stream; it blocks where its records find no room; a cspop takes up to 64 records in order, or
those before a mark with it, lays record i in lane i, sets the mask of the lanes filled, and wakes who is blocked on the full stream
where it takes a record; it blocks where neither stands in the stream. -/
def Obligations.StreamOperations : Prop :=
  ∀ (u : SlotM) (f : FieldM) (s : State) (e : Env) (g : Group), Ready s e u.index f.pf f.pn → (s.ctx e.k).overrun = none →
    s.groupOf e.k = some g →
    let a := scalarOperand s e u.index 0 f.opa
    let n := a.toNat % 16
    let rb := f.aux.toNat / 16
    let rn := f.aux.toNat % 16
    let q := s.stream e.k n
    let lanes := (List.range 64).filter fun l => (laneMask s e u.index f.ks).getLsbD l
    n < g.decl.q → s.fifoBank e.k (g.decl.b + n) = true → (∀ l, q.length = some l → l = rn + 1) →
    (lanes ≠ [] ∨ a.getLsbD 4 = true → lanes.length ≤ s.streamRoom e.k n rn → s.heldBefore e.k e.t = false →
      s.replayHolds e.k 4 n 0 0 = false →
      ∃ b, Spec.Begun s b e u.index (rn + 1) ∧
        let words (l : Nat) : List W32 := (List.range (rn + 1)).map fun k =>
          laneOf (s.readVrow e.k e.t (u.index * 4 + 2) (f.dst.toNat % 16) (rb + k)) l
        let p := (b.updCtx e.k Ctx.expose).flush e.k
        let pushed := p.updStream e.k n fun q =>
          { items := q.items ++ (lanes.map fun l => StreamItem.record (words l) (p.ctx e.k).lts)
              ++ (if a.getLsbD 4 then [StreamItem.mark] else [])
            length := if lanes = [] then q.length else some (rn + 1) }
        exec (.cspush u f) s = .next
          (((pushed.noteLocal e.k (((pushed.groupOf e.k).map fun g => g.decl.b).getD 0 + n)
              (lanes.map fun l => ((words l).map fun w => toBytes 4 w.toNat).flatten).flatten).wakeBlocked e.k
                (.streamShort n)).logEvent e.k 4 n 0 0)) ∧
    (lanes = [] → a.getLsbD 4 = false → s.heldBefore e.k e.t = false →
      ∃ b, Spec.Begun s b e u.index (rn + 1) ∧ exec (.cspush u f) s = .next b) ∧
    (lanes ≠ [] → s.streamRoom e.k n rn < lanes.length →
      exec (.cspush u f) s = .next (s.blockCtx e.k e.t (.streamFull n))) ∧
    (streamBatch q = none → exec (.cspop u f) s = .next (s.blockCtx e.k e.t (.streamShort n))) ∧
    (∀ batch mark rest, streamBatch q = some (batch, mark, rest) → s.heldBefore e.k e.t = false →
      s.replayHolds e.k 5 n 0 0 = false →
      ∃ b, Spec.Begun s b e u.index (rn + 1) ∧
        let taken := (((b.updCtx e.k Ctx.expose).flush e.k).updCtx e.k fun c =>
          { c with lts := batch.foldl (fun t x => laterOf t x.2) c.lts }).updStream e.k n fun q =>
            let left : Stream := { q with items := rest }
            if mark && left.count = 0 then { left with length := none } else left
        let woken := if batch = [] then taken else taken.wakeBlocked e.k (.streamFull n)
        let row (k : Nat) : Row := Vector.ofFn fun c => ((batch[c.val]?).map fun x => x.1.getD k 0).getD 0
        exec (.cspop u f) s = .next (((Spec.inFlight woken e u.index
          ((List.range (rn + 1)).flatMap fun k =>
            (e.t + 8 + k, .latchV (vectorLatch u.index) (rb + k) (row k)) ::
              if f.ws then [] else [(e.t + 9 + k, .vrow (f.dst.toNat % 16) (rb + k) (BitVec.allOnes 64) (row k))])).logEvent
                e.k 5 n 0 0).addPending e.k (resultOf e u.index
          (e.t + 9 + rn, .kmask f.ks.toNat (BitVec.allOnes 64) (BitVec.ofNat 64 (2 ^ batch.length - 1))))))


/-- br, jr, call and ret, and brf and brnf (R60, R236): a taken branch issues its target three cycles later; brf is taken where its
flag is set and brnf where it is clear, and CLR clears the flag at t + 2, for bundles of t + 3 on, where the branch is taken; call leaves the address of
the next sequential bundle in s31 at t + 3. Nothing else changes. -/
def Obligations.BranchesTransferControl : Prop :=
  ∀ (f : FieldC) (s : State) (e : Env), Ready s e 8 f.pf f.pn →
    let a := scalarOperand s e 8 0 f.opa
    let near : BitVec 57 := e.pc + a.truncate 57
    let flag := f.aux.toNat % 16
    let set := (s.readFlags e.k e.t 33).getLsbD flag
    let cleared : List (Nat × Landing) :=
      if f.aux.getLsbD 4 && decide (flag ≠ 0) then [(e.t + 3, .flags (flagMask flag) 0)] else []
    (∃ t, exec (.br f) s = .next t ∧ Spec.Transfers s t e near 3 8 [] id) ∧
    (∃ t, exec (.jr f) s = .next t ∧ Spec.Transfers s t e (a.truncate 57) 3 8 [] id) ∧
    (∃ t, exec (.ret f) s = .next t ∧ Spec.Transfers s t e (a.truncate 57) 3 8 [] id) ∧
    (∃ t, exec (.call f) s = .next t ∧ Spec.Transfers s t e near 3 8 [(e.t + 3, .scalar 31 (e.next.zeroExtend 64))] id) ∧
    (∃ t, exec (.brf f) s = .next t ∧
      (if set then Spec.Transfers s t e near 3 8 cleared id else Spec.Transfers s t e e.next 1 8 [] id)) ∧
    (∃ t, exec (.brnf f) s = .next t ∧
      (if set then Spec.Transfers s t e e.next 1 8 [] id else Spec.Transfers s t e near 3 8 cleared id))

/-- loop and lexit (R60, R61, R234, R237): loop counts down, writes the counter for t + 3, and branches back unless it reached 0:
at once inside a captured body, else three cycles later, capturing a body that fits unless the buffer is locked; lexit writes 0
and leaves the loop. The counter of a loop whose last write is in flight is that write. -/
def Obligations.LoopsCountDown : Prop :=
  ∀ (f : FieldC) (s : State) (e : Env), Ready s e 8 f.pf f.pn →
    let near : BitVec 57 := e.pc + (scalarOperand s e 8 0 f.opa).truncate 57
    let c := loopCounter f e s - 1
    let buffer := (s.ctx e.k).loopBuf
    let body := (near, e.pc, e.next)
    ((∀ p ∈ (s.ctx e.k).pending, p.slot ≠ 14) → loopCounter f e s = s.readS e.k e.t 33 f.dst.toNat) ∧
    (∃ t, exec (.loop f) s = .next t ∧
      if c = 0 then Spec.Transfers s t e e.next 1 14 [(e.t + 3, .scalar f.dst.toNat 0)] id
      else if buffer = some body then Spec.Transfers s t e near 1 14 [(e.t + 3, .scalar f.dst.toNat c)] id
      else Spec.Transfers s t e near 3 14 [(e.t + 3, .scalar f.dst.toNat c)] fun x =>
        if bodyFits e s near && !(x.loopLock && buffer.isSome) then { x with loopBuf := some body } else x) ∧
    (∃ t, exec (.lexit f) s = .next t ∧ Spec.Transfers s t e near 3 8 [(e.t + 3, .scalar f.dst.toNat 0)] id)

/-- ipf, pin and unpin (R232, R238): ipf fetches the lines of its range, pin pins them within the limits and answers at t + 3 how
many it pins, and AUX[5] locks or unlocks the loop buffer; unpin releases them, or all of them with AUX[6]. -/
def Obligations.FetchControl : Prop :=
  ∀ (f : FieldC) (s : State) (e : Env), Ready s e 8 f.pf f.pn →
    let range := Spec.linesFrom f e (scalarOperand s e 8 0 f.opa)
    (∃ b, Spec.Begun s b e 8 1 ∧ exec (.ipf f) s = .next (range.foldl (fun b line => (b.fetchLine e.k line).2) b)) ∧
    (∃ b, Spec.Begun s b e 8 1 ∧
      let p := range.foldl (fun b line => b.pinLine e.k line) b
      let n := (range.filter (p.pins e.k)).length
      exec (.pin f) s = .next (Spec.inFlight
        (if f.aux.getLsbD 5 then p.updCtx e.k fun c => { c with loopLock := true } else p) e 8
        (if f.ws then [] else [(e.t + 3, .scalar f.dst.toNat (BitVec.ofNat 64 n))]))) ∧
    (∃ b, Spec.Begun s b e 8 1 ∧
      let asid := s.asidOf (s.regionOf e.k)
      let p := b.unpinLines e.k fun l => f.aux.getLsbD 6 || (range.contains l.line && decide (l.asid = asid))
      exec (.unpin f) s = .next (if f.aux.getLsbD 5 then p.updCtx e.k fun c => { c with loopLock := false } else p))

/-- wait and yield (R26, R28, R239, R240): a wait whose condition holds goes on, and with CLR clears the flags it names at t + 2, for
bundles of t + 3 on; one whose condition fails blocks its bundle with nothing done; yield gives up the core and stands READY from t on. -/
def Obligations.WaitsAndYields : Prop :=
  ∀ (f : FieldC) (s : State) (e : Env), Ready s e 8 f.pf f.pn → coreOf e.k = e.core →
    let m : BitVec 16 := (scalarOperand s e 8 0 f.opa).truncate 16
    let fl := s.readFlags e.k e.t 33
    let all := f.aux.getLsbD 0
    let holds := if all then fl &&& m = m else m = 0 ∨ fl &&& m ≠ 0
    (holds →
      ∃ t, exec (.wait f) s = .next t ∧
        Spec.Transfers s t e e.next 1 8
          (if f.aux.getLsbD 1 && decide (m &&& 0xFFFE ≠ 0) then [(e.t + 3, .flags (m &&& 0xFFFE) 0)] else []) id) ∧
    (¬ holds → (s.ctx e.k).overrun = none → exec (.wait f) s = .next (s.blockCtx e.k e.t (.wait m all))) ∧
    (∃ t, exec (.yield f) s = .next t ∧ OnlyAt s t e.k e.core ∧
      (t.ctx e.k).phase = .ready ∧ (t.ctx e.k).readySince = e.t ∧ (t.ctx e.k).pc = e.next ∧
      (t.ctx e.k).s = (s.ctx e.k).s ∧ (t.ctx e.k).fl = (s.ctx e.k).fl ∧ (t.ctx e.k).v = (s.ctx e.k).v ∧
      (t.core e.core).running = none ∧ (t.core e.core).lat = Latches.zero ∧ (t.core e.core).nextIssue = e.t + 2)

/-- trap, svc and chkt (R241, R242): trap raises SOFTWARE with its operand, svc raises SVC with its number, and chkt raises
CHECK_MISMATCH where its sources differ, naming the first differing element, and otherwise does nothing. -/
def Obligations.TrapInstructionsTrap : Prop :=
  ∀ (f : FieldC) (s : State) (e : Env), Ready s e 8 f.pf f.pn → (s.ctx e.k).overrun = none →
    let a := scalarOperand s e 8 0 f.opa
    let second : BitVec 6 := f.aux.truncate 6
    let row (place : Nat) (sel : BitVec 6) (r : Nat) : Row :=
      sourceRow s e.k e.t (32 + place) (vectorOperand s e 8 place 0 sel) r
    let differs (i : Nat) : Bool := (s.readLmask e.k e.t 34).getLsbD (i % 64) &&
      laneOf (row 0 f.opa (i / 64)) (i % 64) != laneOf (row 1 second (i / 64)) (i % 64)
    let first := f.aux.toNat / 128 % 16
    let n := f.aux.toNat / 2048 + 1
    exec (.trap f) s = .next (s.takeTrap e.k e.t e.pc e.next (Spec.trapCT .software a)) ∧
    exec (.svc f) s = .next (s.takeTrap e.k e.t e.pc e.next (Spec.trapCT .svc (f.aux.zeroExtend 64))) ∧
    (f.aux.getLsbD 6 = false →
      if a = scalarOperand s e 8 1 second then ∃ t, exec (.chkt f) s = .next t ∧ Spec.Transfers s t e e.next 1 8 [] id
      else exec (.chkt f) s = .next (s.takeTrap e.k e.t e.pc e.next (Spec.trapCT .checkMismatch 0))) ∧
    (f.aux.getLsbD 6 = true →
      match ((List.range (64 * n)).map (64 * first + ·)).find? differs with
      | none => ∃ t, exec (.chkt f) s = .next t ∧ Spec.Transfers s t e e.next 1 8 [] id
      | some i => exec (.chkt f) s =
          .next (s.takeTrap e.k e.t e.pc e.next (Spec.trapCT .checkMismatch (BitVec.ofNat 64 (i + 2 ^ 10)))))

/-- eret (R64, R243): in supervisor state the PC takes TEPC, or TNPC with NEXT, U takes PU, ND falls by one, the slot latches take
their shadow, and the next bundle issues three cycles later, decoded through the same binding; no register, flag or memory byte
changes. In user state it raises PRIVILEGE. -/
def Obligations.EretReturns : Prop :=
  ∀ (f : FieldC) (s : State) (e : Env), Ready s e 8 f.pf f.pn → coreOf e.k = e.core →
    let c := s.ctx e.k
    (s.supervisor e.k = true →
      ∃ t, exec (.eret f) s = .next t ∧ OnlyAt s t e.k e.core ∧
        (t.ctx e.k).pc = (if f.aux.getLsbD 0 then c.tnpc else c.tepc) ∧ (t.ctx e.k).user = c.prevUser ∧
        (t.ctx e.k).nesting = (if c.nesting = 0 then 0 else c.nesting - 1) ∧ (t.core e.core).lat = c.shadow ∧
        (t.core e.core).nextIssue = e.t + 3 ∧ (t.ctx e.k).s = c.s ∧ (t.ctx e.k).fl = c.fl ∧ (t.ctx e.k).v = c.v ∧
        (t.ctx e.k).k = c.k ∧ (t.ctx e.k).tepc = c.tepc ∧ (t.ctx e.k).tnpc = c.tnpc ∧ (t.ctx e.k).tval = c.tval ∧
        (t.ctx e.k).tcause = c.tcause ∧ (t.ctx e.k).prevUser = c.prevUser ∧ (t.ctx e.k).dictHandle = c.dictHandle) ∧
    (s.supervisor e.k = false → c.overrun = none →
      exec (.eret f) s = .next (s.takeTrap e.k e.t e.pc e.next (Spec.trapCT .privilege (BitVec.ofNat 64 (8 + 0x17 * 256)))))

/-- exit, cont and halt (R244, R245, R257): exit commits the open phase, releases pins and the loop-buffer lock and drains; cont
reserves an entry of the continuation queue, or blocks, and records its request; a halt in supervisor state issues and drains. -/
def Obligations.ExitContAndHalt : Prop :=
  ∀ (f : FieldC) (s : State) (e : Env), Ready s e 8 f.pf f.pn → (s.ctx e.k).overrun = none →
    let entry : BitVec 57 := e.pc + (scalarOperand s e 8 0 f.opa).truncate 57
    let arg := s.readS e.k e.t 33 f.dst.toNat
    let region := s.regionOf e.k
    let die := dieOf (clusterOf e.k)
    let reserved := ((s.groupOf e.k).map Group.contReserved).getD true
    let asked (b : State) : State := b.updCtx e.k fun c => { c with contReq := some (entry, arg) }
    (∃ b, Spec.Begun s b e 8 1 ∧
      let committed := ((b.commitPhase e.k).unpinLines e.k fun _ => true).updCtx e.k fun c => { c with loopLock := false }
      exec (.exit f) s = .next ((committed.switchOut e.core e.t).updCtx e.k fun c => { c with drain := .exit })) ∧
    (reserved = true → ∃ b, Spec.Begun s b e 8 1 ∧ exec (.cont f) s = .next (asked b)) ∧
    (reserved = false → (s.die die).contFree region = true → ∃ b, Spec.Begun s b e 8 1 ∧
      exec (.cont f) s = .next (asked ((b.reserveCont die region).updGroup (((s.ctx e.k).group).getD 0) fun g =>
        { g with contReserved := true }))) ∧
    (reserved = false → (s.die die).contFree region = false →
      exec (.cont f) s = .next (s.blockCtx e.k e.t .continuationFull)) ∧
    (s.supervisor e.k = true →
      ∃ t, exec (.halt f) s = .next t ∧ Spec.Transfers s t e e.next 1 8 [] fun c => { c with drain := .halt 0 })

/-- bar (R18, R311, R313, R314): an arrival that is not the last blocks with its wait record, or with OVR and a free checkpoint bank
begins overrun and issues; the last arrival completes the barrier; a bundle whose barrier has completed passes; a number that the
group did not declare, and a bad count, trap. -/
def Obligations.BarrierArrivals : Prop :=
  ∀ (f : FieldC) (s : State) (e : Env) (g : Group), Ready s e 8 f.pf f.pn → (s.ctx e.k).overrun = none →
    s.groupOf e.k = some g →
    let b := f.aux.toNat % 8
    let n := (scalarOperand s e 8 0 f.opa).toNat
    let bar := s.barrier e.k b
    (g.decl.barriers ≤ b →
      exec (.bar f) s = .next (s.takeTrap e.k e.t e.pc e.next (Spec.trapCT .accessFault (BitVec.ofNat 64 (b + 7 * 32))))) ∧
    (b < g.decl.barriers → s.barState e.k b = .fresh → (n = 0 ∨ g.decl.n < n ∨ (bar.arrived ≠ 0 ∧ bar.count ≠ n)) →
      exec (.bar f) s = .next (s.takeTrap e.k e.t e.pc e.next
        (Spec.trapCT .queueProtocol (BitVec.ofNat 64 (8 + 2 ^ 10 + n % 32 * 2 ^ 16))))) ∧
    (b < g.decl.barriers → s.barState e.k b = .passes →
      ∃ t, exec (.bar f) s = .next t ∧ Spec.Transfers s t e e.next 1 8 [] fun c => { c with barrierWait := none }) ∧
    (b < g.decl.barriers → s.barState e.k b = .fresh → 1 ≤ n → n ≤ g.decl.n → (bar.arrived ≠ 0 → bar.count = n) →
      s.replayHolds e.k 1 b 0 0 = false → rowsPending e s = false →
      (popCount 16 bar.arrived.toNat + 1 = n → ∃ x, Spec.Begun s x e 8 1 ∧
        exec (.bar f) s = .next (((x.arrive e.k b n).logEvent e.k 1 b 0 0).completeBarrier e.k b)) ∧
      (popCount 16 bar.arrived.toNat + 1 ≠ n → (f.aux.getLsbD 3 = false ∨ s.barBank e.core = none) →
        exec (.bar f) s = .next ((s.arriveWaiting e.k b n).blockCtx e.k e.t (.barrier b bar.generation.toNat))) ∧
      (∀ bank, popCount 16 bar.arrived.toNat + 1 ≠ n → f.aux.getLsbD 3 = true → s.barBank e.core = some bank →
        ∃ x, Spec.Begun s x e 8 1 ∧
        let y := (x.arriveWaiting e.k b n).updCtx e.k Ctx.ownBefore
        exec (.bar f) s = .next (((y.takeBank e.k bank (y.snapshot e)).updCtx e.k fun c =>
          { c with overrun := some bank }).event e.k 0x14 1))) ∧
    (∀ (x : State) (k : Nat), x.groupOf k = some g → b < g.barriers.length →
      let last := x.barrier k b
      let t := x.completeBarrier k b
      t.barrier k b = { count := 0, arrived := 0, generation := last.generation + 1, lts := 0 } ∧
      t.mem = x.mem ∧ (t.ctx k).lts.toNat = max (x.ctx k).lts.toNat (last.lts + 1).toNat ∧
      (∀ j ∈ g.keys, j ≠ k → (x.ctx j).waitsAt b last.generation = true →
        ((x.overrunBank j).isNone = true ∨ (x.ctx j).drain = .rollback →
          (t.ctx j).lts = laterOf (x.ctx j).lts (last.lts + 1) ∧
          (∀ gen, (x.ctx j).block = some (.barrier b gen) → (x.ctx j).phase = .blocked → (x.ctx j).drain = .none →
            (t.ctx j).phase = .ready)) ∧
        ((x.overrunBank j).isSome = true → (x.ctx j).drain ≠ .rollback → t.ctx j = { x.ctx j with committing := some (last.lts + 1) })) ∧
      ∀ j, j ≠ k → j ∉ g.keys ∨ (x.ctx j).waitsAt b last.generation = false → t.ctx j = x.ctx j) ∧
    (∀ (x : State) (j bank : Nat) (tc : W64) (held : CheckpointBank) (w : BarrierWait), x.committers = [(j, tc)] →
      (x.ctx j).overrun = some bank → x.overrunBank j = some held → held.failures = [] → (x.ctx j).barrierWait = some w →
      x.partials = [] → x.poisoned = [] →
      (∀ y ∈ held.stores, y.spad = true ∧ planeOf y.key = 40 ∧ j ∉ (x.clearReadSet j).conflicts (lineOf y.key)) →
      Spec.OverrunCommitted x (overrunCommits x) j bank w.barrier tc ∧
      ∀ y ∈ held.stores,
        (∀ z ∈ held.stores, z ≠ y → z.order < y.order ∨ z.key + z.size ≤ y.key ∨ y.key + y.size ≤ z.key) →
        (overrunCommits x).bytesAt y.key y.size = toBytes y.size y.data.toNat)

/-- phbeg and phsw (R246, R248): with earlier work drained, a phase opens: its record takes the descriptor and the output range, and the
lowest-numbered free checkpoint bank takes the context's state with the bundle's address, or the phase is exposed where no bank is
free; an open one commits first, which releases its held reductions in program order and frees its bank, and the new one takes that
bank; either with a = 0 only commits an open one; work not drained is waited for. -/
def Obligations.PhasesOpenAndCommit : Prop :=
  ∀ (f : FieldC) (s : State) (e : Env), Ready s e 8 f.pf f.pn → (s.ctx e.k).overrun = none → (s.ctx e.k).drain = .none →
    coreOf e.k = e.core →
    let a := scalarOperand s e 8 0 f.opa
    let base := s.readS e.k e.t 33 f.dst.toNat
    let length := s.readS e.k e.t 34 (f.dst.toNat + 1)
    (e.busy = true → exec (.phbeg f) s = .next (s.holdBundle e .gap) ∧ exec (.phsw f) s = .next (s.holdBundle e .gap)) ∧
    (e.busy = false → (s.ctx e.k).phaseRec = none → ∃ b t bank, Spec.Begun s b e 8 1 ∧ exec (.phbeg f) s = .next t ∧
      Spec.LowestFree (s.core e.core).banks bank ∧ Spec.PhaseOpened (b.flush e.k) t e bank a base length) ∧
    (e.busy = false → (s.ctx e.k).phaseRec = none →
      (a = 0 → ∃ b, Spec.Begun s b e 8 1 ∧ exec (.phsw f) s = .next b) ∧
      (a ≠ 0 → exec (.phsw f) s = exec (.phbeg f) s)) ∧
    (∀ p, e.busy = false → (s.ctx e.k).phaseRec = some p →
      exec (.phsw f) s = exec (.phbeg f) s ∧
      ∃ b c, Spec.Begun s b e 8 1 ∧ Spec.PhaseCommitted b c e.k p ∧
        (a = 0 → exec (.phbeg f) s = .next c) ∧
        (a ≠ 0 → ∃ t, exec (.phbeg f) s = .next t ∧ Spec.PhaseOpened (c.flush e.k) t e p.bank a base length)) ∧
    (e.busy = false → ∃ t u, exec (.phbeg f) s = .next t ∧ exec (.phsw f) s = .next u)

/-- csrr, csrw, csrs and csrc (R87, R250, R263): the old value goes to DST at t + 3 unless WS = 1, and the new value takes effect
at t + 3; a CSR from 0x100 on asks for supervisor state. The CSRs whose access is a deed of its own are apart. -/
def Obligations.CsrAccesses : Prop :=
  ∀ (i : Instr) (f : FieldC) (new : Option (W64 → W64 → W64)), Spec.csrAccess i = some (f, new) →
  ∀ (s : State) (e : Env), Ready s e 8 f.pf f.pn →
    let a := scalarOperand s e 8 0 f.opa
    let n := f.aux.toNat % 4096
    n ≠ 0x201 → n ≠ 0x202 → n ≠ 0x203 → n ≠ 0x208 → (n < 0x100 ∨ s.supervisor e.k = true) →
    ∃ b, Spec.Begun s b e 8 1 ∧
      let old := csrValue n e b
      old = csrValue n e s ∧
      exec i s = .next (Spec.inFlight b e 8 ((if f.ws then [] else [(e.t + 3, .scalar f.dst.toNat old)])
        ++ match new with | some g => [(e.t + 3, .csr n (g old a))] | none => []))

/-- Understory accesses (R22, R356, R357, R452, R453): a csrr of UCLAIM claims the next PENDING queue of the core's share after the last
one claimed, for the lowest free lane, and answers its number, or all ones where there is none; a csrw of URET releases a queue that
the context owns, to PENDING or IDLE; a csrw of ULAUNCH launches the block it names, whose groups the ready dies share, or traps
where the block cannot be read; and a csrw of USERVE serves the selected queue, once, and reads back its outcome at t + 3. -/
def Obligations.UnderstoryAccesses : Prop :=
  ∀ (f : FieldC) (s : State) (e : Env), Ready s e 8 f.pf f.pn → s.supervisor e.k = true → (s.ctx e.k).accesses = [] →
    1024 ≤ coreOf e.k → coreOf e.k = e.core →
    let a := scalarOperand s e 8 0 f.opa
    let n := f.aux.toNat % 4096
    let answered (b : State) (x : W64) : State :=
      Spec.inFlight b e 8 (if f.ws then [] else [(e.t + 3, .scalar f.dst.toNat x)])
    (n = 0x201 →
      let last := (s.core e.core).claimed
      let pending := s.pendingQueues (e.core - 1024)
      let order := pending.filter (fun q => decide (last ≤ q)) ++ pending.filter (fun q => decide (q < last))
      (∀ q l, order.head? = some q → s.freeLane e.k = some l → Spec.Plain s (tierKey 0 (s.qcbAddr q)) 64 →
        ∃ c, exec (.uclaim f) s = .next (answered c (BitVec.ofNat 64 q)) ∧ (c.hold q).owner = some e.k ∧
          (c.hold q).server = some e.k ∧ (c.hold q).lane = l ∧ (c.hold q).served = 0 ∧ (c.hold q).held = (s.hold q).held ∧
          c.queueState q = 3 ∧ (c.core e.core).claimed = q + 1 ∧ (c.ctx e.k).pc = e.next) ∧
      (∀ l, s.freeLane e.k = some l → l < 64 ∧ ∀ q h, mapGet? s.queues q = some h → h.owner = some e.k → h.lane ≠ l) ∧
      (pending = [] ∨ s.freeLane e.k = none →
        ∃ b, Spec.Begun s b e 8 1 ∧ exec (.uclaim f) s = .next (answered b (BitVec.allOnes 64)))) ∧
    (n = 0x202 → ∃ b t, Spec.Begun s b e 8 1 ∧ exec (.uret f) s = .next t ∧
      ((s.hold a.toNat).owner ≠ some e.k → t = answered b (csrValue n e b)) ∧
      ((s.hold a.toNat).owner = some e.k → Spec.Controlled s a.toNat →
        (t.hold a.toNat).owner = none ∧ (t.hold a.toNat).held = (s.hold a.toNat).held ∧
        t.queueState a.toNat = if (s.hold a.toNat).held < s.writeIndex a.toNat then 2 else 1)) ∧
    (∀ bs, n = 0x203 → (s.ctx e.k).overrun = none → (s.launchBlock e.k 5 a 256).1 = .ok bs →
      ∃ b t, Spec.Begun s b e 8 1 ∧ exec (.ulaunch f) s = .next t ∧
        let read := ((answered b (csrValue n e b)).launchBlock e.k 5 a 256).2
        let lts := read.acquireStamp (headerAcq (fieldAt bs 0 8)) (read.ctx e.k).lts
        (headerType (fieldAt bs 0 8) = 7 → t = read.launchCont bs lts) ∧
        (headerType (fieldAt bs 0 8) ≠ 7 → s.readyDies ≠ [] → Spec.Submitted read t
          { queue := fieldAt bs 192 4, seq := fieldAt bs 200 8, server := some e.k, type := headerType (fieldAt bs 0 8)
            region := read.queueRegion (fieldAt bs 192 4), header := fieldAt bs 0 8, entry := BitVec.ofNat 64 (fieldAt bs 8 8)
            dictObj := BitVec.ofNat 64 (fieldAt bs 0x10 8), args := BitVec.ofNat 64 (fieldAt bs 0x18 8)
            gcount := fieldAt bs 0x20 4, decl := declOf (fieldAt bs 0x24 4)
            bas := Vector.ofFn fun i => BitVec.ofNat 64 (fieldAt bs (64 + 8 * i.val) 8), lts := lts })) ∧
    (∀ c va, n = 0x203 → (s.ctx e.k).overrun = none → (s.launchBlock e.k 5 a 256).1 = .error (c, va) →
      exec (.ulaunch f) s = .next (s.takeTrap e.k e.t e.pc e.next (Spec.trapCT c va))) ∧
    (n = 0x208 →
      let q := (s.ctx e.k).uqsel.toNat
      let outcome (u : State) (code : Nat) : State := Spec.inFlight u e 8 [(e.t + 3, .csr 0x208 ((BitVec.ofNat 8 code).zeroExtend 64))]
      let served (r : Served) (u : State) : State := u.updCtx e.k fun c => { c with lts := laterOf c.lts r.lts }
      ∃ b t, Spec.Begun s b e 8 1 ∧ exec (.userve f) s = .next t ∧
        let x := answered b (csrValue n e b)
        ((s.hold q).owner ≠ some e.k → t = outcome x 2) ∧
        ((s.hold q).owner = some e.k →
          let r := x.serveHead q 0 (some e.k)
          (r.consumed = true ∧ r.kind = 0 ∧ r.sub = 0 ∨ r.consumed = false ∧ 1 ≤ r.kind ∧ r.kind ≤ 3) ∧
          let u := if r.consumed then r.state.settleServed q else r.state.settleQueue q
          t = outcome (served r u) ((if r.consumed then 1 else 0) + (if (u.hold q).owner = some e.k then 0 else 2) + 4 * r.kind
            + 16 * r.sub)) ∧
        (∀ h lts v, (s.hold q).owner = some e.k → s.heldByDebugger q = false →
          x.headerAt q (x.ctx e.k).lts (s.hold q).held = (.ok (h, lts), v) → headerType h = 0 →
          (x.serveHead q 0 (some e.k)).consumed = false ∧ (x.serveHead q 0 (some e.k)).kind = 1 ∧
          (x.serveHead q 0 (some e.k)).state = v.updHold q fun h => { h with empty := h.empty + 1 }) ∧
        (∀ h lts v w lts' y, (s.hold q).owner = some e.k → s.heldByDebugger q = false →
          x.headerAt q (x.ctx e.k).lts (s.hold q).held = (.ok (h, lts), v) → headerType h = 2 → headerError (isCont q) h = none →
          v.barHeld q h = false → v.ringRead (v.queueRegion q) lts (v.slotAddr q (s.hold q).held) 64 = (.ok (w, lts'), y) →
          bodyValid 2 (toBytes 64 w) = true → y.readyDies ≠ [] →
          ∃ z, Spec.Submitted y z (dispatchSpec q (s.hold q).held (y.queueRegion q) (toBytes 64 w) []
              (y.acquireStamp (headerAcq h) lts') (some e.k)) ∧
            (x.serveHead q 0 (some e.k)).consumed = true ∧ (x.serveHead q 0 (some e.k)).state = z.consume q ∧
            ((z.consume q).hold q).held = (z.hold q).held + 1))

/-- dload, ddrop, tlbinv and bankmode (R251 to R253): dload queues pages of a class for the refill engine, ddrop marks pages that
may go, tlbinv joins the maintenance of its context, and bankmode starts the switch of the banks it names; a bankmode that names
a bank outside the group's allocation traps. -/
def Obligations.ResidencyAndBanks : Prop :=
  ∀ (f : FieldC) (s : State) (e : Env), Ready s e 8 f.pf f.pn → (s.ctx e.k).overrun = none →
    let a := scalarOperand s e 8 0 f.opa
    let cls := f.aux.toNat % 8
    let n := f.aux.toNat / 8 % 32 + 1
    let h := (s.ctx e.k).dictHandle
    let mask := a.toNat % 2 ^ 16
    (f.aux.getLsbD 8 = false → ∃ b, Spec.Begun s b e 8 1 ∧
      exec (.dload f) s = .next (b.queuePages e.core (s.regionOf e.k) h cls a.toNat n)) ∧
    (∀ j d, f.aux.getLsbD 8 = true → s.dloadHandle e.k (objectOf a) = some j →
      (s.core e.core).handles[j]? = some (some d) → d.priv = false → (s.core e.core).refillFault = none →
      ∃ b, Spec.Begun s b e 8 1 ∧ exec (.dload f) s = .next (b.queuePages e.core (s.regionOf e.k) j cls 0 n)) ∧
    (∃ b, Spec.Begun s b e 8 1 ∧
      exec (.ddrop f) s = .next (b.updCore e.core fun c => { c with pages := c.pages.map fun p =>
        if p.cls = cls ∧ p.handle = h ∧ a.toNat ≤ p.page ∧ p.page < a.toNat + n ∧ s.pagePinned e.core p = false then
          { p with dropped := true }
        else p })) ∧
    (s.supervisor e.k = true →
      ∃ t, exec (.tlbinv f) s = .next t ∧
        Spec.Transfers s t e e.next 1 8 [] fun c => { c with
          maintenance := c.maintenance ++ [.tlbinv (f.aux.toNat % 4) (f.aux.toNat / 4 % 256) a (f.aux.toNat.testBit 10)
            (f.aux.toNat / 2048 % 16)] }) ∧
    (∀ g, s.groupOf e.k = some g → (s.ctx e.k).accesses = [] → mask < 2 ^ (g.decl.b + g.decl.q) →
      (f.aux.toNat % 4 = 2 ∨ f.aux.toNat % 4 = 3 ∨ ∀ j, j < 16 → mask.testBit j = true → s.fifoBank e.k j = true →
        g.bankBusy j = false) →
      ∃ b, Spec.Begun s b e 8 1 ∧
        exec (.bankmode f) s = .next (b.updCluster (clusterOf e.k) fun c => { c with
          nextOp := c.nextOp + 1
          switches := c.switches ++ (g.physical (BitVec.ofNat 16 mask)).map fun k =>
            { op := c.nextOp, bank := k, mode := modeOfCode (f.aux.toNat % 4) }
          bankOps := c.bankOps ++ [{ op := c.nextOp, ctx := e.k, flag := f.aux.toNat / 4 % 16 }] })) ∧
    (∀ g, s.groupOf e.k = some g → 2 ^ (g.decl.b + g.decl.q) ≤ mask →
      exec (.bankmode f) s = .next (s.takeTrap e.k e.t e.pc e.next (Spec.trapCT .accessFault
        (BitVec.ofNat 64 (mask / 2 ^ (g.decl.b + g.decl.q) * 2 ^ (g.decl.b + g.decl.q))))))

/-- ctxsave and ctxrest (R255), in supervisor state: the target must be another context of the group that is HALTED, or for a
ctxsave DONE, and the image address a multiple of 4,096; the operation then joins the maintenance of its context. Otherwise they
trap. -/
def Obligations.ContextImageOperations : Prop :=
  ∀ (f : FieldC) (s : State) (e : Env), Ready s e 8 f.pf f.pn → (s.ctx e.k).overrun = none → s.supervisor e.k = true →
    let a := scalarOperand s e 8 0 f.opa
    let p := f.aux.toNat % 16
    let flag := f.aux.toNat / 32 % 16
    let traps (i : Instr) (cause : Cause) (tval : W64) : Prop :=
      exec i s = .next (s.takeTrap e.k e.t e.pc e.next (Spec.trapCT cause tval))
    (s.mate e.k p = none → traps (.ctxsave f) .accessFault (BitVec.ofNat 64 p) ∧
      traps (.ctxrest f) .accessFault (BitVec.ofNat 64 p)) ∧
    (∀ j, s.mate e.k p = some j → j ≠ e.k → (s.ctx j).phase = .halted →
      if a.toNat % 4096 = 0 then
        (∃ t, exec (.ctxsave f) s = .next t ∧
          Spec.Transfers s t e e.next 1 8 [] fun c => { c with maintenance := c.maintenance ++ [.ctxsave j a flag] }) ∧
        (∃ t, exec (.ctxrest f) s = .next t ∧
          Spec.Transfers s t e e.next 1 8 [] fun c =>
            { c with maintenance := c.maintenance ++ [.ctxrest j a (f.aux.getLsbD 4) flag] })
      else traps (.ctxsave f) .misaligned a ∧ traps (.ctxrest f) .misaligned a) ∧
    (∀ j, s.mate e.k p = some j → j ≠ e.k → (s.ctx j).phase = .done → a.toNat % 4096 = 0 →
      ∃ t, exec (.ctxsave f) s = .next t ∧
        Spec.Transfers s t e e.next 1 8 [] fun c => { c with maintenance := c.maintenance ++ [.ctxsave j a flag] }) ∧
    (∀ j, s.mate e.k p = some j → j = e.k ∨ (s.ctx j).phase ≠ .halted → traps (.ctxrest f) .accessFault (BitVec.ofNat 64 p)) ∧
    (∀ j, s.mate e.k p = some j → j = e.k ∨ ((s.ctx j).phase ≠ .halted ∧ (s.ctx j).phase ≠ .done) →
      traps (.ctxsave f) .accessFault (BitVec.ofNat 64 p))

/-- Canopy commands (R210 to R213, R217 to R220): one that passes its checks, finds room in its core's queue, and joins no
rendezvous, enters the queue with what it captures at t; EN is occupied for BEATS cycles. A member whose rendezvous has passed
enters nothing, and its mark is spent. The first arrival at a latch that is clear waits there with its key; one whose rendezvous has
diverged or expired traps as it was told. A full queue blocks, and a failed check traps. -/
def Obligations.CanopyCommandsEnter : Prop :=
  ∀ (i : Instr) (f : FieldE) (uf : Nat), Spec.canopyCommand i = some (f, uf) →
  ∀ (s : State) (e : Env), Ready s e 9 f.pf f.pn → (s.ctx e.k).overrun = none →
    let gang := (s.readCsr e.k e.t 36 0x004).toNat
    (∀ t, canopyCheck uf f e s = some t → exec i s = .next (s.takeTrap e.k e.t e.pc e.next t)) ∧
    (canopyCheck uf f e s = none → (6 ≤ uf ∨ (gangCount gang < 2 ∧ e.passed = false ∧ e.divergence = none)) →
      ((s.core e.core).canopyQueue.length < 4 → (s.ctx e.k).accesses = [] → ∃ b, Spec.Begun s b e 9 (Spec.beatsOf f) ∧
        let cmd : EngineCmd := { b.commandOf e.k with
          uf := uf, td := if uf = 0xC then f.aux.toNat / 16 % 16 else f.td.toNat, ta := f.ta.toNat, sl := f.sl.toNat
          aux := f.aux.toNat, flag := f.aux.toNat % 16, operand := scalarOperand s e 9 0 f.ops
          members := [captureMember f e s], lts := laterOf 0 (s.ctx e.k).lts }
        (uf ≠ 0xD → exec i s = .next (b.pushEngine cmd)) ∧
        (uf = 0xD → ∃ t, exec i s = .next t ∧
          mapGet? t.engine (b.engineNumber e.core) = some { cmd with
            rows := [(b.pushEngine cmd).readVrow e.k e.t 100 (f.aux.toNat / 16 % 16) 0] } ∧
          t.mem = s.mem ∧ (t.ctx e.k).s = (s.ctx e.k).s ∧ (t.ctx e.k).v = (s.ctx e.k).v)) ∧
      ((s.core e.core).canopyQueue.length = 4 → exec i s = .next (s.blockCtx e.k e.t .canopyFull))) ∧
    (canopyCheck uf f e s = none → uf ≤ 5 → (s.ctx e.k).accesses = [] →
      (e.passed = true → ∃ b, Spec.Begun s b e 9 (Spec.beatsOf f) ∧ (b.ctx e.k).rp = false ∧ exec i s = .next b) ∧
      (∀ t, e.passed = false → e.divergence = some t → t.cause ≠ .formatDiverge →
        exec i s = .next ((s.updCtx e.k fun c => { c with rendezvousTrap := none }).takeTrap e.k e.t e.pc e.next t)) ∧
      (∀ g, e.passed = false → e.divergence = none → 2 ≤ gangCount gang → s.groupOf e.k = some g →
        g.latch (gangLatch gang) = RendezvousLatch.clear → s.replayHolds e.k 7 (gangLatch gang) 0 0 = false →
        exec i s = .next
          ((((s.updLatch (((s.ctx e.k).group).getD 0) (gangLatch gang) fun _ =>
            { key := some (voteKey uf f e s), members := [captureMember f e s], start := s.clk
              rvto := s.readCsr e.k e.t 36 0x0D0, diverged := none }).logEvent e.k 7 (gangLatch gang) 0 0)).blockCtx e.k e.t
                (.rendezvous (gangLatch gang)))))

/-- Copy commands (R270, R331, R335, R336): tcopy, tgath, tload and tstore that pass their checks enter the copy queue of their core
and reserve the banks that AUX names; a full queue blocks; a failed check traps: a LMASK that is not all ones, a tile that the
group does not hold, a bank that it does not, a descriptor address that is no multiple of 64. -/
def Obligations.CopyCommandsEnter : Prop :=
  ∀ (i : Instr) (f : FieldE) (uf flag : Nat), Spec.copyCommand i = some (f, uf, flag) →
  ∀ (s : State) (e : Env) (g : Group), Ready s e 9 f.pf f.pn → (s.ctx e.k).overrun = none → s.groupOf e.k = some g →
    let d := scalarOperand s e 9 0 f.ops
    let lmask := s.readCsr e.k e.t 36 0x001
    let tile := if uf = 0x12 then some f.td.toNat else if uf = 0x13 then some f.ta.toNat else none
    let traps (cause : Cause) (tval : W64) : Prop :=
      exec i s = .next (s.takeTrap e.k e.t e.pc e.next { cause := cause, slot := 9, tval := tval, decoded := true })
    if lmask ≠ BitVec.allOnes 64 then traps .partialMask lmask
    else
      match tile.filter fun j => decide (2 * g.decl.n ≤ j) with
      | some j => traps .accessFault (BitVec.ofNat 64 (4 * 32 + j % 32))
      | none =>
        match (List.range 16).find? fun j => decide (g.decl.b ≤ j) && f.aux.getLsbD j with
        | some j => traps .accessFault (BitVec.ofNat 64 (6 * 32 + j))
        | none =>
          if d.toNat % 64 ≠ 0 then traps .misaligned d
          else
            ((s.core e.core).copyQueue.length < 4 → (s.ctx e.k).accesses = [] → ∃ b, Spec.Begun s b e 9 (Spec.beatsOf f) ∧
              exec i s = .next (b.enterEngine { b.commandOf e.k with
                copy := true, uf := uf, td := f.td.toNat, ta := f.ta.toNat, aux := f.aux.toNat, flag := flag, operand := d })) ∧
            ((s.core e.core).copyQueue.length = 4 → exec i s = .next (s.blockCtx e.k e.t .copyFull))


/-- How every operation of a bundle ends (R31, R44, R262): for each constructor that is a slot's operation, from add to userve, a
bundle of it alone, in state and operands under which no check, block, hold, trap or rendezvous stops it, issues, has its effect and
what follows it; Passes names those conditions. One whose predicate is false is discarded: nothing changes but the issue of its
bundle. An idle bundle issues no slot, and the next bundle issues count cycles later (R60, R70). A privileged form in user state
takes PRIVILEGE with its slot and unit function in TVAL (R87). -/
def Obligations.OperationsWithoutEffect : Prop :=
  (∀ (i : Instr) (o : SlotOp), opOf i = some o → ∀ (s : State) (e : Env), Ready s e o.slot o.pf o.pn → Passes o e s →
    ∃ t, exec i s = .next t ∧ t = o.after e (o.effect e (startIssue e s [o])) ∧
      OnlyAt s (startIssue e s [o]) e.k e.core ∧ (∃ pmc, (startIssue e s [o]).ctx e.k = (s.ctx e.k).issued e pmc) ∧
      (startIssue e s [o]).core e.core = (s.core e.core).issued e o.slot o.occ 1) ∧
  (∀ (i : Instr) (o : SlotOp), opOf i = some o → ∀ (s : State) (e : Env), ReadyInactive s e o.slot o.pf o.pn →
    ∃ t, exec i s = .next t ∧ Results s t e o.slot o.occ 1 []) ∧
  (∀ (count pad : Nat) (s : State) (e : Env), issueEnv s = some e →
    ∃ t, exec (.idle count pad) s = .next t ∧ OnlyAt s t e.k e.core ∧
      (∃ pmc, t.ctx e.k = (s.ctx e.k).issued e pmc) ∧
      t.core e.core = { s.core e.core with bundle := none, nextIssue := e.t + count }) ∧
  (∀ (i : Instr) (slot uf : Nat) (pf : BitVec 4) (pn : Bool), Spec.privilegedForm i = some (slot, uf, pf, pn) →
    ∀ (s : State) (e : Env), Ready s e slot pf pn → (s.ctx e.k).overrun = none → s.supervisor e.k = false →
      let trap : Trap := { cause := .privilege, slot := slot, tval := BitVec.ofNat 64 (slot + uf * 256), decoded := true }
      exec i s = .next (s.takeTrap e.k e.t e.pc e.next trap) ∧ (s.takeTrap e.k e.t e.pc e.next trap).mem = s.mem)

/-- Results land at their cycle (R55, R56), and an operand reads what has landed (R50 Table 7): a register, a row's lanes of the mask, a
mask register, a flag, a latch part or a CSR that a result is due for takes it, status bits stay set, a scalar register that none is due
for stays, and a register with no write in flight reads as it stands. -/
def Obligations.RegistersReadWhatLanded : Prop :=
  ∀ (s : State) (k now r : Nat), r < 32 → (s.ctx k).overrun = none →
    let t := s.landDue k now
    let c := s.ctx k
    (∀ (p : Pending) (x : W64), Spec.Due c now p (.scalar r x) →
      (∀ q ∈ c.pending, ∀ y, q.what = .scalar r y → y = x) → (t.ctx k).sreg r = x) ∧
    ((∀ p ∈ c.pending, p.due ≤ now → ∀ x, p.what ≠ .scalar r x) → (t.ctx k).sreg r = c.sreg r) ∧
    (∀ (p : Pending) (v row : Nat) (m : W64) (x : Row), v < 16 → row < 16 → Spec.Due c now p (.vrow v row m x) →
      (∀ q ∈ c.pending, ∀ m' y, q.what = .vrow v row m' y → m' = m ∧ y = x) →
      ∀ lane, lane < 64 → laneOf ((t.ctx k).vrow v row) lane = if m.getLsbD lane then laneOf x lane else laneOf (c.vrow v row) lane) ∧
    (∀ (p : Pending) (n : Nat) (m x : W64), 0 < n → n < 8 → Spec.Due c now p (.kmask n m x) →
      (∀ q ∈ c.pending, ∀ m' y, q.what = .kmask n m' y → m' = m ∧ y = x) →
      ∀ lane, lane < 64 → ((t.ctx k).kreg n).getLsbD lane = if m.getLsbD lane then x.getLsbD lane else (c.kreg n).getLsbD lane) ∧
    (∀ (p : Pending) (m x : BitVec 16) (b : Nat), 0 < b → b < 16 → m.getLsbD b = true → Spec.Due c now p (.flags m x) →
      (∀ q ∈ c.pending, ∀ m' y, q.what = .flags m' y → m'.getLsbD b = true → y.getLsbD b = x.getLsbD b) →
      (t.ctx k).flags.getLsbD b = x.getLsbD b) ∧
    ((∀ q ∈ c.pending, (∀ x, q.what ≠ .csr 0x002 x) ∧ ((∃ slot b, q.what = .status slot b) → q.contested = 0)) →
      ∀ i, (t.ctx k).vstat.getLsbD i = true ↔
        c.vstat.getLsbD i = true ∨ ∃ p ∈ c.pending, p.due ≤ now ∧ ∃ slot b, p.what = .status slot b ∧ b.getLsbD i = true) ∧
    (∀ (p : Pending) (l : Nat) (x : W64), l < 5 → Spec.Due c now p (.latchS l x) →
      (∀ q ∈ c.pending, ∀ y, q.what = .latchS l y → y = x) → (t.core (coreOf k)).lat.scalar l = x) ∧
    (∀ (p : Pending) (l row : Nat) (x : Row), l < 6 → row < 16 → Spec.Due c now p (.latchV l row x) →
      (∀ q ∈ c.pending, ∀ y, q.what = .latchV l row y → y = x) → (t.core (coreOf k)).lat.row l row = x) ∧
    (∀ (p : Pending) (n : Nat) (x y : W64), Spec.csrStored n x = some y → Spec.Due c now p (.csr n x) →
      (∀ q ∈ c.pending, (∀ z, q.what = .csr n z → z = x) ∧ (n = 0x002 → ∀ slot b, q.what ≠ .status slot b)) →
      t.csrRead k n = y) ∧
    (∀ (cycle tag n : Nat), (∀ p ∈ c.pending, (∀ x, p.what ≠ .csr n x) ∧ (n = 0x002 → ∀ slot b, p.what ≠ .status slot b)) →
      s.readCsr k cycle tag n = s.csrRead k n) ∧
    (∀ (cycle tag n : Nat), (∀ p ∈ c.pending, ∀ m x, p.what ≠ .kmask n m x) → s.readK k cycle tag n = c.kreg n) ∧
    (∀ (cycle tag : Nat), (∀ p ∈ c.pending, ∀ m x, p.what ≠ .flags m x) → s.readFlags k cycle tag = c.flags) ∧
    (∀ (cycle tag v row : Nat), (∀ p ∈ c.pending, ∀ m x, p.what ≠ .vrow v row m x) → v ∉ s.asyncRegs k →
      s.readVrow k cycle tag v row = c.vrow v row) ∧
    (∀ (cycle tag l : Nat), (∀ p ∈ c.pending, ∀ x, p.what ≠ .latchS l x) →
      s.readLatchS k cycle tag l = (s.core (coreOf k)).lat.scalar l) ∧
    (∀ (cycle tag l row : Nat), (∀ p ∈ c.pending, ∀ x, p.what ≠ .latchV l row x) →
      s.readLatchV k cycle tag l row = (s.core (coreOf k)).lat.row l row) ∧
    (∀ (e : Env) (slot place : Nat), e.k = k → (∀ p ∈ c.pending, ∀ x, p.what ≠ .scalar r x) →
      scalarOperand s e slot place (BitVec.ofNat 6 r) = c.sreg r) ∧
    (∀ (e : Env) (slot place : Nat),
      scalarOperand s e slot place 40 = e.immScalar 0 ∧ scalarOperand s e slot place 41 = e.immScalar 1 ∧
      scalarOperand s e slot place 42 = e.immScalar 2 ∧ scalarOperand s e slot place 43 = e.immScalar 3 ∧
      scalarOperand s e slot place 44 = 0 ∧ scalarOperand s e slot place 45 = 1 ∧
      scalarOperand s e slot place 46 = BitVec.allOnes 64 ∧
      scalarOperand s e slot place 47 = BitVec.ofNat 64 (s.ctx e.k).pos)

/-- A step of a core whose turn it is runs the instruction that the decoder reads from the bundle at the PC (R31, R73): the bundle in
the issue stage, which is what fetch and decode made of the bytes at the PC and of the dictionary's control words. Around the
execution step only moves the clock of free values, and makes contexts whose wait has ended READY. -/
def Obligations.StepRunsTheDecodedInstruction : Prop :=
  ∀ (s : State) (core k : Nat), s.inputs = [] → s.nextCore = some core → (s.core core).running = some k →
    let here : State := { s with turn := core }
    ((s.ctx k).overrun = none ∨ (s.ctx k).haltReq = false) → here.earlyTrap k = none →
    (∀ (b : IssueBundle) (i : Instr), (s.core core).bundle = some b → b.ops = [i] → here.fairnessDue core = false →
      here.forcedDue core = false → here.nextCore = some core → here.arriveBefore core = [] →
      (∀ t, exec i here = .next t → here.overruns core = true ∨ t.overruns core = false ∨ t.completesNow core = false) →
      step s = advance s.clk s.free [] (exec i here)) ∧
    (∀ (b : IssueBundle) (f : FieldC) (t : State), (s.core core).bundle = some b → b.ops = [.bar f] →
      here.fairnessDue core = false → here.forcedDue core = false → here.nextCore = some core → here.arriveBefore core = [] →
      exec (.bar f) here = .next t → here.overruns core = false → t.overruns core = true → t.completesNow core = true →
      step s = advance s.clk s.free [] (exec (.bar { f with aux := f.aux &&& ~~~8 }) here)) ∧
    (∀ (b : IssueBundle) (used : List (Nat × Nat)) (i : Instr), (s.core core).bundle = none → here.prepared k = .bundle b used →
      b.ops = [i] →
      let held := prepareBundle core here
      held.fairnessDue core = false → held.forcedDue core = false → held.nextCore = some core → held.arriveBefore core = [] →
      (∀ t, exec i held = .next t → held.overruns core = true ∨ t.overruns core = false ∨ t.completesNow core = false) →
      (held.core core).bundle = some b ∧ step s = advance s.clk s.free [] (exec i held)) ∧
    (∀ (slot index x imms length : Nat) (safe : Bool) (i : Instr),
      s.fetched k = .stream (.bundle [(slot, index)] (List.replicate imms 0) false safe length) →
      s.tableEntry (coreOf k) (s.ctx k).dictHandle (slotClass slot) index = some (x, false) →
      ((containerSelectors (slotClass slot) x).all fun n => decide (n < 40) || decide (44 ≤ n)) = true →
      decodeContainer slot x = some i →
      s.prepared k = .bundle
        { pc := (s.ctx k).pc, length := length, safe := safe, immw := false, imms := List.replicate imms 0, ops := [i] }
        [(slotClass slot, index / 16)])

/-- Control words written out from the spec's encodings decode to the instructions they stand for (R39, R41, R86). -/
def Obligations.ControlWordsDecode : Prop :=
  decodeContainer 0 0x0000001014310000 =
    some (.mul .sa { ws := false, dst := 5, opa := 3, opb := 4, pf := 0, pn := false, aux := 0 }) ∧
  decodeContainer 8 0x0000001600000007 = some (.svc { ws := false, dst := 0, opa := 0, pf := 0, pn := false, aux := 7 }) ∧
  decodeContainer 8 0x0000002054000103 = some (.csrr { ws := false, dst := 21, opa := 0, pf := 0, pn := false, aux := 0x103 }) ∧
  decodeContainer 8 0x0000001700000001 = some (.eret { ws := false, dst := 0, opa := 0, pf := 0, pn := false, aux := 1 }) ∧
  decodeContainer 9 0x0004042808C00023 =
    some (.mmaa { beats := 4, td := 5, ta := 0, sl := 1, ops := 6, pf := 0, pn := false, aux := 0x23 }) ∧
  decodeContainer 6 0x0000145400000000 =
    some (.popq .ma { ws := false, dst := 21, opa := 0, opb := 0, pf := 0, pn := false, sc := 0, sz := 0, ks := 0, aux := 0 })

/-- The encoding drops no bit and gives every word one meaning (R39, R41, R76, R86): a well-formed operation is decoded from its own
slot field, which fits its slot, in a dictionary container and in a control word; and a slot field that decodes to an
operation is that operation's encoding. -/
def Obligations.EncodingRoundTrips : Prop :=
  (∀ (core : CoreKind) (priv : Bool) (i : Instr) (slot c : Nat), wellFormed core priv i = true → encode i = some (slot, c) →
    slot < 10 ∧ c < 2 ^ slotWidth slot ∧ decodeContainer slot c = some i ∧
    decodeTableWord (slotWidth slot) (c * 2 ^ slotBase slot) = some i) ∧
  (∀ (slot w : Nat) (i : Instr), slot < 10 → w < 2 ^ slotWidth slot → decodeSlot slot w = some i → encode i = some (slot, w))

/-- The canonical form of memory is kept by every step: addresses rise strictly and no listed byte reads as an unlisted one, so that
memories that read alike are equal (the model's own invariant, log entry 4). -/
def Obligations.MemoryStaysCanonical : Prop :=
  ∀ s t : State, Memory.wf s.mem = true → step s = .next t → Memory.wf t.mem = true

/-- No run stops (R409): while the waiting inputs are deeds of other agents, every step answers a next state, in which they still
are; TSC rises by one exactly where no deed was due, and stands still otherwise, but for package reset, which starts it anew. R409 says
only that TSC rises in every cycle: that a step is one deed, and a cycle only where none is due, is the model's choice (log entry 1),
and so is the counter of free values that a step reads (log entry 2). -/
def Obligations.EveryStepGoesOn : Prop :=
  ∀ s : State, s.InputsAreDeeds →
    ∃ t, step s = .next t ∧ t.InputsAreDeeds ∧ t.free = s.free + 1 ∧
      match s.inputs with
      | i :: rest => t.inputs = rest ∧ (i ≠ .evPackageReset → t.clk = s.clk) ∧ (i = .evPackageReset → t.clk = 0)
      | [] => t.inputs = [] ∧
        t.clk = (if s.nextCore = none ∧ s.dueDeed.isNone = true then s.clk + 1 else s.clk)

/-- The machine right after reset: FL0 reads 1 and LMASK is all ones in every context, no context has an access, a DLQ entry, an
overrun or a phase, the READY words are clear, TSC is 0 (R21, R98, R409, R439), banks are in CACHE mode, no region is valid, and no
group, command or table update waits (the model's choice, log entry 5). Memory is canonical and no input waits, so the invariants of
every step hold there (log entry 4). -/
def Obligations.ResetState : Prop :=
  let s := State.reset
  s.InputsAreDeeds ∧ Memory.wf s.mem = true ∧ s.clk = 0 ∧
  (∀ k, (s.ctx k).flags.getLsbD 0 = true ∧ s.csrRead k 0x001 = BitVec.allOnes 64 ∧ (s.ctx k).accesses = [] ∧
    (s.ctx k).dlq = [] ∧ (s.ctx k).overrun = none ∧ (s.ctx k).phaseRec = none) ∧
  (∀ n b, b < 16 → s.bankMode n b = .cache) ∧ (∀ r, (s.region r).valid = false) ∧
  (∀ w b, s.readyBit w b = false) ∧ s.groups = [] ∧ s.commands = [] ∧ s.tblQueue = []

/-- The choice of contexts (R27 to R29): a core with no running context chooses the READY one that has waited longest; it issues two
cycles after it became READY at the earliest, with latches that read zero, or that a release or a resumption restored. Where a
READY context that has waited longest has waited for 4,096 cycles, the running context gives way at the first bundle marked SAFE, and 4,096 cycles after
that at any bundle; its registers stay as they are. -/
def Obligations.ContextsTakeTurns : Prop :=
  (∀ (s : State) (core k : Nat), (s.core core).running = none → Spec.WaitsReady s core k →
    (∀ j, j ≠ k → Spec.WaitsReady s core j → (s.ctx k).readyAt < (s.ctx j).readyAt) →
    ∃ t, exec (.evContextSelect core) s = .next t ∧ OnlyAt s t k core ∧
      t.ctx k = { s.ctx k with phase := .running, firstIssue := none, restored := none } ∧
      t.core core = { s.core core with
        running := some k, nextIssue := max (s.core core).nextIssue ((s.ctx k).readySince + 2)
        lat := (s.ctx k).restored.getD Latches.zero }) ∧
  (∀ (s : State) (core k j : Nat), Spec.AtBoundary s core k → Spec.WaitsReady s core j →
    (∀ i, i ≠ j → Spec.WaitsReady s core i → (s.ctx j).readyAt < (s.ctx i).readyAt) →
    let since := (s.ctx j).readySince + 4096
    since ≤ (s.core core).lt →
    (∀ b, (s.core core).bundle = some b → b.safe = true →
      ∃ t, exec (.evFairnessSwitch core) s = .next t ∧ Spec.GaveWay s t core k) ∧
    (∀ f, (s.ctx k).firstIssue = some f → max since f + 4096 ≤ (s.core core).lt →
      ∃ t, exec (.evForcedSwitch core) s = .next t ∧ Spec.GaveWay s t core k))

/-- The end of a trap's drain, once every operation has written back (R64, R101, R259, R260): a trap that can be delivered enters its
handler, with the latches shadowed, the trap CSRs set, supervisor state and the PC at TVEC; TVAL of FP_TRAP holds every enabled flag
raised until then; any other, in a group, is recorded as the fault by which the group ends (R376). -/
def Obligations.TrapsEnterTheirHandlers : Prop :=
  ∀ (s : State) (k : Nat) (trap : Trap) (pc next : BitVec 57), (s.ctx k).drain = .trap trap pc next → s.writtenBack k = true →
    s.groupFaulted k = false → trap.cause ≠ .breakpoint →
    let tval : W64 := match trap.cause, (s.ctx k).fpPending with
      | .fpTrap, some (flags, slot) => BitVec.ofNat 64 (flags.toNat + slot * 256)
      | _, _ => trap.tval
    let last : Trap := { trap with tval := tval }
    (s.delivers k last = true →
      ∃ t, exec (.evTrapEntry k) s = .next t ∧ OnlyAt s t k (coreOf k) ∧
        t.ctx k = Spec.handling (s.ctx k) (s.core (coreOf k)).lat last pc next ∧
        t.core (coreOf k) = { s.core (coreOf k) with
          lat := Latches.zero, nextIssue := max (s.core (coreOf k)).nextIssue (s.core (coreOf k)).lt }) ∧
    (∀ g x, s.delivers k last = false → (s.ctx k).group = some g → s.group? g = some x →
      ∃ t y, exec (.evTrapEntry k) s = .next t ∧ t.mem = s.mem ∧ (t.ctx k).drain = .none ∧ (t.ctx k).pc = (s.ctx k).pc ∧
        t.group? g = some { x with fault := some y } ∧ y.cause = trap.cause ∧ y.slot = trap.slot ∧ y.tval = tval ∧
        y.tepc = pc.zeroExtend 64 ∧ y.pos = (s.ctx k).pos)

/-- The end of other drains: a halt leaves the context HALTED with its latches shadowed, but not in a freeze (R30, R63, R257); an exit leaves it DONE with an
empty DLQ once its stores are performed and its loads have arrived (R244); a conflict rolls an overrunner back to its checkpoint, at
its bar bundle (R317); a cancelled phase rolls back and its input is fetched again, but the fifth cancellation in a row ends the group
(R249, R381); the end of the refetch makes its context READY (R249). Neither rolls back in a freeze (R30). The model's choice: that the
record of the fifth cancellation names slot 15 and the PC of that time (log entry 21), that queued accesses are performed first (log
entry 10), and that the refetch takes no entry of the copy queue (log entry 29). -/
def Obligations.DrainsEnd : Prop :=
  ∀ (s : State) (k : Nat),
    (∀ cause, (s.ctx k).drain = .halt cause → s.writtenBack k = true → s.frozen k = false → s.groupFaulted k = false →
      let halted := s.haltCtx k
      ((halted.ctx k).phase = .halted ∧ (halted.ctx k).drain = .none ∧ (halted.ctx k).s = (s.ctx k).s ∧
        (halted.ctx k).fl = (s.ctx k).fl ∧ (halted.ctx k).v = (s.ctx k).v ∧ (halted.ctx k).pc = (s.ctx k).pc ∧
        ((s.core (coreOf k)).running = some k →
          (halted.ctx k).shadow = (s.core (coreOf k)).lat ∧ (halted.core (coreOf k)).running = none ∧
          (halted.core (coreOf k)).lat = Latches.zero) ∧ OnlyAt s halted k (coreOf k)) ∧
      exec (.evDebugStop k) s =
        .next (if cause ≤ 1 then halted.traceCtx k 8 cause ((s.ctx k).pc.zeroExtend 64) else halted)) ∧
    ((s.ctx k).drain = .exit → s.drained k = true → (s.ctx k).accesses = [] → (∀ d ∈ (s.ctx k).dlq, d.fate ≠ .waiting) →
      (∀ p ∈ (s.ctx k).pending, p.slot = 15) →
      ∃ t, exec (.evContextDone k) s = .next t ∧ OnlyAt s t k (coreOf k) ∧ t.core (coreOf k) = s.core (coreOf k) ∧
        t.ctx k = { s.ctx k with phase := .done, drain := .none, dlq := [] }) ∧
    ((s.ctx k).phase = .blocked → (s.ctx k).block = some .refetch → s.engine = [] → s.heldOps = [] →
      ∃ t, exec (.evPhaseRefetchComplete k) s = .next t ∧ OnlyAt s t k (coreOf k) ∧ t.core (coreOf k) = s.core (coreOf k) ∧
        t.ctx k = { s.ctx k with phase := .ready, block := none, readySince := (s.core (coreOf k)).lt, readyAt := s.clk }) ∧
    (∀ b w, (s.ctx k).drain = .rollback → (s.ctx k).overrun = some b → s.drained k = true → s.frozen k = false →
      let f := s.flush k
      (f.ctx k).barrierWait = some w → (f.ctx k).phase ≠ .halted →
      ∃ t, exec (.evOverrunRollback k) s = .next t ∧ t.mem = f.mem ∧
        Spec.RolledBack (t.ctx k) ((f.core (coreOf k)).banks.getD b CheckpointBank.empty).snapshot ∧
        (t.ctx k).overrun = none ∧ (t.ctx k).block = some (.barrier w.barrier w.generation) ∧
        (t.ctx k).barrierWait = some w ∧ ∀ j, j ≠ k → t.ctx j = f.ctx j) ∧
    (∀ cause address p b, (s.ctx k).drain = .cancel cause address → (s.ctx k).phaseRec = some p → p.bank = some b →
      s.drained k = true → s.frozen k = false → ((s.groupOf k).bind Group.fault).isSome = false →
      let f := s.flush k
      ((f.ctx k).cancels < 4 → (f.ctx k).phase ≠ .halted →
        ∃ t, exec (.evPhaseCancel k) s = .next t ∧ t.mem = f.mem ∧
          Spec.RolledBack (t.ctx k) ((f.core (coreOf k)).banks.getD b CheckpointBank.empty).snapshot ∧
          (t.ctx k).phaseRec = none ∧ (t.ctx k).cancels = (f.ctx k).cancels + 1 ∧ (t.ctx k).block = some .refetch ∧
          (∀ j, j ≠ k → t.ctx j = f.ctx j) ∧
          ∃ x, mapGet? t.engine (f.engineNumber (coreOf k)) = some x ∧ x.copy = true ∧ x.refetch = true ∧ x.operand = p.desc ∧
            (t.core (coreOf k)).copyQueue = (f.core (coreOf k)).copyQueue) ∧
      (4 ≤ (f.ctx k).cancels →
        exec (.evPhaseCancel k) s = .next ((f.faultGroup k cause 15 address ((f.ctx k).pc.zeroExtend 64)).count
          (ctrRerun (dieOf (clusterOf k) % 8)) 1)))

/-- Queued accesses are performed (R33, R283, R285, R322): a load answers its DLQ entry with the value of its bytes, extended as it
asks; a store writes its bytes, little-endian, and no other byte; a vector load writes its lanes, and its flag event follows, in the
image itself where its group is pre-empted. -/
def Obligations.QueuedAccessesArePerformed : Prop :=
  ∀ (s : State) (k : Nat) (a : Access) (rest : List Access), Spec.Oldest s k a rest →
    (∀ (i n : Nat) (d : DlqEntry) (signed : Bool) (x : Element) (ev : Instr), (s.ctx k).dlq[i]? = some d →
      a.kind = .load d.id signed → a.elements = [x] → Spec.Plain s x.place.key a.size → a.size = n → n ≤ 8 →
      Spec.performs (.evDlqArrival k i) k ev →
      let value : BitVec (8 * n) := BitVec.ofNat (8 * n) (s.wordAt x.place.key n)
      ∃ t, exec ev s = .next t ∧ Spec.Performed s t k rest ∧ (t.ctx k).v = (s.ctx k).v ∧
        (t.ctx k).dlq = (s.ctx k).dlq.map fun y =>
          if y.id = d.id then { y with value := if signed then value.signExtend 64 else value.zeroExtend 64, fate := .ready }
          else y) ∧
    (∀ (x : Element) (ev : Instr), a.kind = .store → a.elements = [x] → Spec.Plain s x.place.key a.size → a.size ≤ 8 →
      Spec.performs (.evStorePerformed k) k ev →
      ∃ t, exec ev s = .next t ∧ (t.ctx k).accesses = rest ∧ (t.ctx k).s = (s.ctx k).s ∧ (t.ctx k).v = (s.ctx k).v ∧
        (t.ctx k).fl = (s.ctx k).fl ∧
        (∀ i, i < a.size → t.byteAt (x.place.key + i) = BitVec.ofNat 8 (x.data.toNat / 256 ^ i)) ∧
        (∀ b, Spec.realPlane (planeOf b) = true → b < x.place.key ∨ x.place.key + a.size ≤ b → t.byteAt b = s.byteAt b) ∧
        (Memory.wf s.mem = true → Memory.wf t.mem = true)) ∧
    (∀ (reg flag : Nat) (ev : Instr), a.kind = .vload reg flag → reg < 16 → a.size ≤ 4 → a.failed = none →
      (∀ x ∈ a.elements, Spec.Plain s x.place.key a.size ∧ x.row < 16 ∧ x.lane < 64) →
      (a.elements.map fun x => (x.row, x.lane)).Nodup → Spec.performs (.evVectorAccessComplete k 0) k ev →
      Spec.Uncontested (s.ctx k) reg →
      ∃ t, exec ev s = .next t ∧ (t.ctx k).accesses = rest ∧ t.mem = s.mem ∧ (∀ j, j ≠ k → t.ctx j = s.ctx j) ∧
        (t.ctx k).s = (s.ctx k).s ∧ (t.ctx k).pc = (s.ctx k).pc ∧ (t.ctx k).k = (s.ctx k).k ∧ (t.ctx k).dlq = (s.ctx k).dlq ∧
        (parked k = false → (t.ctx k).fl = (s.ctx k).fl ∧
          (t.ctx k).pending = Spec.flagged (s.ctx k) (s.core (coreOf k)).lt true flag) ∧
        (parked k = true → (t.ctx k).pending = (s.ctx k).pending ∧
          (t.ctx k).fl = if flag = 0 then (s.ctx k).fl else (s.ctx k).fl ||| flagMask flag) ∧
        (∀ x ∈ a.elements, laneOf ((t.ctx k).vrow reg x.row) x.lane = BitVec.ofNat 32 (s.wordAt x.place.key a.size)) ∧
        ∀ v row lane, v < 16 → row < 16 → lane < 64 → (v = reg → ∀ x ∈ a.elements, (x.row, x.lane) ≠ (row, lane)) →
          laneOf ((t.ctx k).vrow v row) lane = laneOf ((s.ctx k).vrow v row) lane)

/-- What reaches a context from outside (R278 to R280, R289, R294, R298, R300, R379, R389, R390, R455): a failed load marks its DLQ entry,
by a lost link or by data that prove bad; an error in what a context itself holds cancels its phase; a soft error flips bits of the
results that one slot is producing; a watch that has seen its condition disarms and sets its flag; ended walks let the bundle go on; LTS
only rises; an agent that takes ownership of a line of the pool or of the host leaves its bytes there, or poison where it fails. The
model's choice: that a storage error outside a phase has no effect and that data which prove bad poison whatever memory holds (log entry
62), what the failure inputs carry and that BACK_INVALIDATION brings bytes or poison (log entries 35 and 96), and the middle of the space of
LTS as the limit of the device's own raise (log entry 12). -/
def Obligations.DevicesReachContexts : Prop :=
  ∀ (s : State) (k : Nat),
    (∀ (i : Nat) (signed : Bool) (a : Access) (x : Element) (e : Nat), (s.ctx k).accesses[i]? = some a →
      a.kind = .load e signed → a.elements.head? = some x → tierOf x.place.key = 2 → (s.ctx k).overrun = none →
      ∃ t, exec (.evAccessFailure k i .linkLost) s = .next t ∧
        Spec.Performed s t k ((s.ctx k).accesses.filter fun y => y.id ≠ a.id) ∧
        (t.ctx k).dlq = (s.ctx k).dlq.map fun y => if y.id = e then { y with value := x.va, fate := .lost } else y) ∧
    (∀ (signed : Bool) (a : Access) (rest : List Access) (x : Element) (e : Nat), Spec.Oldest s k a rest →
      a.kind = .load e signed → a.elements = [x] → Spec.Plain s x.place.key a.size →
      ∃ t, exec (.evAccessFailure k 0 .badData) s = .next t ∧ Spec.Performed s t k rest ∧
        t.poisoned.contains (lineOf x.place.key) = true ∧
        (t.ctx k).dlq = (s.ctx k).dlq.map fun y => if y.id = e then { y with value := x.va, fate := .poisoned } else y) ∧
    (∀ i, exec (.evAccessFailure k i .storage) s = .next
      (if (s.ctx k).inOpenPhase = true then s.updCtx k fun c => { c with drain := .cancel .poison 0 }
      else if (s.ctx k).inExposedPhase = true then s.faultGroup k .poison 15 0 ((s.ctx k).pc.zeroExtend 64) else s)) ∧
    (∀ i slot lane bits, (8 ≤ slot ∨ slot = 5 → exec (.evAccessFailure k i (.softError slot lane bits)) s = .next s) ∧
      (slot < 8 → slot ≠ 5 → ∃ t, exec (.evAccessFailure k i (.softError slot lane bits)) s = .next t ∧ OnlyAt s t k (coreOf k) ∧
        t.core (coreOf k) = s.core (coreOf k) ∧ t.ctx k = { s.ctx k with pending := (t.ctx k).pending } ∧
        (t.ctx k).pending.length = (s.ctx k).pending.length ∧
        ∀ (n : Nat) (p : Pending), (s.ctx k).pending[n]? = some p → ∃ q : Pending, (t.ctx k).pending[n]? = some q ∧ q = { p with what := q.what } ∧
          (p.slot ≠ slot → q = p) ∧
          (∀ r x, p.slot = slot → p.what = .scalar r x → q.what = .scalar r (x ^^^ bits)) ∧
          (∀ v row m x, p.slot = slot → p.what = .vrow v row m x → lane < 64 → ∃ y, q.what = .vrow v row m y ∧
            laneOf y lane = laneOf x lane ^^^ bits.truncate 32 ∧ ∀ l, l < 64 → l ≠ lane → laneOf y l = laneOf x l))) ∧
    (∀ (i : Nat) (w : Watch), (s.ctx k).watches[i]? = some w → w.hit = true → parked k = false →
      ∃ t, exec (.evWatchFire k i) s = .next t ∧ Spec.Performed s t k (s.ctx k).accesses ∧
        (t.ctx k).watches = ((s.ctx k).watches.filter fun y => y.flag ≠ w.flag) ∧
        (t.ctx k).pending = Spec.flagged (s.ctx k) (s.core (coreOf k)).lt false w.flag) ∧
    (∀ (core : Nat) (pages : List Nat), (s.core core).running = some k → pages ≠ [] →
      (s.core core).freeze = some (.walk pages) → (s.core core).walking = [] → s.partials = [] →
      ∃ t lts, exec (.evWalkComplete core) s = .next t ∧ t.mem = s.mem ∧ (∀ j, j ≠ k → t.ctx j = s.ctx j) ∧
        t.ctx k = { s.ctx k with lts := lts } ∧ (t.core core).freeze = none ∧
        (t.core core).walking = [] ∧ (t.core core).walked = (s.core core).walked ++ pages ∧
        ∀ p pte size, pages = [p] → s.walk (s.ptbase (s.regionOf k)) (p * 4096) = .leaf pte size →
          { vpn := p * 4096 / 2 ^ size, size := size, asid := s.asidOf (s.regionOf k), pte := BitVec.ofNat 64 pte } ∈
            (t.cluster (clusterOf k)).tlb) ∧
    (∀ (n : Nat), ∃ t x, exec (.evLtsAdvance k n) s = .next t ∧ OnlyAt s t k (coreOf k) ∧
        t.ctx k = { s.ctx k with lts := x } ∧ (s.ctx k).lts.toNat ≤ x.toNat ∧
        ((s.ctx k).lts.toNat + n ≤ 2 ^ 63 → x.toNat = (s.ctx k).lts.toNat + n)) ∧
    (∀ (line : Nat) (bytes : Option (List Byte)), (tierOf (line * 64) = 2 ∨ (planeOf (line * 64) = 3 ∧ apertureOf (line * 64) = none)) →
      (∀ bs, bytes = some bs → bs.length = 64) → mapGet? s.partials line = none →
      ∃ t, exec (.evBackInvalidation line bytes) s = .next t ∧ t.modified.contains line = false ∧
        (∀ bs, bytes = some bs → ∀ i, i < 64 → t.byteAt (line * 64 + i) = bs.getD i 0) ∧
        t.poisoned.contains line = bytes.isNone ∧
        (∀ b, Spec.realPlane (planeOf b) = true → lineOf b ≠ line → t.byteAt b = s.byteAt b) ∧
        (Memory.wf s.mem = true → Memory.wf t.mem = true))

/-- What maintenance completes (R252, R253, R255, R256, R268, R290): tlbinv removes exactly the entries it names, from the TLBs of its die
or of the package; a cacheop that writes back changes no byte that anything reads, one that invalidates leaves each byte at its last
written value or at what its tier holds (which of the two is open: the model's choice, log entry 42), and an iinv leaves no valid code
line of a mapped page of its range; a bank switches its mode, and its bytes then read 0, but for a FIFO bank that becomes SCRATCH; ctxsave
writes the image, whose bytes hold what R256 lays out, and ctxrest loads it, which gives the registers back, or a record says why not
(that an operation whose target has left its state ends in a record of ACCESS_FAULT is the model's choice, log entry 41). -/
def Obligations.MaintenanceCompletes : Prop :=
  (∀ (s : State) (k mode slot flag : Nat) (a : W64) (package : Bool) (rest : List Maintenance),
    (s.ctx k).maintenance = .tlbinv mode slot a package flag :: rest → parked k = false →
    ∃ t, exec (.evTlbinvComplete k) s = .next t ∧ Spec.Maintained s t k rest flag ∧ t.mem = s.mem ∧
      (∀ n e, e ∈ (t.cluster n).tlb ↔
        e ∈ (s.cluster n).tlb ∧ ¬ ((package = true ∨ dieOf n = dieOf (clusterOf k)) ∧ Spec.invalidates mode slot a e)) ∧
      ∀ d e, e ∈ (t.die d).tlb ↔
        e ∈ (s.die d).tlb ∧ ¬ ((package = true ∨ d = dieOf (clusterOf k)) ∧ Spec.invalidates mode slot a e)) ∧
  (∀ (s : State) (k op flag : Nat) (a b : W64) (rest : List Maintenance),
    (s.ctx k).maintenance = .cacheop op a b flag :: rest → op ≠ 1 → s.partials = [] → Spec.TiersOnly s → parked k = false →
    (∀ l ∈ s.modified, s.reachable (l * 64) = true) →
    ∃ t, exec (.evCacheopComplete k) s = .next t ∧ Spec.Maintained s t k rest flag ∧
      (∀ x, Spec.realPlane (planeOf x) = true → t.byteAt x = s.byteAt x) ∧
      (op = 3 → 0 < b.toNat → ∀ n, ∀ l ∈ (t.core n).icache, l.valid = true → l.asid = s.asidOf (s.regionOf k) →
        (s.maintenancePlace k (l.line * 128)).isSome = true →
        a.toNat + b.toNat ≤ l.line * 128 ∨ l.line * 128 + 128 ≤ a.toNat)) ∧
  (∀ (s : State) (k flag : Nat) (a b : W64) (rest : List Maintenance),
    (s.ctx k).maintenance = .cacheop 1 a b flag :: rest → s.partials = [] → Spec.TiersOnly s → parked k = false →
    ∃ t, exec (.evCacheopComplete k) s = .next t ∧ Spec.Maintained s t k rest flag ∧
      ∀ x, Spec.realPlane (planeOf x) = true → t.byteAt x = s.byteAt x ∨ planeOf x < 16 ∧ t.byteAt x = memGet s.mem x) ∧
  (∀ (s : State) (n op bank k flag : Nat) (mode : BankMode), n < 258 → bank < 16 →
    (s.cluster n).switches = [{ op := op, bank := bank, mode := mode }] → s.reserved n bank = false →
    (s.cluster n).bankOps = [{ op := op, ctx := k, flag := flag }] → Spec.TiersOnly s → parked k = false →
    let old := s.bankMode n bank
    ∃ t, exec (.evBankSwitchComplete n) s = .next t ∧ t.bankMode n bank = mode ∧ (t.cluster n).switches = [] ∧
      (t.ctx k).pending = Spec.flagged (s.ctx k) (s.core (coreOf k)).lt false flag ∧
      (∀ c b, (c ≠ n ∨ b ≠ bank) → t.bankMode c b = s.bankMode c b) ∧
      (∀ off, off < 2 ^ 19 → old ≠ mode → ¬ (old = .fifo ∧ mode = .scratch) → t.byteAt (bankKey n bank off) = 0) ∧
      ∀ x, Spec.realPlane (planeOf x) = true →
        (∀ off, off < 2 ^ 19 → x ≠ bankKey n bank off) ∨ old = mode → t.byteAt x = s.byteAt x) ∧
  (∀ (s : State) (k target flag : Nat) (a : W64) (go : Bool) (rest : List Maintenance),
    let after := s.updCtx k fun c => { c with maintenance := rest }
    let settled := (after.flush k).flush target
    ((s.ctx k).maintenance = .ctxsave target a flag :: rest → k ≠ target →
      let (area, u) := settled.imageArea (settled.ctx target)
      let w := u.writeImage k 1536 a (u.imageBytes target (u.ctx target).shadow area)
      exec (.evCtxImageComplete k) s = .next
        (if (s.ctx target).phase = .halted ∨ (s.ctx target).phase = .done then
          match w with
          | (none, v) => v.setFlagFrom false k flag
          | (some (c, va), v) => v.imageFails k c va
        else after.imageFails k .accessFault a)) ∧
    ((s.ctx k).maintenance = .ctxrest target a go flag :: rest → k ≠ target →
      exec (.evCtxImageComplete k) s = .next
        (if (s.ctx target).phase = .halted then after.restoreContext k target a go flag else after.imageFails k .accessFault a))) ∧
  (∀ (s : State) (k : Nat) (lat : Latches) (area : List Byte),
    let c := s.ctx k
    let bs := s.imageBytes k lat area
    fieldAt bs 0 4 = 0x43585449 ∧ fieldAt bs 4 2 = 1 ∧ fieldAt bs 6 1 = phaseCode c.phase ∧ fieldAt bs 8 8 = c.pc.toNat ∧
    fieldAt bs 0x10 8 = c.dictObj % 2 ^ 64 ∧ (∀ r, r < 32 → fieldAt bs (0x100 + 8 * r) 8 = (c.sreg r).toNat) ∧
    (∀ r, r < 8 → fieldAt bs (0x200 + 8 * r) 8 = (c.kreg r).toNat) ∧ fieldAt bs 0x240 8 = c.flags.toNat ∧
    (∀ i, i < 5 → fieldAt bs (0x248 + 8 * i) 8 = (lat.scalar i).toNat) ∧
    (∀ n, n < 320 → fieldAt bs (0x300 + 8 * n) 8 = (s.csrRead k n).toNat) ∧
    ∀ r row lane, r < 16 → row < 16 → lane < 64 →
      fieldAt bs (0x2000 + 4096 * r + 256 * row + 4 * lane) 4 = (laneOf (c.vrow r row) lane).toNat) ∧
  (∀ (s u : State) (j target handle object : Nat) (area : List Byte) (wait : Option BarrierWait) (go : Bool),
    let c := s.ctx j
    let t := u.loadContext target (s.imageBytes j c.shadow area) handle object ([], wait) go
    let d := t.ctx target
    c.dlq.length ≤ 16 →
    d.pc = c.pc ∧ (∀ r, r < 32 → d.sreg r = c.sreg r) ∧ (∀ r, r < 8 → d.kreg r = c.kreg r) ∧ d.flags = c.flags ∧
      (∀ r row, r < 16 → row < 16 → d.vrow r row = c.vrow r row) ∧ d.lmask = c.lmask ∧ d.ts = c.ts ∧ d.fmt = c.fmt ∧ d.ba = c.ba ∧
      d.tepc = c.tepc ∧ d.tval = c.tval ∧ d.tvec = c.tvec ∧ d.user = c.user ∧ d.prevUser = c.prevUser ∧ d.nesting = c.nesting ∧
      d.shadow = c.shadow ∧ d.dlq.map DlqEntry.value = c.dlq.map DlqEntry.value ∧ d.dictHandle = handle ∧ d.dictObj = object ∧
      t.mem = u.mem ∧ (∀ i, i ≠ target → t.ctx i = u.ctx i) ∧
      d.phase = (if go = true ∧ (c.phase = .ready ∨ c.phase = .running) then .ready else if go = true ∧ c.phase = .blocked then .blocked else .halted))

/-- What fetch waits for arrives (R72, R78, R81, R82, R232, R413): a page of a dictionary is read and filtered into the decode table,
and then its entries are those of its bytes; an uncorrectable error found in a resident entry evicts its page, and is counted; a line
of code comes into the instruction cache with the bytes that memory holds. -/
def Obligations.FetchIsServed : Prop :=
  (∀ (s s₁ s₂ : State) (core k cls page : Nat) (rest : List (Nat × Nat)) (d : DictHandle) (lo hi : List Byte),
    (s.core core).running = some k → (s.core core).freeze = some (.refill ((cls, page) :: rest)) →
    let h := (s.ctx k).dictHandle
    let at' := d.object + d.arrays.getD cls 0 + 128 * page
    (s.core core).handles[h]? = some (some d) → s.pageResident core h cls page = false →
    s.lineRead (s.regionOf k) .load at' = (.ok lo, s₁) → s₁.lineRead (s.regionOf k) .load (at' + 64) = (.ok hi, s₂) →
    ∃ t, exec (.evDictionaryRefill (.serve core)) s = .next t ∧ t.mem = s₂.mem ∧ (t.core core).freeze = some (.refill rest) ∧
      (∀ i, i < 16 → t.tableEntry core h cls (16 * page + i) = some (Spec.filtered core d cls (lo ++ hi) i)) ∧
      ∀ j, j ≠ k → t.ctx j = s₂.ctx j) ∧
  (∀ (s : State) (core k cls page : Nat) (tokens : List (Nat × Nat)) (imms : List Nat) (immw safe : Bool) (n : Nat),
    (s.core core).running = some k → (s.ctx k).drain = .none → (s.core core).bundle = none →
    s.fetched k = .stream (.bundle tokens imms immw safe n) → (∃ x ∈ tokens, slotClass x.1 = cls ∧ x.2 / 16 = page) →
    s.pageResident core (s.ctx k).dictHandle cls page = true →
    ∃ t : State, exec (.evDictionaryRefill (.badEntry core cls page)) s = .next (t.count (ctrEvicted core) 1) ∧
      t.pageResident core (s.ctx k).dictHandle cls page = false ∧ (∀ j, j ≠ core → t.core j = s.core j) ∧
      t.ctxs = s.ctxs ∧ t.mem = s.mem) ∧
  (∀ (s s₁ s₂ : State) (core k line : Nat) (lo hi : List Byte), (s.core core).running = some k → (s.ctx k).drain = .none →
    s.fetched k = .miss line → s.lineRead (s.regionOf k) .fetch (line * 128) = (.ok lo, s₁) →
    s₁.lineRead (s.regionOf k) .fetch (line * 128 + 64) = (.ok hi, s₂) →
    ∃ t, exec (.evInstructionCacheFill core) s = .next t ∧ t.mem = s₂.mem ∧ (∀ j, t.ctx j = s₂.ctx j) ∧
      let old := (s₂.core core).icache.filter fun l => l.line = line && l.asid = s₂.asidOf (s.regionOf k)
      (t.core core).icache.head? =
        some { asid := s₂.asidOf (s.regionOf k), line := line, valid := true, bytes := lo ++ hi
               pins := (old.map CodeLine.pins).flatten })

/-- Groups come and go (R19 to R21, R24, R25, R245, R361, R376): a placed group has the contexts it declares, at their launch state,
and banks in their declared modes; the launch of a CONTINUE packet takes the resources its group kept, with the packet's words; a group
whose contexts are all DONE frees them and its banks, or asks for its continuation by a packet in the ring of its continuation queue;
one that a fault ends goes once it has stopped. That the device writes the CONTINUE packet at the control block's BASE with these
header fields is the model's choice (log entry 48), and so is that the lowest free banks and contexts are taken (log entry 68). -/
def Obligations.GroupsComeAndGo : Prop :=
  (∀ (s a b : State) (die command g cluster : Nat) (c : Command), s.nextPlacement die = some (.fresh command g cluster) →
    mapGet? s.commands command = some c → s.assignAsid c.region = some a →
    let from_ := a.advanceRange die command
    let hs := takeContexts c.decl.n (from_.freeContexts cluster)
    let banks := (from_.freeBanks cluster).take (c.decl.b + c.decl.q)
    from_.bindAll c.region (objectOf c.dictObj) (hs.map fun h => 16 * cluster + h) = (none, b) →
    ∃ t x, exec (.evGroupPlace die) s = .next t ∧ t.nextGroup = s.nextGroup + 1 ∧ t.group? s.nextGroup = some x ∧
      x.command = command ∧ x.g = g ∧ x.decl = c.decl ∧ x.cluster = some cluster ∧ x.contexts = hs ∧ x.banks = banks ∧
      (∀ p h, hs[p]? = some h →
        Spec.Launched (t.ctx (16 * cluster + h)) s.nextGroup p c.entry (BitVec.ofNat 64 g) (BitVec.ofNat 64 c.gcount) c.args) ∧
      ∀ i n, banks[i]? = some n → t.bankMode cluster n = if i < c.decl.b then .scratch else .fifo) ∧
  (∀ (s b : State) (bs : List Byte) (lts : W64) (x : Group) (c : Command),
    let g := fieldAt bs 0x20 4
    let gidx := fieldAt bs 0x18 4
    let gcount := fieldAt bs 0x1C 4
    let t := s.launchCont bs lts
    s.group? g = some x → x.kept = true → mapGet? s.commands x.command = some c → c.cancelled = false → x.keys.Nodup →
    s.bindAll x.region (objectOf x.dictObj) x.keys = (none, b) →
    ∃ y, t.group? g = some y ∧ y.kept = false ∧ y.banks = x.banks ∧ y.contexts = x.contexts ∧ y.latches = x.latches ∧
      y.g = gidx ∧ y.gcount = gcount ∧
      ∀ i k, x.keys[i]? = some k →
        Spec.Launched (t.ctx k) g i (BitVec.ofNat 64 (fieldAt bs 8 8)) (BitVec.ofNat 64 gidx) (BitVec.ofNat 64 gcount)
          (BitVec.ofNat 64 (fieldAt bs 0x10 8))) ∧
  (∀ (s : State) (g n : Nat) (x : Group), s.group? g = some x → x.fault = none → x.kept = false → x.preempting = false →
    x.cluster = some n → s.engineRuns g = false → (∀ k ∈ x.keys, (s.ctx k).phase = .done) →
    ((∀ k ∈ x.keys, (s.ctx k).contReq = none) →
      ∃ t, exec (.evGroupEnd g) s = .next t ∧ t.group? g = none ∧ (∀ k ∈ x.keys, (t.ctx k).phase = .free) ∧
        ∀ b ∈ x.banks, b < 16 → t.bankMode n b = .cache) ∧
    (∀ entry arg c, s.contOf x = some (entry, arg) → mapGet? s.commands x.command = some c → c.cancelled = false →
      ∃ t, exec (.evGroupEnd g) s = .next t ∧ t.group? g = some { x with kept := true, contReserved := false } ∧
        ∀ q, (s.die (dieOf n)).contQueue x.region = some q →
          (t.die (dieOf n)).contQueue x.region = some { q with reserved := q.reserved - 1, waiting := q.waiting + 1 } ∧
          (∀ p, s.heldOps = [] → s.traces = [] → s.partials = [] →
            let m := contNumber (dieOf n) q.number
            s.deviceWalk x.region .store (BitVec.ofNat 64 (s.slotAddr m (s.writeIndex m))) = .ok p →
            Spec.Plain s p.key 64 → (∀ o, o < 64 → lineOf p.key ≠ lineOf (tierKey 0 (s.qcbAddr m + o))) →
            t.bytesAt p.key 64 = continuePacket (entry.zeroExtend 64) arg g x c))) ∧
  (∀ (s : State) (g n : Nat) (x : Group) (f : GroupFault), s.group? g = some x → x.fault = some f → x.cluster = some n →
    s.stopped g x = true →
    ∃ t, exec (.evContainedFault g) s = .next t ∧ t.group? g = none ∧ (∀ k ∈ x.keys, (t.ctx k).phase = .free) ∧
      ∀ b ∈ x.banks, b < 16 → t.bankMode n b = .cache)

/-- Groups and turns move (R12, R22, R23, R32 to R35, R364, R384, R391): pre-emption stops a group, and once it stands still gives up
its cluster, clears its rendezvous latches and keeps its contexts' registers; a resumption gives them back on another; a thief takes
the upper part of a range, at its command's place; a turn that is over ends; a lost cluster's groups are placed anew or end; a lost
die's ranges pass on, and the lines it held modified are uncorrectable. The model's choices here are the place of a stolen range (log
entry 84), turn lengths in sevenths of a nanosecond (log entry 66), when a group is captured (log entries 54 and 69), which groups of a
lost cluster are placed anew (log entry 80) and which die holds a modified line (log entry 43). -/
def Obligations.GroupsMove : Prop :=
  (∀ (s : State) (g n : Nat) (x : Group), s.group? g = some x → x.cluster = some n → x.fault = none → x.kept = false →
    let still := x.keys.all s.capturable && !((s.cluster n).switches.any fun w => x.banks.contains w.bank)
    (still = false → exec (.evPreempt g) s = .next (s.updGroup g fun y => { y with preempting := true })) ∧
    (still = true → x.keys.Nodup → (∀ k ∈ x.keys, Spec.Quiet (s.ctx k) ∧ k < 4096) → s.engine = [] →
      ∃ t y v, exec (.evPreempt g) s = .next t ∧ t.group? g = some y ∧ y.cluster = none ∧ y.saved = some v ∧ v.cluster = n ∧
        y.latches = x.latches.map (fun _ => RendezvousLatch.clear) ∧
        (∀ k ∈ x.keys, (t.ctx k).phase = .free) ∧
        ∀ p k, x.keys[p]? = some k → Spec.sameImage (t.ctx (parkKey g p)) (s.ctx k))) ∧
  (∀ (s a : State) (die g cluster : Nat) (x : Group) (v : SavedGroup), s.nextPlacement die = some (.resume g cluster) →
    s.group? g = some x → x.saved = some v → s.assignAsid x.region = some a →
    (a.rebind g x.region (a.newKeys x cluster)).1 = none → cluster < 256 → x.decl.n ≤ 16 → s.heldOps = [] → v.commands = [] →
    ∃ t y, exec (.evResumption g die) s = .next t ∧ t.group? g = some y ∧ y.cluster = some cluster ∧ y.saved = none ∧
      ∀ p h, y.contexts[p]? = some h → Spec.sameImage (t.ctx (16 * cluster + h)) (s.ctx (parkKey g p))) ∧
  (∀ (s : State) (die command v i : Nat) (r : GroupRange), s.stealTarget die = some (command, v, i, r) → v ≠ die →
    let keep := (r.stop - r.next + 1) / 2
    ∃ t, exec (.evSteal die) s = .next t ∧ t = { s with dies := t.dies } ∧
      (t.die v).ranges = setPlace (s.die v).ranges i { r with stop := r.next + keep } ∧
      let before (x : GroupRange) : Bool := decide (x.command ≤ r.command)
      (t.die die).ranges =
        (s.die die).ranges.takeWhile before ++ { r with next := r.next + keep } :: (s.die die).ranges.dropWhile before) ∧
  (∀ (s : State) (i m : Nat), s.turnOver = some (i, m) →
    ∃ t, exec (.evTurnEnd m) s = .next t ∧ t.turnSince = s.clk ∧ t.mem = s.mem ∧ t.ctxs = s.ctxs ∧
      (s.turnPath.take i).isPrefixOf t.turnPath = true ∧
      ∀ r rest, i = 0 → s.turnPath = [] → (s.region 0).cursor = none → s.members 0 = r :: rest → r ≠ 0 →
        t.turnPath.head? = some r ∧ (t.region r).turnLen = 7 * s.quantumNs r) ∧
  (∀ (s : State) (n g : Nat) (x : Group), n < 256 → s.groupsOn n = [(g, x)] → s.group? g = some x →
    let failed := s.setReady (1 + n / 64) (n % 64) false
    ∃ t, exec (.evClusterFail n) s = .next t ∧ t.clusterReady n = false ∧
      (failed.replaceable g x = true → ∃ y, t.group? g = some y ∧ y.cluster = none ∧ y.saved.isSome = true) ∧
      (failed.replaceable g x = false → t.group? g = none)) ∧
  (∀ (s : State) (die : Nat), die < 8 →
    ∃ t, exec (.evDieLost die) s = .next t ∧ t.dieReady die = false ∧
      (∀ c, dieOf c = die → t.clusterReady c = false) ∧
      ((∀ e ∈ s.groups, e.2.cluster.map dieOf ≠ some die) → (∀ e ∈ s.engine, dieOf e.2.cluster ≠ die) →
        (s.die die).ranges = [] → s.partials = [] → ∀ l ∈ s.modified, lineDie l = die → t.poisoned.contains l = true) ∧
      ∀ d, ((List.range 7).map fun j => (die + j + 1) % 8).find? (fun d => s.dieReady d && d != die) = some d →
        (t.die die).ranges = [] ∧ (t.die d).ranges = (s.die d).ranges ++ (s.die die).ranges)

/-- Canopy runs its commands (R185, R202, R212 to R215, R222 to R224, R226 to R231): a command starts once it waits for no tile; its
start check may fail it; a command's unit has its effect, and the last one completes it and sets its member's flag: an mma-family block
gives every accumulator row its new elements, lsl loads its latch record, tzero clears its tile, a txp row becomes a column, a tcvt row
is converted, t2v loads its register, v2t stores its rows; a failing unit takes the command out of its queue. That CANOPY_FAULT poisons
the first line that a unit reads is the model's choice (log entry 62). -/
def Obligations.CanopyRuns : Prop :=
  ∀ (s : State) (cluster n : Nat) (c : EngineCmd), Spec.heads s n c (s.canopyHead cluster) →
    (∀ (s' : State) (m : Nat) (c' : EngineCmd) (x : EngineFault), mapGet? (s'.failCanopy m c' x).engine m = none) ∧
    (c.started = false → s.waitsTile n c = false → (c.uf = 0xD → c.rows.length = 16) →
      let after := c.latches.foldl (fun s sl => s.takeLatch c sl) s
      after.mem = s.mem ∧
      (c.joint = true → after.mmaReady c = false →
        exec (.evCanopyStart cluster) s = .next (after.failCanopy n c { cause := .accessFault, address := 0, ref := 0 })) ∧
      ((c.joint = true → after.mmaReady c = true) →
        ∃ t, exec (.evCanopyStart cluster) s = .next t ∧ t.mem = s.mem ∧ mapGet? t.engine n = some { c with started := true })) ∧
    (∀ (g : Nat) (x : Group), c.started = true → c.group = some g → s.group? g = some x →
      let r := s.canopyUnit x c
      let bad := (match s.firstRead x c with | some va => s.poisonAt c va | none => s).canopyUnit x c
      (∀ y, r.value = .error y → exec (.evCanopyComplete cluster 1) s = .next (r.state.failCanopy n r.cmd y)) ∧
      (∀ beats, r.value = .ok beats → c.position + 1 < r.cmd.units →
        ∃ t, exec (.evCanopyComplete cluster 1) s = .next t ∧ t.mem = r.state.mem ∧
          t.ctxs = (r.state.clusterEvent c.cluster 0x60 beats).ctxs ∧
          mapGet? t.engine n = some { r.cmd with position := c.position + 1 }) ∧
      (∀ y, bad.value = .error y → exec (.evCanopyFault cluster) s = .next (bad.state.failCanopy n bad.cmd y)) ∧
      (∀ beats, bad.value = .ok beats → exec (.evCanopyFault cluster) s = .next s) ∧
      (∀ p, c.copy = false → c.uf = 8 → c.operand.toNat % 32 = 0 →
        s.enginePlace c .load 32 c.operand.toNat = .ok p → s.enginePlace c .load 1 c.operand.toNat = .ok p →
        (s.poisonLine (lineOf p.key)).enginePlace c .load 32 c.operand.toNat = .ok p → s.partials = [] →
        ∃ (u : State) (c' : EngineCmd), exec (.evCanopyFault cluster) s =
            .next (u.failCanopy n c' { cause := .poison, address := c.operand.toNat, ref := c.operand.toNat }) ∧
          u.poisoned.contains (lineOf p.key) = true) ∧
      (∀ j, c.copy = false → 1 ≤ c.uf → c.uf ≤ 5 → x.cluster = some j → j < 256 →
        s.mmaReady c = true → tsValid (c.shape c.ta) = true → (∀ m ∈ c.members, x.tile m.td < 32 ∧ x.tile m.td ≠ x.tile c.ta) →
        (c.members.map fun m => x.tile m.td).Nodup → (c.members.map Member.index).Nodup →
        let rows := blockRows (tsRows (c.shape c.ta)) c.position
        (c.uf = 5 → ∀ m ∈ c.members, ∀ i ∈ rows,
          s.indexOf x m i = 0xFFFF ∨ s.indexOf x m i < tsRows ((m.ts[m.td]?).getD 0).toNat) →
        let q : EngineResult (List (Nat × List (Nat × Adapter))) :=
          if c.uf = 4 then s.gangAdapters x c rows c.members else { value := .ok [], cmd := c, state := s }
        ∀ ads, q.value = .ok ads →
          ∃ t, exec (.evCanopyComplete cluster 1) s = .next t ∧
            (∀ m ∈ c.members, ∀ i ∈ rows, let d := Spec.targetRow q.state x c m i
              (c.uf = 5 → d ≠ 0xFFFF) → (∀ i' ∈ rows, Spec.targetRow q.state x c m i' = d → i' = i) →
              ∀ col, col < 32 →
                let adapter := ((ads.find? fun a => a.1 = m.index).bind fun a => a.2.find? fun y => y.1 = i).map Prod.snd
                let element (s : State) : Nat :=
                  ofBytes (tabulate (fun o => BitVec.ofNat 8 (s.tileReader x m.td o)) 4 (128 * d + 4 * col))
                element t % 2 ^ 32 =
                  Spec.accumulated (q.state.tileReader x c.ta) q.cmd (q.state.latchRecord q.cmd m.sl) adapter (element q.state) i col
                    % 2 ^ 32) ∧
            (∀ m ∈ c.members, ∀ d, d < 256 → (∀ i ∈ rows, Spec.targetRow q.state x c m i ≠ d) →
              ∀ o, 128 * d ≤ o → o < 128 * d + 128 → t.tileReader x m.td o = q.state.tileReader x m.td o)) ∧
      (∀ bs rows scales, c.copy = false → c.uf = 8 → c.operand.toNat % 32 = 0 →
        let at' := c.operand.toNat
        let h := s.engineRead c at' 32 at' 32
        h.value = .ok bs → (c.latchDesc bs).isSome = true →
        let cls := fieldAt bs 0x0E 1 / 16 % 8
        let fmt := if cls = 0 then c.format (fieldAt bs 0x0E 1 % 16) else 0
        let k := fieldAt bs 0x0C 2
        let l := h.state.engineRows h.cmd at' (fieldAt bs 8 4) (4 * classWidth cls fmt) k (fieldAt bs 0 8)
        l.value = .ok rows →
        let z : EngineResult (List Byte) := if fieldAt bs 0x10 8 = 0 then { value := .ok (List.replicate k 127), cmd := l.cmd, state := l.state }
          else l.state.engineBytes l.cmd at' (linesOf k) (fieldAt bs 0x10 8) k
        z.value = .ok scales → c.sl < x.records.length → s.partials = [] →
        ∃ t y, exec (.evCanopyComplete cluster 1) s = .next t ∧ mapGet? t.engine n = none ∧ t.group? g = some y ∧
          y.records[c.sl]? = some
            { loaded := true, k := k, cls := cls, fmt := BitVec.ofNat 64 fmt, kof := 32 * fieldAt bs 0x18 2
              nof := 32 * fieldAt bs 0x1A 2, data := rows.flatten, scales := scales }) ∧
      (∀ m j, c.copy = false → c.uf = 9 → x.cluster = some j → j < 256 → x.tile c.td < 32 → c.members = [m] →
        parked (s.memberKey c m.pos) = false →
        ∃ t, exec (.evCanopyComplete cluster 1) s = .next t ∧ mapGet? t.engine n = none ∧
          (∀ o, o < 32768 → memGet t.mem (tileKey j (x.tile c.td) o) = 0) ∧
          (∀ a, (∀ o, o < 32768 → a ≠ tileKey j (x.tile c.td) o) → memGet t.mem a = memGet s.mem a) ∧
          Spec.told s t (s.memberKey c m.pos) m.flag) ∧
      (∀ j, c.copy = false → c.uf = 0xA → x.cluster = some j → j < 256 → x.tile c.td < 32 → x.tile c.td ≠ x.tile c.ta →
        let w := tileWidth (c.shape c.ta) (c.format (tsFsel (c.shape c.ta)))
        let stride := tsRowBytes (c.shape c.td)
        let i := c.position
        w = 8 ∨ w = 16 ∨ w = 32 → w * (i + 1) ≤ 8 * stride → (i + 1) * tsRowBytes (c.shape c.ta) ≤ 32768 → tsRowBytes (c.shape c.ta) * 8 / w * stride ≤ 32768 →
        ∃ t, exec (.evCanopyComplete cluster 1) s = .next t ∧
          ∀ e b, e < tsRowBytes (c.shape c.ta) * 8 / w → b < w / 8 →
            t.tileReader x c.td (e * stride + w / 8 * i + b) =
              s.tileReader x c.ta (i * tsRowBytes (c.shape c.ta) + w / 8 * e + b)) ∧
      (∀ j, c.copy = false → c.uf = 0xB → x.cluster = some j → j < 256 → x.tile c.td < 32 → x.tile c.td ≠ x.tile c.ta →
        let a := c.shape c.ta
        let d := c.shape c.td
        let fa := c.format (tsFsel a)
        let fd := c.format (tsFsel d)
        let i := c.position
        c.operand.toNat * tileWidth d fd ≤ 8 * tsRowBytes d → (i + 1) * tsRowBytes d ≤ 32768 → 0 < tileWidth d fd →
        c.operand.toNat * tileWidth a fa ≤ 8 * tsRowBytes a → (i + 1) * tsRowBytes a ≤ 32768 →
        (tsAcc a = true ∨ tsClass a ≤ 3) → (tsAcc d = true ∨ tsClass d ≤ 3) →
        ∃ t, exec (.evCanopyComplete cluster 1) s = .next t ∧
          ∀ e, e < c.operand.toNat →
            let x' := rowElem (s.tileReader x c.ta) (i * tsRowBytes a) (tileWidth a fa) e
            let value : FloatNum :=
              if tsAcc a then (if c.aux / 16 % 2 = 1 then numOfInt (signedOf 32 x') else floatDecode .binary32 x')
              else classDecode (tsClass a) fa x'
            rowElem (t.tileReader x c.td) (i * tsRowBytes d) (tileWidth d fd) e =
              Spec.codeOf (tsClass d) fd (tsAcc d) value % 2 ^ tileWidth d fd) ∧
      (∀ m, c.copy = false → c.uf = 0xC → c.members = [m] → (s.ctx (s.issuerOf c)).overrun = none → c.td < 16 →
        parked (s.memberKey c m.pos) = false → Spec.Uncontested (s.ctx (s.issuerOf c)) c.td →
        ∃ t, exec (.evCanopyComplete cluster 1) s = .next t ∧ mapGet? t.engine n = none ∧ t.mem = s.mem ∧
          (∀ row lane, row < 16 → lane < 64 →
            laneOf ((t.ctx (s.issuerOf c)).vrow c.td row) lane =
              BitVec.ofNat 32 (ofBytes (tabulate (fun i => BitVec.ofNat 8 (s.tileReader x c.ta i)) 4
                (c.operand.toNat + 256 * row + 4 * lane)))) ∧
          Spec.told s t (s.memberKey c m.pos) m.flag) ∧
      (∀ m j, c.copy = false → c.uf = 0xD → c.members = [m] → x.cluster = some j → j < 256 → x.tile c.td < 32 →
        c.operand.toNat ≤ 28672 → c.rows.length = 16 → parked (s.memberKey c m.pos) = false →
        ∃ t, exec (.evCanopyComplete cluster 1) s = .next t ∧ mapGet? t.engine n = none ∧
          (∀ row lane b, row < 16 → lane < 64 → b < 4 →
            t.tileReader x c.td (c.operand.toNat + 256 * row + 4 * lane + b) =
              (laneOf (c.rows.getD row Row.zero) lane).toNat / 2 ^ (8 * b) % 256) ∧
          (∀ o, o < 32768 → o < c.operand.toNat ∨ c.operand.toNat + 4096 ≤ o →
            t.tileReader x c.td o = s.tileReader x c.td o) ∧
          Spec.told s t (s.memberKey c m.pos) m.flag))

/-- Copies run, rendezvous end and current is sampled (R219, R220, R333, R334, R337, R341, R441): a copy reads its descriptor and
starts, moves its elements in order, each from where its digits at the source strides put it to where those at the destination
strides do, for tgath with the index in place of digit 1, and after the last sets its flag; a failing one leaves its queue; members of a
rendezvous that times out become READY to trap; a diverged latch clears once every member has trapped; a current sample is what GOVSTAT
shows. That COPY_FAULT poisons what the element reads is the model's choice (log entry 62), as are that the current comes with a sample
every 70 cycles, and shows in GOVSTAT and in the beats held alone (log entry 86). -/
def Obligations.EnginesAndRendezvousEnd : Prop :=
  (∀ (s : State) (cluster n : Nat) (c : EngineCmd), Spec.heads s n c (s.copyNext cluster) → s.rowsBefore c = false →
    let at' := c.operand.toNat
    let r := s.engineBytes c at' (linesOf 256) at' 256
    (∀ x, r.value = .error x → exec (.evCopyStart cluster) s = .next (r.state.failCopy n r.cmd x (2 ^ 51 - 1))) ∧
    (∀ bs, r.value = .ok bs →
      let d := if c.resumed = true ∧ c.position ≠ 2 ^ 51 - 1 then { readDesc bs with pos := c.position } else readDesc bs
      let c' := { r.cmd with desc := some d }
      (d.valid c' = false →
        exec (.evCopyStart cluster) s = .next (r.state.failCopy n c' { cause := .accessFault, address := at', ref := at' } d.pos)) ∧
      (d.valid c' = true → d.red = 0 →
        ∃ t, exec (.evCopyStart cluster) s = .next t ∧ t.mem = r.state.mem ∧
          mapGet? t.engine n = some { c' with started := true, position := d.pos, origin := d.pos }))) ∧
  (∀ (s : State) (cluster n : Nat) (c : EngineCmd) (d : CopyDesc), Spec.heads s n c (s.copyRuns cluster) → c.desc = some d →
    d.bit 16 = false →
    let r := s.copyElement c d
    (c.position < d.count * d.size → ∀ x, r.value = .error x →
      exec (.evCopyFault cluster true) s = .next (r.state.failCopy n r.cmd x c.position) ∧
      exec (.evCopyComplete cluster 1) s = .next (r.state.failCopy n r.cmd x c.position)) ∧
    (c.position < d.count * d.size → ∀ x,
      let bad := (s.poisonSource c d).copyElement c d
      bad.value = .error x → exec (.evCopyFault cluster false) s = .next (bad.state.failCopy n bad.cmd x c.position)) ∧
    (c.position + d.size < d.count * d.size → r.value = .ok () →
      ∃ t, exec (.evCopyComplete cluster 1) s = .next t ∧ t.mem = r.state.mem ∧
        mapGet? t.engine n = some { r.cmd with position := c.position + d.size }) ∧
    (∀ (g : Nat) (x : Group), c.position + d.size < d.count * d.size → c.group = some g → s.group? g = some x → d.red = 0 →
      s.partials = [] → (d.ssp = 2 ∨ d.dsp = 2 → x.cluster.isSome = true) →
      d.ext.length = 10 → d.sstr.length = 10 → d.dstr.length = 10 → d.nd ≤ 9 → (∀ y ∈ d.ext.take (d.nd + 1), y ≠ 0) →
      let ext := d.ext.take (d.nd + 1)
      let e := c.position / d.size
      let from' (steer : Option Int) : Option Nat := Spec.copyCell s x c .load d.ssp (if c.uf = 0x13 then some c.ta else none)
        (Spec.elementAddress d.src ext d.sstr steer e) d.size
      ∀ key, Spec.copyCell s x c .store d.dsp (if c.uf = 0x12 then some c.td else none)
          (Spec.elementAddress d.dst ext d.dstr none e) d.size = some key → Spec.Cell s key →
        (c.uf ≠ 0x11 → ∀ src, from' none = some src → Spec.Cell s src →
          ∃ t, exec (.evCopyComplete cluster 1) s = .next t ∧ Spec.elementMoved s t key d.size (s.wordAt src d.size)) ∧
        (c.uf = 0x11 → d.nd ≠ 0 → ∀ at',
          Spec.copyCell s x c .load (if d.bit 18 then 1 else 0) none ((d.idx + 4 * (e / ext.getD 0 1 % ext.getD 1 1)) % 2 ^ 64) 4 = some at' →
          Spec.Cell s at' →
          let word := s.wordAt at' 4
          (word = 0xFFFFFFFF → ∃ t, exec (.evCopyComplete cluster 1) s = .next t ∧ Spec.elementMoved s t key d.size 0) ∧
          (word ≠ 0xFFFFFFFF → ∀ src, from' (some (if d.bit 17 then (word : Int) else signedOf 32 word)) = some src → Spec.Cell s src →
            ∃ t, exec (.evCopyComplete cluster 1) s = .next t ∧ Spec.elementMoved s t key d.size (s.wordAt src d.size)))) ∧
    (d.count * d.size ≤ c.position → d.bit 13 = false → c.packet = false → c.refetch = false → parked (s.issuerOf c) = false →
      ∃ t, exec (.evCopyComplete cluster 1) s = .next t ∧ t.mem = s.mem ∧ mapGet? t.engine n = none ∧
        Spec.told s t (s.issuerOf c) c.flag)) ∧
  (∀ (s : State) (g l : Nat) (x : Group), s.group? g = some x → l < x.latches.length →
    let r := x.latch l
    (r.key.isSome = true → (s.clk - r.start) * 10 ≥ r.rvto.toNat * 7 → r.start ≤ s.clk →
      (r.members.map fun m => x.keys.getD m.pos 0).Nodup →
      ∃ t y, exec (.evRendezvousTimeout g l) s = .next t ∧ t.group? g = some y ∧ y.latch l = RendezvousLatch.clear ∧
        t.mem = s.mem ∧
        ∀ m ∈ r.members, let k := x.keys.getD m.pos 0
          (t.ctx k).rendezvousTrap = some (timeoutTrap (r.members.foldl (fun a m => a ||| 2 ^ m.index) 0) m.index) ∧
          (t.ctx k).meetPc = (s.ctx k).pc ∧
          (t.ctx k).block = none ∧ ((s.ctx k).phase = .blocked → (t.ctx k).phase = .ready)) ∧
    (∀ d, r.diverged = some d →
      (d.listed.all d.trapped.contains = true ∨ ((s.clk - d.since) * 10 ≥ r.rvto.toNat * 7 ∧ d.since ≤ s.clk)) →
      ∃ t y, exec (.evDivergedStateEnd g l) s = .next t ∧ t.ctxs = s.ctxs ∧ t.group? g = some y ∧
        y.latch l = RendezvousLatch.clear)) ∧
  (∀ (s : State) (current : Nat),
    (s.samples = false → exec (.evGovernorSample current) s = .next s) ∧
    (s.samples = true →
      ∃ t, exec (.evGovernorSample current) s = .next t ∧
        t = { s with govCurrent := t.govCurrent, govHolds := t.govHolds } ∧
        t.govCurrent = BitVec.ofNat 14 (min current (2 ^ 14 - 1)) ∧
        (current < 2000 → t.govHolds = false) ∧ (max 2000 s.govlim.toNat < current → t.govHolds = true)))

/-- The notify register and the states of a queue (R346, R352, R353, R398, R417, R454): a notify only raises WRSEEN and wakes an idle
queue; ENABLE and RESUME take the read index from memory, and a queue that a debugger holds is then BLOCKED; DISABLE releases the queue;
a blocked queue whose condition has held is PENDING again, and one whose time is over is in ERROR with subcode 7. -/
def Obligations.QueuesChangeState : Prop :=
  (∀ (s : State) (q : Nat) (w : W64), Spec.Controlled s q → w.getLsbD 63 = false →
    let seen := max (s.qcb q 0x20 8) w.toNat
    ∃ t, exec (.evNotify q w) s = .next t ∧ t.qcb q 0x20 8 = seen ∧
      (t.hold q).held = (s.hold q).held ∧ (t.hold q).owner = (s.hold q).owner ∧
      t.queueState q = (if s.queueState q = 1 ∧ (s.hold q).held < seen then 2 else s.queueState q) ∧
      (s.queueState q ≠ 1 → Spec.onlyField s t q 0x20 8) ∧ Spec.onlyField s t q 0 64) ∧
  (∀ (s : State) (q : Nat), q < 65536 →
    exec (.evNotify q 0x8000000000000001) s = exec (.evQueueResume q) s ∧
    exec (.evNotify q 0x8000000000000002) s = exec (.evQueueEnable q) s ∧
    exec (.evNotify q 0x8000000000000003) s = exec (.evQueueDisable q) s) ∧
  (∀ (s r : State) (q v : Nat), s.queueState q = 5 → s.readIndex q = (.ok v, r) → Spec.Controlled r q →
    (r.heldByDebugger q = true → r.traces = []) →
    ∃ t, exec (.evQueueResume q) s = .next t ∧ t.queueState q = (if r.heldByDebugger q then 4 else 2) ∧ Spec.onlyField r t q 9 1 ∧
      t.hold q =
        { r.hold q with held := v, owner := none, rank := none, served := 0, empty := 0, blocked := none, waitFrom := none }) ∧
  (∀ (s r : State) (q v : Nat), s.queueState q = 0 → s.queueRoom (s.queueRegion q) = true →
    (s.bumpQueues (s.queueRegion q) true).readIndex q = (.ok v, r) → Spec.Controlled r q →
    (r.heldByDebugger q = true → r.traces = []) →
    ∃ t, exec (.evQueueEnable q) s = .next t ∧
      t.queueState q = (if r.heldByDebugger q then 4 else if v < r.qcb q 0x20 8 then 2 else 1) ∧ Spec.onlyField r t q 9 1 ∧
      t.hold q =
        { r.hold q with held := v, owner := none, rank := none, served := 0, empty := 0, blocked := none, waitFrom := none }) ∧
  (∀ (s : State) (q : Nat), q < 65536 → s.queueState q ≠ 0 →
    let given (h : QueueHold) : QueueHold :=
      { h with owner := none, rank := none, served := 0, empty := 0, blocked := none, waitFrom := none }
    let released := (s.updHold q given).setQueueState q 0
    exec (.evQueueDisable q) s = .next (released.bumpQueues (s.queueRegion q) false) ∧
    (Spec.Controlled s q → released.queueState q = 0 ∧ Spec.onlyField s released q 9 1)) ∧
  (∀ (s : State) (q : Nat), Spec.Controlled s q → s.queueState q = 4 → s.stillBlocked q = false →
    ∃ t, exec (.evQueueUnblock q) s = .next t ∧ t.queueState q = 2 ∧ (t.hold q).held = (s.hold q).held ∧
      Spec.onlyField s t q 9 1) ∧
  (∀ (s : State) (q : Nat), s.waitOver q = true →
    ∃ t, exec (.evWaitTimeout q) s = .next t ∧ t = s.queueError q (s.hold q).held (s.hold q).held 7 (s.hold q).server ∧
      (t.hold q).owner = none ∧ (t.hold q).held = (s.hold q).held ∧ (t.hold q).waitFrom = none)

/-- Packets and commands (R22, R349 to R352, R354, R358, R360 to R362): the head packet of a queue that stands in a lane of an
Understory context is served there; one that its action consumes advances the read index, one that waits blocks its queue, one that
fails puts it in ERROR, and so does one whose consuming stores fail; a DISPATCH of a well-formed body is submitted, and the ready dies
share its groups; a CONTINUE launches; a WAIT or BARRIER-AND that does not pass waits; a completed command goes, and its signal word
falls by one. That the event serves the head in the lane that owns the queue, or in a free one, is the model's choice (log entry 67),
and so are the indices of a packet whose consuming stores fail (log entry 70) and that a WAIT which has passed stays passed (log entry
25). -/
def Obligations.PacketsAreServed : Prop :=
  (∀ (s owned read : State) (q k h w type cluster : Nat) (lts : W64) (i : Instr),
    Spec.packetEvent s q i = some (type, cluster) → headerType h = type → Spec.Arrives s owned q k h w lts read →
    let idx := (s.hold q).held
    let bs := toBytes 64 w
    let act := read.packetAct q idx h cluster bs lts (some k)
    let acquired := read.acquireStamp (headerAcq h) lts
    (∀ after done stored r, act = .done after done → (done.consume q).consumingStores q idx = (some stored, r) →
      exec i s = .next (stored.settleServed q) ∧ ((stored.settleServed q).hold q).held = (done.hold q).held + 1) ∧
    (∀ after done r, act = .done after done → (done.consume q).consumingStores q idx = (none, r) →
      exec i s = .next (r.queueError q idx (idx + 1) 6 (some k))) ∧
    (∀ b after waits, act = .wait b after waits → exec i s = .next ((waits.blockQueue q (some b)).settleQueue q)) ∧
    (∀ sub after failed, act = .fail sub after failed →
      exec i s = .next ((failed.queueError q idx idx sub (some k)).settleQueue q)) ∧
    (type = 2 → bodyValid 2 bs = true →
      act = .done lts (read.submit (dispatchSpec q idx (read.queueRegion q) bs [] acquired (some k)))) ∧
    (type = 2 → bodyValid 2 bs = false → act = .fail 5 lts read) ∧
    (type = 7 → bodyValid 7 bs = true → act = .done lts (read.launchCont bs acquired)) ∧
    (type = 8 → bodyValid 8 bs = true → headerSig h = 0 → act = .done acquired read) ∧
    (∀ vs v u, type = 5 ∨ type = 6 → read.testedWords q lts (testedIndices type bs) = (some vs, v, u) →
      bodyValid type bs = true →
      (passes type bs vs = true → headerSig h = 0 → act = .done (u.acquireStamp (headerAcq h) v) u) ∧
      (passes type bs vs = false → (u.hold q).passed = false →
        ∃ waits, act = .wait (u.blockOf q type bs) v waits ∧
          (waits.hold q).waitFrom = some ((u.hold q).waitFrom.getD u.clk)))) ∧
  (∀ (s : State) (x : LaunchSpec), s.readyDies ≠ [] → Spec.Submitted s (s.submit x) x ∧ (s.submit x).groups = s.groups) ∧
  (∀ (s : State) (n : Nat) (c : Command), mapGet? s.commands n = some c → s.commandDone n = true → s.traces = [] →
    (c.sigidx = 0 →
      ∃ t, exec (.evCommandComplete n) s = .next t ∧ t = { s with commands := t.commands } ∧ mapGet? t.commands n = none ∧
        ∀ j, j ≠ n → mapGet? t.commands j = mapGet? s.commands j) ∧
    (∀ p, c.sigidx ≠ 0 → s.deviceWalk c.region .update (s.signalAddr c.queue c.sigidx) = .ok p → Spec.Plain s p.key 8 →
      s.partials = [] →
      ∃ t, exec (.evCommandComplete n) s = .next t ∧ mapGet? t.commands n = none ∧
        t.wordAt p.key 8 = (s.wordAt p.key 8 + (2 ^ 64 - 1)) % 2 ^ 64 ∧
        ∀ a, Spec.realPlane (planeOf a) = true → a < p.key ∨ p.key + 8 ≤ a → t.byteAt a = s.byteAt a))

/-- The debug services of a region (R318, R373, R414 to R417, R419): a block at TRCBASE starts them and 0 stops them; HALT and RELEASE
act on a context of the region, a HALT of an overrunner at its barrier; a HALT that has to wait for its context ends once that has
stopped, and the commands written until then wait in order; DUMP and LOAD act on the image of a stopped one, STOPQ, GOQ and STEPQ on a
queue of the region, and each ends with its DBGDONE record; a due sample names every resident context; a write to FQCTL acts on the held
operation whose record it names, at once or, while its group is pre-empted, at resumption. That a HALT of a context which stands DONE,
HALTED or FREE ends at once, that LOAD keeps the wait record and takes the watches of the image, and that GOQ alone ends a hold are the
model's choice (log entry 71), and so is the record area of an image (log entry 40). -/
def Obligations.DebugServices : Prop :=
  (∀ (s : State) (r : Nat) (value : W64), s.debuggable r = true → value.toNat % 64 = 0 →
    (value = 0 → exec (.evTrcbaseWrite r value) s = .next { s with traces := mapErase s.traces r }) ∧
    (∀ bs read, value ≠ 0 → s.deviceLines (s.region r).dbgrgn 4 value = (some bs, read) → traceBlockValid bs = true →
      ∃ t svc, exec (.evTrcbaseWrite r value) s = .next t ∧ t = { read with traces := mapSet read.traces r svc } ∧
        svc.base = value ∧ svc.debugger = (s.region r).dbgrgn ∧ svc.ring.toNat = fieldAt bs 0 8 % 2 ^ 64 ∧
        svc.rlogn = fieldAt bs 8 1 ∧ svc.mode.toNat = fieldAt bs 9 1 % 2 ^ 8 ∧ svc.types.toNat = fieldAt bs 0x0A 2 % 2 ^ 16 ∧
        svc.sper = fieldAt bs 0x0C 4 ∧ svc.img.toNat = fieldAt bs 0x80 8 % 2 ^ 64 ∧ svc.logCount = 0 ∧ svc.done = [])) ∧
  (∀ (s : State) (r k : Nat) (w : W64), s.commandTaken r w = true → cmdAll w = false → s.target r (cmdCtx w) = some k →
    mapGet? s.debugWork r = none →
    let waiting (u : State) : State := { u with debugWork := mapSet s.debugWork r { halting := [k], waiting := [] } }
    ((s.ctx k).overrun.isSome = true →
      exec (.evDebugHalt r w) s = .next (waiting (s.updCtx k fun c => { c with haltReq := true }))) ∧
    ((s.ctx k).overrun = none → (s.ctx k).drain = .none →
      ((s.ctx k).phase = .running →
        exec (.evDebugHalt r w) s = .next (waiting (s.updCtx k fun c => { c with drain := .halt 1, haltReq := false }))) ∧
      ((s.ctx k).haltReq = false → (s.ctx k).phase = .done ∨ (s.ctx k).phase = .halted ∨ (s.ctx k).phase = .free →
        exec (.evDebugHalt r w) s = .next (s.debugDone r 1 0)) ∧
      ((s.ctx k).phase = .ready ∨ (s.ctx k).phase = .blocked → ∃ v : State, OnlyAt s v k (coreOf k) ∧
        (v.ctx k).phase = .halted ∧ (v.ctx k).pc = (s.ctx k).pc ∧ (v.ctx k).s = (s.ctx k).s ∧ (v.ctx k).fl = (s.ctx k).fl ∧
        (v.ctx k).v = (s.ctx k).v ∧ (v.ctx k).haltReq = false ∧
        exec (.evDebugHalt r w) s = .next ((v.traceCtx k 8 1 ((s.ctx k).pc.zeroExtend 64)).debugDone r 1 0))) ∧
    ((s.ctx k).phase = .halted → (∀ x ∈ s.engine, x.2.refetch = false) → (∀ h ∈ s.heldOps, h.cmd.refetch = false) →
      ∃ u : State, exec (.evDebugRelease r w) s = .next (u.debugDone r 2 0) ∧ OnlyAt s u k (coreOf k) ∧
        u.core (coreOf k) = s.core (coreOf k) ∧
        u.ctx k = { s.ctx k with
          phase := .ready, block := none, restored := some (s.ctx k).shadow
          readySince := (s.core (coreOf k)).lt, readyAt := s.clk }) ∧
    ((s.ctx k).phase ≠ .halted → exec (.evDebugRelease r w) s = .next (s.debugDone r 2 1))) ∧
  (∀ (s : State) (r : Nat) (d : DebugWork), mapGet? s.debugWork r = some d →
    (∀ cmd w i, (i, cmd) ∈ [(Instr.evDebugHalt r w, 1), (Instr.evDebugRelease r w, 2), (Instr.evDump r w, 3), (Instr.evLoad r w, 4),
        (Instr.evStopq r w, 5), (Instr.evGoq r w, 6), (Instr.evStepq r w, 7)] → s.commandTaken r w = true →
      exec i s = .next { s with debugWork := mapSet s.debugWork r { d with waiting := d.waiting ++ [(cmd, w)] } }) ∧
    (d.halting.any s.haltUnderWay = true → haltEnds r s = s) ∧
    (d.halting.any s.haltUnderWay = false → d.waiting = [] →
      haltEnds r s = ({ s with debugWork := mapErase s.debugWork r } : State).debugDone r 1 0)) ∧
  (∀ (s : State) (r k : Nat) (w : W64) (svc : TraceService), s.commandTaken r w = true → s.imageTarget r w = some k →
    mapGet? s.debugWork r = none → mapGet? s.traces r = some svc → (s.ctx k).accesses = [] →
    (∀ area v ok u, s.imageArea (s.ctx k) = (area, v) →
      v.deviceStoreLines svc.debugger 1536 svc.img (v.imageBytes k (v.ctx k).savedLatches area) = (ok, u) →
      exec (.evDump r w) s = .next (u.debugDone r 3 (if ok then 0 else 2))) ∧
    (∀ head rows u v, s.deviceLines svc.debugger imageLines svc.img = (some head, u) →
      u.deviceLines svc.debugger (latchLines head) (svc.img + 0x12000) = (some rows, v) →
      (imageValid head = false → exec (.evLoad r w) s = .next (v.debugDone r 4 3)) ∧
      (imageValid head = true → v.partials = [] → ∃ x : State, exec (.evLoad r w) s = .next (x.debugDone r 4 0) ∧
        x.ctx k = { (v.ctx k).edited (head ++ rows) with watches := (x.ctx k).watches } ∧
        (x.ctx k).watches.map (fun y => { y with hit := false }) = (v.areaRecords head).1.map (fun y => { y with hit := false }) ∧
        (∀ j, j ≠ k → x.ctx j = v.ctx j) ∧ x.mem = v.mem))) ∧
  (∀ (s : State) (r : Nat) (w : W64), s.commandTaken r w = true → s.queueRegion (cmdQueue w) = r → mapGet? s.debugWork r = none →
    let q := cmdQueue w
    let told := s.updHold q fun h => { h with stopped := true, steps := 0 }
    (s.queueState q = 0 ∨ s.queueState q = 5 → exec (.evStopq r w) s = .next (told.debugDone r 5 0)) ∧
    (s.queueState q ≠ 0 → s.queueState q ≠ 5 → ∃ u : State, exec (.evStopq r w) s = .next ((u.recordStopped q).debugDone r 5 0) ∧
      (u.hold q).stopped = true ∧ (u.hold q).steps = 0 ∧ (u.hold q).owner = none ∧ (u.hold q).held = (s.hold q).held ∧
      (Spec.Controlled s q → u.queueState q = 4 ∧ Spec.onlyField s u q 9 1)) ∧
    (∃ u : State, exec (.evGoq r w) s = .next (u.debugDone r 6 0) ∧ u = { s with queues := u.queues } ∧
      u.hold q = { s.hold q with stopped := false, steps := 0 } ∧ ∀ p, p ≠ q → u.hold p = s.hold p) ∧
    (∃ u : State, exec (.evStepq r w) s = .next (u.debugDone r 7 0) ∧ u = { s with queues := u.queues } ∧
      u.hold q = { s.hold q with steps := (s.hold q).steps + (if (s.hold q).stopped then 1 else 0) } ∧
      ∀ p, p ≠ q → u.hold p = s.hold p)) ∧
  (∀ (s : State) (r : Nat) (svc : TraceService), mapGet? s.traces r = some svc →
    (s.sampleDue r = false → exec (.evTraceSample r) s = .next s) ∧
    (s.sampleDue r = true →
      let begun : State := { s with traces := mapSet s.traces r { svc with lastSample := svc.lastSample + 700 * svc.sper } }
      exec (.evTraceSample r) s = .next (((begun.regionContexts r).filter fun k => decide (k < 4096)).foldl
        (fun u k => u.traceCtx k 9 (sampleCode (u.ctx k).phase) ((u.ctx k).pc.zeroExtend 64)) begun))) ∧
  (∀ (s : State) (r ref order : Nat) (i : Instr) (h : HeldOp),
    (i, order) ∈ [(Instr.evFaultResume r ref, 1), (Instr.evFaultCancel r ref, 2), (Instr.evFaultRelease r ref, 3)] →
    (s.heldOps.find? fun h => h.fqRegion = r && h.index % 2 ^ 32 = ref % 2 ^ 32 && h.order = 0) = some h →
    (s.heldAway h = true → exec i s =
      .next { s with heldOps := s.heldOps.map fun x => if x = h then { x with order := order } else x }) ∧
    (s.heldAway h = false → order = 1 → ∃ t, exec i s = .next t ∧ t.heldOps = s.heldOps.filter (fun x => x ≠ h) ∧
      t.mem = s.mem ∧ t.ctxs = s.ctxs ∧ mapGet? t.engine (s.numberFor h.cmd) =
        some { h.cmd with queued := h.cmd.packet || h.cmd.refetch || s.engineRoom h.cmd.core h.cmd.copy }) ∧
    (s.heldAway h = false → order ≠ 1 → h.cmd.copy = false →
      exec i s = .next (({ s with heldOps := s.heldOps.filter fun x => x ≠ h } : State).touchAsid h.region)) ∧
    (s.heldAway h = false → order ≠ 1 → h.cmd.copy = true →
      exec i s = .next ((({ s with heldOps := s.heldOps.filter fun x => x ≠ h } : State).touchAsid h.region).cancelCopy h.cmd)))

/-- Tables, driver registers and units (R12, R402, R407, R408, R413, R427, R433, R435, R436, R438, R439): TBLCMD commands wait in
order; each sets TBLSTAT once applied, a malformed one to code 2; an entry that fails leaves its table as it was; a residency slot and a
frame take what their entries say; driver registers read back what was written to them; the mailbox extends MR16 to MR31; the READY bit
of a unit that is present is set once it has passed its test, and cleared; a failover keeps measurements and IDE keys; a package reset
clears the package, draws the boot map of each die and counts the spares it uses, extends MR0 and boots. The model's choices here are
the places of the counters (log entry 32), that a base register ignores a value which is no multiple of 4,096 (log entry 75), READY_SET,
failover and what a package reset keeps (log entry 77), flash, ROM and keys (log entry 13), and what a cleared READY bit takes away
(log entry 108). -/
def Obligations.TablesAndRegisters : Prop :=
  (∀ (s : State) (w : W64), exec (.evTblcmd w) s = .next { s with tblQueue := s.tblQueue ++ [w] } ∧
    exec (.evRegisterWrite 0x140 w) s = exec (.evTblcmd w) s) ∧
  (∀ (s : State) (w : W64) (rest : List W64), s.tblQueue = w :: rest →
    let begun : State := { s with tblQueue := rest }
    (w.toNat / 2 ^ 48 ≠ 0 ∨ tableHolds (tblTable w) (tblFirst w + tblLength w) = false →
      exec .evTableUpdate s =
        .next { begun with tblCount := (s.tblCount + 1) % 2 ^ 32, tblError := 2, tblIndex := 0 }) ∧
    (∀ code index u, w.toNat / 2 ^ 48 = 0 → tableHolds (tblTable w) (tblFirst w + tblLength w) = true →
      begun.applyEntries (tblTable w) (tblLength w) (tblFirst w) = (code, index, u) →
      exec .evTableUpdate s =
        .next { u with tblCount := (u.tblCount + 1) % 2 ^ 32, tblError := code, tblIndex := index }) ∧
    (∀ i bs, tblTable w = 2 → tblFirst w = i → tblLength w = 1 → w.toNat / 2 ^ 48 = 0 → i < 4096 →
      let key := tierKey 0 (s.entryAddr 2 i)
      Spec.Plain s key 64 → s.uncorrectable (tierKey 0 (s.entryAddr 2 i + 63)) = false → s.bytesAt key 64 = bs →
      residencyRange bs = true → ((residencyOf bs []).valid && (residencyOf bs []).pinned) = false →
      exec .evTableUpdate s = .next { begun with
        residency := mapSet s.residency i (residencyOf bs []), tblCount := (s.tblCount + 1) % 2 ^ 32, tblError := 0, tblIndex := 0 }) ∧
    (∀ f o v, tblTable w = 4 → tblFirst w = f → tblLength w = 1 → w.toNat / 2 ^ 48 = 0 → f < 488282 →
      let key := tierKey 0 (s.entryAddr 4 f)
      Spec.Plain s key 4 → s.uncorrectable (tierKey 0 (s.entryAddr 4 f + 3)) = false → s.bytesAt key 4 = toBytes 4 v →
      v = 2 ^ 16 + o → o < 2 ^ 16 → s.frameOwner f = none → s.path o = [o] → (s.region o).hused < (s.eff 2 o).hbmf →
      ∃ t, exec .evTableUpdate s = .next t ∧ t.tblError = 0 ∧ t.tblCount = (s.tblCount + 1) % 2 ^ 32 ∧
        t.frameOwner f = some o ∧ (∀ g, g ≠ f → t.frameOwner g = s.frameOwner g) ∧
        (t.region o).hused = (s.region o).hused + 1 ∧ ∀ r, r ≠ o → t.region r = s.region r)) ∧
  (∀ (s : State) (i : Nat) (bs : List Byte),
    ((s.applyRegion i bs).1 ≠ 0 →
      (s.applyRegion i bs).2.regions = s.regions ∧ (s.applyRegion i bs).2.residency = s.residency) ∧
    ((s.applyResidency i bs).1 ≠ 0 → (s.applyResidency i bs).2.residency = s.residency) ∧
    ((s.applyPool i bs).1 ≠ 0 → (s.applyPool i bs).2 = s) ∧
    ((s.applyFrame i bs).1 ≠ 0 → (s.applyFrame i bs).2 = s)) ∧
  (∀ (s : State) (address : Nat) (v : W64), ∃ t, exec (.evRegisterWrite address v) s = .next t ∧
    (address < 0x400000 → Spec.driverOnly s t) ∧
    (address % 8 ≠ 0 → t = s) ∧
    (address = 8 → t.devid = if s.anyRoute then s.devid else v.truncate 22) ∧
    (∀ j, j < 5 → address = 0x100 + 8 * j →
      t.registerRead address = if s.anyQueue ∨ v.toNat % 4096 ≠ 0 then s.registerRead address else v) ∧
    (address = 0x300 → 2000 ≤ v.toNat → v.toNat ≤ 9000 → t.registerRead address = v) ∧
    (∀ j, j < 64 → address = 0x400 + 16 * j → t.registerRead address = v &&& 0x000F_FFFF_C000_0001) ∧
    (∀ j, j < 64 → address = 0x408 + 16 * j → t.registerRead address = v &&& 0x000F_FFFF_FFFF_FFFF) ∧
    (∀ j, j < 16 → address = 0x800 + 16 * j → t.registerRead address = v &&& 0x000F_FFFF_C000_0001) ∧
    (∀ j, j < 16 → address = 0x808 + 16 * j → t.registerRead address = v &&& 0x0000_00FF_FFFF_FFFF) ∧
    (∀ n, n < ctrCount → address = 0x10000 + 8 * n →
      t.registerRead address = if v = 0 ∧ (n < ctrSpare 0 ∨ ctrSpare 8 ≤ n) then 0 else s.registerRead address) ∧
    (∀ off, off < 0x200000 → off % 8 = 0 → address = 0x400000 + off → t = s.doorbell true none off v)) ∧
  (∀ (s : State) (offset : Nat) (bytes : List Byte), s.mailbox.length = 128 → offset % 8 = 0 → offset < 128 → bytes.length = 8 →
    let after := Spec.mailboxAfter s.mailbox offset bytes
    let i := (s.mailbox.getD 0x40 0).toNat
    (offset ≠ 0x48 ∨ bytes.headD 0 ≠ 1 → exec (.evMailboxExtend offset bytes) s = .next { s with mailbox := after }) ∧
    (offset = 0x48 → bytes.headD 0 = 1 → ∃ t, exec (.evMailboxExtend offset bytes) s = .next t ∧
      t = { s with mailbox := t.mailbox, mr := t.mr } ∧
      (∀ j, j ≠ 0x48 → t.mailbox.getD j 0 = after.getD j 0) ∧
      (16 ≤ i ∧ i ≤ 31 → t.mailbox.getD 0x48 0 = 0 ∧
        t.mr[i]? = some (shake256 64 ((s.mr[i]?.getD []) ++ s.mailbox.take 64)) ∧ ∀ j, j ≠ i → t.mr[j]? = s.mr[j]?) ∧
      (i < 16 ∨ 31 < i → t.mailbox.getD 0x48 0 = 2 ∧ t.mr = s.mr))) ∧
  (∀ (s : State) (word bit : Nat), readyUnit word bit = true →
    (s.unitPresent word bit = true → (s.tested[word]?.getD 0).getLsbD bit = false →
      s.bootStatus.toNat = 0 ∨ 3 < s.bootStatus.toNat ∨ (word = 0 ∧ bit = 56) →
      ∃ t, exec (.evReadySet word bit) s = .next t ∧
        (word ≠ 0 ∨ bit < 26 ∨ 34 ≤ bit → t = { s with ready := t.ready, tested := t.tested }) ∧
        (word = 0 → 26 ≤ bit → bit < 34 → s.rootUp.getLsbD (bit - 26) = true → Spec.Settled s →
          ∀ j e, mapGet? s.pool j = some e →
            Spec.atState t j e (if e.state = .faulted ∧ e.port = bit - 26 then .active else e.state)) ∧
        (t.tested[word]?.getD 0).getLsbD bit = true ∧
        ∀ v b, b < 64 → t.readyBit v b = (s.readyBit v b || (v = word && b = bit))) ∧
    (s.unitPresent word bit = false ∨ (s.tested[word]?.getD 0).getLsbD bit = true →
      exec (.evReadySet word bit) s = .next s)) ∧
  (∀ (s : State) (word bit : Nat),
    (word ≠ 0 ∨ bit < 8 ∨ 57 ≤ bit → exec (.evUnitFail word bit) s = .next s) ∧
    (word = 0 → 8 ≤ bit → bit < 57 →
      let lost := if bit = 8 then [8, 26, 27, 28, 29, 34, 35, 36, 37, 38, 39, 46, 47, 48, 49, 54, 56]
        else if bit = 9 then [9, 30, 31, 32, 33, 40, 41, 42, 43, 44, 45, 50, 51, 52, 53, 55] else [bit]
      ∃ t, exec (.evUnitFail word bit) s = .next t ∧
        (∀ v b, b < 64 → t.readyBit v b = (s.readyBit v b && !(v = 0 && lost.contains b))) ∧
        (Spec.Settled s → ∀ j e, mapGet? s.pool j = some e →
          Spec.atState t j e (if e.state = .active ∧ 26 + e.port ∈ lost ∧ e.port < 8 then .faulted else e.state)) ∧
        (∀ n, n < 8 → 46 + n ∈ lost → t.ctx (4096 + 2 * n) = Ctx.launch ∧ t.ctx (4096 + 2 * n + 1) = Ctx.launch) ∧
        t.securityDie = (if 54 + s.securityDie.toNat ∈ lost then ~~~s.securityDie else s.securityDie) ∧
        (10 ≤ bit ∧ bit < 26 ∨ 34 ≤ bit ∧ bit < 46 ∨ bit = 56 → t = { s with ready := t.ready }))) ∧
  (∀ (s : State), ∃ t, exec .evSecurityFailover s = .next t ∧
    t = { s with
      ready := t.ready, securityDie := ~~~s.securityDie, spdm := { State.reset.spdm with resynch := true }
      ideKeys := s.ideKeys.filter IdeKey.running } ∧
    ∀ v b, b < 64 → t.readyBit v b = (s.readyBit v b && !(v = 0 && b = 54 + s.securityDie.toNat))) ∧
  (∀ (s : State), ∃ t, exec .evPackageReset s = .next t ∧
    t.ctxs = [] ∧ t.cores = [] ∧ t.groups = [] ∧ t.regions = [] ∧ t.queues = [] ∧ t.commands = [] ∧ t.engine = [] ∧
    t.ready = Vector.replicate 5 0 ∧ t.devid = 0 ∧ t.bases = Vector.replicate 5 0 ∧ t.traces = [] ∧ t.ideKeys = [] ∧ t.spdm = State.reset.spdm ∧
    t.securityDie = 0 ∧ t.mailbox = List.replicate 128 0 ∧ t.routes = [] ∧ t.inbound = [] ∧
    t.tested = Vector.replicate 5 0 ∧
    (∀ d, d < 8 → ∃ h : BitVec 34, t.healthy[d]? = some h ∧ mapGet t.counters 0 (ctrSpare d) = sparesUsed h ∧ sparesUsed h ≤ 2) ∧
    (Memory.wf s.mem = true → ∀ a, planeOf a ≠ 40 → t.byteAt a = if outsideKey a then memGet s.mem a else 0) ∧
    t.mr[0]? = some (shake256 64 (List.replicate 64 0 ++ Config.romDigest)) ∧
    t.mr[1]? = some (match bootCopy 0 with
      | some i => shake256 64 (List.replicate 64 0 ++ shake256 64 (Config.flashStage i))
      | none => List.replicate 64 0) ∧
    (∀ j, 4 ≤ j → j < 32 → t.mr[j]? = some (List.replicate 64 0)) ∧
    t.bootStatus = (if (bootCopy 0).isNone then 1 else if (bootCopy 1).isNone then 2 else if (bootCopy 2).isNone then 3 else 0x80))

/-- Pool regions and links (R383, R385 to R388, R405, R406, R428, R429, R431, R432, R434): a root port link that goes down, or stays in
recovery, faults the ACTIVE regions behind it, its return brings them back, and a region that is reported lost is LOST; entries of
other ports keep their states; the host port and its HDM range; rails of a Ride port that are lost and return; what links absorb and
the ECC errors that units correct are counted; and flits, which are replayed, dropped and counted, or served at the inbound window. The
model's choices here are the free choice from the third lost rail, RIDE_RAIL_LOST for other failures, host accesses only with CXL and in
one line, refused flits counted as discarded writes of tier 3 (log entry 79), and the form and sequence of flits (log entry 109). -/
def Obligations.PoolAndLinks : Prop :=
  (∀ (s : State) (port : Nat), exec (.evLinkRecoveryTimeout port) s = exec (.evRootPortLinkDown port) s ∧
    (port < 8 → s.rootUp.getLsbD port = true → Spec.Settled s →
      ∃ t, exec (.evRootPortLinkDown port) s = .next t ∧ t.rootUp = s.rootUp &&& ~~~((1 : BitVec 8) <<< port) ∧
        ∀ j e, mapGet? s.pool j = some e →
          Spec.atState t j e (if e.state = .active ∧ e.port = port then .faulted else e.state)) ∧
    (port < 8 → s.rootUp.getLsbD port = false → s.readyBit 0 (26 + port) = true → Spec.Settled s →
      ∃ t, exec (.evLinkRetrain port) s = .next t ∧ t.rootUp = s.rootUp ||| ((1 : BitVec 8) <<< port) ∧
        ∀ j e, mapGet? s.pool j = some e →
          Spec.atState t j e (if e.state = .faulted ∧ e.port = port then .active else e.state)) ∧
    (8 ≤ port ∨ s.rootUp.getLsbD port = false → exec (.evRootPortLinkDown port) s = .next s) ∧
    (8 ≤ port ∨ s.rootUp.getLsbD port = true → exec (.evLinkRetrain port) s = .next s)) ∧
  (∀ (s : State) (j : Nat) (e : PoolEntry), mapGet? s.pool j = some e → Spec.Settled s →
    (e.state = .active ∨ e.state = .faulted → ∃ t, exec (.evPoolRegionLostReport j) s = .next t ∧ Spec.atState t j e .lost ∧
      ∀ i x, i ≠ j → mapGet? s.pool i = some x → Spec.atState t i x x.state) ∧
    (e.state = .unmapped ∨ e.state = .lost → exec (.evPoolRegionLostReport j) s = .next s)) ∧
  (∀ (s : State) (j : Nat) (e : PoolEntry), Spec.Plain s (tierKey 0 (s.poolAddr j)) 32 →
    let key := tierKey 0 (s.poolAddr j)
    let t := s.setPool j e
    mapGet? t.pool j = some { e with locked := s.lockedBytes e } ∧ t.byteAt (key + 4) = BitVec.ofNat 8 (poolCode e.state) ∧
      t.wordAt (key + 0x10) 8 = (if e.state = .faulted then 64 * (s.modifiedIn e).length else 0) % 2 ^ 64 ∧
      ∀ a, Spec.realPlane (planeOf a) = true → a ≠ key + 4 → a < key + 0x10 ∨ key + 0x18 ≤ a → t.byteAt a = s.byteAt a) ∧
  (∀ (s : State),
    (s.hostUp = true → ∃ t, exec .evHostLinkDown s = .next t ∧ t.hostUp = false ∧
      t = { s with hostUp := false, counters := t.counters }) ∧
    (s.hostUp = false → ∃ t, exec .evHostLinkRetrain s = .next t ∧ t.hostUp = true ∧
      t = { s with hostUp := true, cxlCache := t.cxlCache })) ∧
  (∀ (s : State) (address : Nat) (ide : Option Nat) (sub : Nat), s.hostLive = true → s.cxlCache = true → s.ideAccepts ide sub = true →
    let key := tierKey 0 address
    (∀ n, sub = 1 → address % 64 + n ≤ 64 → Spec.Plain s key n →
      ∃ t, exec (.evHostHdmAccess (.read address n ide)) s = .next t ∧ t.mem = s.mem ∧
        Spec.answered s t [.hostRead address (s.bytesAt key n)]) ∧
    (∀ bytes, sub = 0 → address % 64 + bytes.length ≤ 64 → Spec.Plain s key bytes.length →
      ∃ t, exec (.evHostHdmAccess (.write address bytes ide)) s = .next t ∧ t.bytesAt key bytes.length = bytes ∧
        Spec.answered s t [] ∧
        ∀ a, Spec.realPlane (planeOf a) = true → a < key ∨ key + bytes.length ≤ a → t.byteAt a = s.byteAt a)) ∧
  (∀ (s : State) (on : Bool), s.hostLive = true → ∃ t, exec (.evHostHdmAccess (.enable on)) s = .next t ∧
    t = { s with cxlCache := t.cxlCache } ∧ (on = false → t.cxlCache = false) ∧ (on = true → s.cxlCache = true → t.cxlCache = true)) ∧
  (∀ (s : State) (port : Nat), port < 28 →
    (∃ t, exec (.evRidePortReturn port) s = .next t ∧ t = { s with rails := t.rails } ∧ t.rails[port]? = some 0x1F ∧
      ∀ q, q ≠ port → t.rails[q]? = s.rails[q]?) ∧
    (∀ rail, rail < 5 → (s.rails[port]?.getD 0).getLsbD rail = true →
      let left := s.rails[port]?.getD 0 &&& ~~~((1 : BitVec 5) <<< rail)
      ∃ t, exec (.evRideRailLost port (.rail rail)) s = .next t ∧ t = { s with rails := t.rails, counters := t.counters } ∧
        (∀ q, q ≠ port → t.rails[q]? = s.rails[q]?) ∧
        (3 ≤ popCount 5 left.toNat → t.rails[port]? = some left) ∧
        (popCount 5 left.toNat < 3 → t.rails[port]? = some left ∨ t.rails[port]? = some 0) ∧
        (s.rails[port]? = some 0x1F → t.counters = (s.count (ctrRails port) 1).counters)) ∧
    ∀ n, exec (.evRideRailLost port (.flits n)) s = .next (s.count (ctrFlits port) n)) ∧
  (∀ (s : State) (n : Nat),
    (n < 9 → exec (.evRideRailLost n .replay) s = .next (s.count (ctrReplay n) 1)) ∧
    (n < 1568 → exec (.evRideRailLost n .corrected) s = .next (s.count n 1))) ∧
  (∀ (s : State) (f : RideFlit), f.port < 12 → s.rideLive f.port = true →
    let place := 16 * f.port + Spec.headerField f 47 44
    (f.check ≠ flitCheck f → exec (.evRideFlit f) s = .next (s.count (ctrFlits f.port) 1)) ∧
    (f.check = flitCheck f → Spec.headerField f 55 48 ≠ (mapGet s.rideSeen 0 place).toNat → exec (.evRideFlit f) s = .next s) ∧
    (f.check = flitCheck f → Spec.headerField f 55 48 = (mapGet s.rideSeen 0 place).toNat → Spec.headerField f 21 0 ≠ s.devid.toNat →
      exec (.evRideFlit f) s =
        .next ({ s with rideSeen := mapSet s.rideSeen place (mapGet s.rideSeen 0 place + 1) }.count (ctrDiscarded 3) 1))) ∧
  (∀ (s : State) (f : RideFlit), 12 ≤ f.port ∨ s.rideLive f.port = false → exec (.evRideFlit f) s = .next s) ∧
  (∀ (s : State) (f : RideFlit), Spec.Taken s f →
    let source := Spec.headerField f 43 22
    (∀ o n a, f.message = .load o n → s.inboundAddr source o = some a → a % 64 + n ≤ 64 → Spec.Plain s (tierKey 0 a) n →
      ∃ t, exec (.evRideFlit f) s = .next t ∧ t.mem = s.mem ∧ Spec.answeredRide s t f (.data o (s.bytesAt (tierKey 0 a) n))) ∧
    (∀ o bytes a, f.message = .store o bytes → s.inboundAddr source o = some a → a % 64 + bytes.length ≤ 64 →
      Spec.Plain s (tierKey 0 a) bytes.length →
      ∃ t, exec (.evRideFlit f) s = .next t ∧ Spec.answered s t [] ∧ t.bytesAt (tierKey 0 a) bytes.length = bytes ∧
        ∀ x, Spec.realPlane (planeOf x) = true → x < tierKey 0 a ∨ tierKey 0 a + bytes.length ≤ x → t.byteAt x = s.byteAt x) ∧
    (∀ op o n value second a, f.message = .atomic op o n value second → s.inboundAddr source o = some a → a % 64 + n ≤ 64 →
      Spec.Plain s (tierKey 0 a) n → n ≤ 8 →
      let key := tierKey 0 a
      ∃ t, exec (.evRideFlit f) s = .next t ∧ Spec.answeredRide s t f (.data o (s.bytesAt key n)) ∧
        t.bytesAt key n =
          toBytes n (atomicOp op.toNat n (s.wordAt key n) (value.toNat % 2 ^ (8 * n)) (second.toNat % 2 ^ (8 * n))) ∧
        ∀ x, Spec.realPlane (planeOf x) = true → x < key ∨ key + n ≤ x → t.byteAt x = s.byteAt x) ∧
    (∀ o n, f.message = .load o n → s.inboundAddr source o = none →
      ∃ t, exec (.evRideFlit f) s = .next t ∧ t.mem = s.mem ∧ Spec.answeredRide s t f (.refused o) ∧
        t.counters = (s.count (ctrDiscarded 3) 1).counters)) ∧
  (∀ (s : State) (addr n : Nat) (r : Nat × (W64 × W64)) (port : Nat), s.routeOf addr = some r → s.routePort r.2.2.toNat = some port →
    (apertureOf (tierKey 3 addr)).isNone = true → addr < 2 ^ 80 →
    ∃ f, Spec.Leaves s f port (bitsOf r.2.2.toNat 21 0) (.load (addr - bitsOf r.2.1.toNat 51 30 * 2 ^ 30) n) ∧
      ((s.askPeer (tierKey 3 addr) fun o => .load o n).outputs = s.outputs ++ [.ride f]))

/-- The SPDM responder (R424, R437, R438), in the messages of SPDM 1.3 and IDE_KM (the model's choice, log entry 78): each request of the
list is answered where the connection allows it, in a session under its keys, and gets ERROR UnexpectedRequest where it does not; any
other request gets ERROR UnsupportedRequest, and every one but GET_VERSION gets RequestResynch after a failover; measurement index j
reports MR(j − 1); FINISH completes a session only where the requester proves the handshake; and IDE_KM sets, uses and drops keys. -/
def Obligations.SpdmResponder : Prop :=
  ∀ (s : State) (req : SpdmRequest),
    (s.responds = true → ∃ t, exec (.evUnsupportedRequest req) s = .next t ∧ Spec.Errs s t req.session 0x07) ∧
    (s.responds = false → ∀ i ∈ [Instr.evGetVersion req, .evGetCapabilities req, .evNegotiateAlgorithms req, .evGetDigests req,
      .evGetCertificate req, .evChallenge req, .evGetMeasurements req, .evKeyExchange req, .evFinish req, .evEndSession req,
      .evIdeKm req, .evUnsupportedRequest req], exec i s = .next s) ∧
    (s.responds = true → s.spdm.resynch = true → ∀ i ∈ [Instr.evGetCapabilities req, .evNegotiateAlgorithms req, .evGetDigests req,
      .evGetCertificate req, .evChallenge req, .evGetMeasurements req, .evKeyExchange req, .evFinish req, .evEndSession req,
      .evIdeKm req], ∃ t, exec i s = .next t ∧ Spec.Errs s t req.session 0x43) ∧
    (s.responds = true → req.session = 0 → ∃ t, exec (.evGetVersion req) s = .next t ∧ Spec.Answers s t 0 0x04 0 0 [0, 1, 0, 0x13] ∧
      t.spdm.version = true ∧ t.spdm.capabilities = false ∧ t.spdm.algorithms = false ∧ t.spdm.sessions = [] ∧ t.spdm.resynch = false) ∧
    (Spec.Responsive s → req.session = 0 →
      (s.spdm.version = false ∨ s.spdm.capabilities = true →
        ∃ t, exec (.evGetCapabilities req) s = .next t ∧ Spec.Errs s t 0 0x04) ∧
      (s.spdm.version = true → s.spdm.capabilities = false → req.body.length = 16 →
        ∃ t, exec (.evGetCapabilities req) s = .next t ∧ t.spdm.capabilities = true ∧
          Spec.Answers s t 0 0x61 0 0 ([0, BitVec.ofNat 8 (Config.spdmNumber 0), 0, 0] ++ toBytes 4 0x2D6
            ++ toBytes 4 (Config.spdmNumber 1) ++ toBytes 4 (Config.spdmNumber 2))) ∧
      (s.spdm.capabilities = false ∨ s.spdm.algorithms = true →
        ∃ t, exec (.evNegotiateAlgorithms req) s = .next t ∧ Spec.Errs s t 0 0x04) ∧
      (s.spdm.capabilities = true → s.spdm.algorithms = false → 28 ≤ req.body.length → fieldAt req.body 0 2 = req.body.length + 4 →
        ∃ t body, exec (.evNegotiateAlgorithms req) s = .next t ∧ t.spdm.algorithms = true ∧
          Spec.Answers s t 0 0x63 req.param1 0 body ∧ fieldAt body 8 4 = fieldAt req.body 4 4 &&& 0x80 ∧
          fieldAt body 12 4 = fieldAt req.body 8 4 &&& 0x2) ∧
      (s.spdm.algorithms = false → ∀ i ∈ [Instr.evGetDigests req, .evGetCertificate req, .evChallenge req, .evGetMeasurements req,
        .evKeyExchange req], ∃ t, exec i s = .next t ∧ Spec.Errs s t 0 0x04) ∧
      (∀ i ∈ [Instr.evFinish req, .evEndSession req, .evIdeKm req], ∃ t, exec i s = .next t ∧ Spec.Errs s t 0 0x04) ∧
      (s.spdm.algorithms = true →
        (∃ t, exec (.evGetDigests req) s = .next t ∧ Spec.Answers s t 0 0x01 1 1 (sha384 certificateChain)) ∧
        (req.param1.toNat % 16 = 0 → req.param2.getLsbD 0 = false → req.body.length = 4 →
          let off := fieldAt req.body 0 2
          let part := (certificateChain.drop off).take (fieldAt req.body 2 2)
          off < certificateChain.length →
          ∃ t, exec (.evGetCertificate req) s = .next t ∧ Spec.Answers s t 0 0x02 0 0
            (toBytes 2 part.length ++ toBytes 2 (certificateChain.length - off - part.length) ++ part)) ∧
        (req.param1.toNat % 16 ≠ 0 → ∃ t, exec (.evGetCertificate req) s = .next t ∧ Spec.Errs s t 0 0x01) ∧
        (req.param1 = 0 → req.param2 = 0 → req.body.length = 40 → ∃ t nonce, exec (.evChallenge req) s = .next t ∧ nonce.length = 32 ∧
          let body := sha384 certificateChain ++ nonce ++ [0, 0] ++ req.body.drop 32
          Spec.Answers s t 0 0x03 0 1 (body ++ spdmSign "responder-challenge_auth signing"
            (s.spdm.negotiated ++ s.spdm.certified ++ spdmMessage 0x83 0 0 req.body ++ spdmMessage 0x03 0 1 body))) ∧
        (∀ j, req.param2.toNat = j → req.param1.getLsbD 0 = false → req.body.length = 8 →
          let block (j : Nat) : List Byte :=
            toBytes 1 j ++ [1] ++ toBytes 2 67 ++ [0x80] ++ toBytes 2 64 ++ s.mr[j - 1]?.getD []
          let reported (n : Nat) (blocks nonce : List Byte) : List Byte :=
            toBytes 1 n ++ toBytes 3 blocks.length ++ blocks ++ nonce ++ [0, 0] ++ req.body
          (j = 0 → ∃ t nonce, exec (.evGetMeasurements req) s = .next t ∧ nonce.length = 32 ∧
            Spec.Answers s t 0 0x60 32 0 (reported 0 [] nonce)) ∧
          (1 ≤ j → j ≤ 32 → ∃ t nonce, exec (.evGetMeasurements req) s = .next t ∧ nonce.length = 32 ∧
            Spec.Answers s t 0 0x60 0 0 (reported 1 (block j) nonce)) ∧
          (j = 255 → ∃ t nonce, exec (.evGetMeasurements req) s = .next t ∧ nonce.length = 32 ∧
            Spec.Answers s t 0 0x60 0 0 (reported 32 ((List.range 32).map fun i => block (i + 1)).flatten nonce)) ∧
          (32 < j → j < 255 → ∃ t, exec (.evGetMeasurements req) s = .next t ∧ Spec.Errs s t 0 0x01)) ∧
        (req.param1 = 0 → req.param2 = 0 → 134 ≤ req.body.length → ∃ t body x, exec (.evKeyExchange req) s = .next t ∧
          Spec.Answers s t 0 0x64 0 0 body ∧ x ∈ t.spdm.sessions ∧ x.finished = false ∧
          x.id % 2 ^ 16 = fieldAt req.body 0 2 ∧ x.id / 2 ^ 16 = fieldAt body 0 2 ∧ x.id ≠ 0))) ∧
    (Spec.Responsive s →
      (∀ x, Spec.InSession s req 0xE5 x → x.finished = false →
        let proof := spdmVerify x.requestSecret (x.transcript ++ spdmMessage 0xE5 req.param1 req.param2 [])
        (req.body = proof → ∃ t y, exec (.evFinish req) s = .next t ∧ Spec.Answers s t req.session 0x65 0 0 [] ∧
          t.spdm.session req.session = some y ∧ y.finished = true) ∧
        (req.body ≠ proof → ∃ t, exec (.evFinish req) s = .next t ∧ Spec.Answers s t req.session 0x7F 0x06 0 [] ∧
          t.spdm.session req.session = none)) ∧
      (∀ x, Spec.InSession s req 0xEC x → x.finished = true →
        ∃ t, exec (.evEndSession req) s = .next t ∧ Spec.Answers s t req.session 0x6C 0 0 [] ∧ t.spdm.session req.session = none) ∧
      (∀ x p, Spec.InSession s req 0xFE x → x.finished = true → req.body.take 5 = [3, 0, 2, 1, 0] → req.body.drop 7 = p →
        fieldAt p 0 1 = 0 →
        (fieldAt p 1 1 = 2 → s.keyStatus p = 0 → ∃ t answer, exec (.evIdeKm req) s = .next t ∧
          Spec.responderOnly s t ∧ Spec.sends s t req.session 0x7E 0 0 (vendorBody answer) ∧
          (∃ k ∈ t.ideKeys, k.named p = true ∧ k.key = p.drop 8 ∧ k.running = false) ∧
          ∀ k, k.named p = false → (k ∈ t.ideKeys ↔ k ∈ s.ideKeys)) ∧
        (fieldAt p 1 1 = 4 → ∃ t answer, exec (.evIdeKm req) s = .next t ∧
          Spec.responderOnly s t ∧ Spec.sends s t req.session 0x7E 0 0 (vendorBody answer) ∧
          t.ideKeys = s.ideKeys.map fun k => if k.named p then { k with running := true } else k) ∧
        (fieldAt p 1 1 = 5 → ∃ t answer, exec (.evIdeKm req) s = .next t ∧
          Spec.responderOnly s t ∧ Spec.sends s t req.session 0x7E 0 0 (vendorBody answer) ∧
          t.ideKeys = s.ideKeys.filter fun k => !k.named p)))
end

