-- ==== Sys2Proof/Laws/Encoding.lean ====
section
/-! SUPPORT. The slot fields of the control word (R39, R41): the fields and the unit function that a slot field was built from are
read from it again, and it fits its slot. -/

namespace Sys2Proof

/-- Bits of a word are x where the number they form is x. -/
theorem takeBits_eq {w lo n : Nat} {x : BitVec n} (h : w / 2 ^ lo % 2 ^ n = x.toNat) : takeBits w lo n = x :=
  BitVec.eq_of_toNat_eq (by simpa [takeBits] using h)

/-- A bit of a word is b where the number it forms is b. -/
theorem testBit_eq {w lo : Nat} {b : Bool} (h : w / 2 ^ lo % 2 = b.toNat) : w.testBit lo = b := by
  rw [Nat.testBit_eq_decide_div_mod_eq, h]
  cases b <;> rfl

theorem fieldS_bitsS (uf : Nat) (f : FieldS) : fieldS (bitsS uf f) = f := by
  obtain ⟨ws, dst, opa, opb, pf, pn, aux⟩ := f
  have := dst.isLt; have := opa.isLt; have := opb.isLt; have := pf.isLt; have := aux.isLt
  have := Bool.toNat_le ws; have := Bool.toNat_le pn
  simp only [fieldS, bitsS, FieldS.mk.injEq]
  refine ⟨?_, ?_, ?_, ?_, ?_, ?_, ?_⟩ <;> first | (apply takeBits_eq; omega) | (apply testBit_eq; omega)

theorem uf_bitsS (uf : Nat) (f : FieldS) : bitsS uf f / 2 ^ 32 = uf := by
  obtain ⟨ws, dst, opa, opb, pf, pn, aux⟩ := f
  have := dst.isLt; have := opa.isLt; have := opb.isLt; have := pf.isLt; have := aux.isLt
  have := Bool.toNat_le ws; have := Bool.toNat_le pn
  simp only [bitsS]
  omega

theorem bitsS_lt {uf : Nat} (f : FieldS) (h : uf < 256) : bitsS uf f < 2 ^ 40 := by
  have := uf_bitsS uf f
  omega

theorem fieldV_bitsV (uf : Nat) (f : FieldV) : fieldV (bitsV uf f) = f := by
  obtain ⟨ws, dst, opa, opb, opc, pf, pn, ks, rb, rn, et, aux⟩ := f
  have := dst.isLt; have := opa.isLt; have := opb.isLt; have := opc.isLt; have := pf.isLt; have := ks.isLt; have := rb.isLt; have := rn.isLt; have := et.isLt; have := aux.isLt
  have := Bool.toNat_le ws; have := Bool.toNat_le pn
  simp only [fieldV, bitsV, FieldV.mk.injEq]
  refine ⟨?_, ?_, ?_, ?_, ?_, ?_, ?_, ?_, ?_, ?_, ?_, ?_⟩ <;> first | (apply takeBits_eq; omega) | (apply testBit_eq; omega)

theorem uf_bitsV (uf : Nat) (f : FieldV) : bitsV uf f / 2 ^ 48 = uf := by
  obtain ⟨ws, dst, opa, opb, opc, pf, pn, ks, rb, rn, et, aux⟩ := f
  have := dst.isLt; have := opa.isLt; have := opb.isLt; have := opc.isLt; have := pf.isLt; have := ks.isLt; have := rb.isLt; have := rn.isLt; have := et.isLt; have := aux.isLt
  have := Bool.toNat_le ws; have := Bool.toNat_le pn
  simp only [bitsV]
  omega

theorem bitsV_lt {uf : Nat} (f : FieldV) (h : uf < 256) : bitsV uf f < 2 ^ 56 := by
  have := uf_bitsV uf f
  omega

theorem fieldF_bitsF (uf : Nat) (f : FieldF) : fieldF (bitsF uf f) = f := by
  obtain ⟨ws, dst, opa, opb, pf, pn, aux⟩ := f
  have := dst.isLt; have := opa.isLt; have := opb.isLt; have := pf.isLt; have := aux.isLt
  have := Bool.toNat_le ws; have := Bool.toNat_le pn
  simp only [fieldF, bitsF, FieldF.mk.injEq]
  refine ⟨?_, ?_, ?_, ?_, ?_, ?_, ?_⟩ <;> first | (apply takeBits_eq; omega) | (apply testBit_eq; omega)

theorem uf_bitsF (uf : Nat) (f : FieldF) : bitsF uf f / 2 ^ 32 = uf := by
  obtain ⟨ws, dst, opa, opb, pf, pn, aux⟩ := f
  have := dst.isLt; have := opa.isLt; have := opb.isLt; have := pf.isLt; have := aux.isLt
  have := Bool.toNat_le ws; have := Bool.toNat_le pn
  simp only [bitsF]
  omega

theorem bitsF_lt {uf : Nat} (f : FieldF) (h : uf < 256) : bitsF uf f < 2 ^ 40 := by
  have := uf_bitsF uf f
  omega

theorem fieldM_bitsM (uf : Nat) (f : FieldM) : fieldM (bitsM uf f) = f := by
  obtain ⟨ws, dst, opa, opb, pf, pn, sc, sz, ks, aux⟩ := f
  have := dst.isLt; have := opa.isLt; have := opb.isLt; have := pf.isLt; have := sc.isLt; have := sz.isLt; have := ks.isLt; have := aux.isLt
  have := Bool.toNat_le ws; have := Bool.toNat_le pn
  simp only [fieldM, bitsM, FieldM.mk.injEq]
  refine ⟨?_, ?_, ?_, ?_, ?_, ?_, ?_, ?_, ?_, ?_⟩ <;> first | (apply takeBits_eq; omega) | (apply testBit_eq; omega)

theorem uf_bitsM (uf : Nat) (f : FieldM) : bitsM uf f / 2 ^ 40 = uf := by
  obtain ⟨ws, dst, opa, opb, pf, pn, sc, sz, ks, aux⟩ := f
  have := dst.isLt; have := opa.isLt; have := opb.isLt; have := pf.isLt; have := sc.isLt; have := sz.isLt; have := ks.isLt; have := aux.isLt
  have := Bool.toNat_le ws; have := Bool.toNat_le pn
  simp only [bitsM]
  omega

theorem bitsM_lt {uf : Nat} (f : FieldM) (h : uf < 256) : bitsM uf f < 2 ^ 48 := by
  have := uf_bitsM uf f
  omega

theorem fieldC_bitsC (uf : Nat) (f : FieldC) : fieldC (bitsC uf f) = f := by
  obtain ⟨ws, dst, opa, pf, pn, aux⟩ := f
  have := dst.isLt; have := opa.isLt; have := pf.isLt; have := aux.isLt
  have := Bool.toNat_le ws; have := Bool.toNat_le pn
  simp only [fieldC, bitsC, FieldC.mk.injEq]
  refine ⟨?_, ?_, ?_, ?_, ?_, ?_⟩ <;> first | (apply takeBits_eq; omega) | (apply testBit_eq; omega)

theorem uf_bitsC (uf : Nat) (f : FieldC) : bitsC uf f / 2 ^ 32 = uf := by
  obtain ⟨ws, dst, opa, pf, pn, aux⟩ := f
  have := dst.isLt; have := opa.isLt; have := pf.isLt; have := aux.isLt
  have := Bool.toNat_le ws; have := Bool.toNat_le pn
  simp only [bitsC]
  omega

theorem bitsC_lt {uf : Nat} (f : FieldC) (h : uf < 256) : bitsC uf f < 2 ^ 40 := by
  have := uf_bitsC uf f
  omega

theorem fieldE_bitsE (uf : Nat) (f : FieldE) : fieldE (bitsE uf f) = f := by
  obtain ⟨beats, td, ta, sl, ops, pf, pn, aux⟩ := f
  have := beats.isLt; have := td.isLt; have := ta.isLt; have := sl.isLt; have := ops.isLt; have := pf.isLt; have := aux.isLt
  have := Bool.toNat_le pn
  simp only [fieldE, bitsE, FieldE.mk.injEq]
  refine ⟨?_, ?_, ?_, ?_, ?_, ?_, ?_, ?_⟩ <;> first | (apply takeBits_eq; omega) | (apply testBit_eq; omega)

theorem uf_bitsE (uf : Nat) (f : FieldE) : bitsE uf f / 2 ^ 48 = uf := by
  obtain ⟨beats, td, ta, sl, ops, pf, pn, aux⟩ := f
  have := beats.isLt; have := td.isLt; have := ta.isLt; have := sl.isLt; have := ops.isLt; have := pf.isLt; have := aux.isLt
  have := Bool.toNat_le pn
  simp only [bitsE]
  omega

theorem bitsE_lt {uf : Nat} (f : FieldE) (h : uf < 256) : bitsE uf f < 2 ^ 56 := by
  have := uf_bitsE uf f
  omega

end Sys2Proof
end

