-- ==== Sys2Proof/Laws/State.lean ====
section
/-! SUPPORT. What every update of a part of State leaves of the other fields: one lemma per field per update, true by rfl. -/

namespace Sys2Proof.Machine

@[simp] theorem State.setCtx_clk (s : State) (k : Nat) (c : Ctx) : (s.setCtx k c).clk = s.clk := rfl
@[simp] theorem State.setCtx_free (s : State) (k : Nat) (c : Ctx) : (s.setCtx k c).free = s.free := rfl
@[simp] theorem State.setCtx_turn (s : State) (k : Nat) (c : Ctx) : (s.setCtx k c).turn = s.turn := rfl
@[simp] theorem State.setCtx_inputs (s : State) (k : Nat) (c : Ctx) : (s.setCtx k c).inputs = s.inputs := rfl
@[simp] theorem State.setCtx_outputs (s : State) (k : Nat) (c : Ctx) : (s.setCtx k c).outputs = s.outputs := rfl
@[simp] theorem State.setCtx_cores (s : State) (k : Nat) (c : Ctx) : (s.setCtx k c).cores = s.cores := rfl
@[simp] theorem State.setCtx_clusters (s : State) (k : Nat) (c : Ctx) : (s.setCtx k c).clusters = s.clusters := rfl
@[simp] theorem State.setCtx_groups (s : State) (k : Nat) (c : Ctx) : (s.setCtx k c).groups = s.groups := rfl
@[simp] theorem State.setCtx_nextGroup (s : State) (k : Nat) (c : Ctx) : (s.setCtx k c).nextGroup = s.nextGroup := rfl
@[simp] theorem State.setCtx_dies (s : State) (k : Nat) (c : Ctx) : (s.setCtx k c).dies = s.dies := rfl
@[simp] theorem State.setCtx_mem (s : State) (k : Nat) (c : Ctx) : (s.setCtx k c).mem = s.mem := rfl
@[simp] theorem State.setCtx_poisoned (s : State) (k : Nat) (c : Ctx) : (s.setCtx k c).poisoned = s.poisoned := rfl
@[simp] theorem State.setCtx_stamps (s : State) (k : Nat) (c : Ctx) : (s.setCtx k c).stamps = s.stamps := rfl
@[simp] theorem State.setCtx_partials (s : State) (k : Nat) (c : Ctx) : (s.setCtx k c).partials = s.partials := rfl
@[simp] theorem State.setCtx_modified (s : State) (k : Nat) (c : Ctx) : (s.setCtx k c).modified = s.modified := rfl
@[simp] theorem State.setCtx_doorbells (s : State) (k : Nat) (c : Ctx) : (s.setCtx k c).doorbells = s.doorbells := rfl
@[simp] theorem State.setCtx_imageRecords (s : State) (k : Nat) (c : Ctx) : (s.setCtx k c).imageRecords = s.imageRecords := rfl
@[simp] theorem State.setCtx_commands (s : State) (k : Nat) (c : Ctx) : (s.setCtx k c).commands = s.commands := rfl
@[simp] theorem State.setCtx_nextCommand (s : State) (k : Nat) (c : Ctx) : (s.setCtx k c).nextCommand = s.nextCommand := rfl
@[simp] theorem State.setCtx_engine (s : State) (k : Nat) (c : Ctx) : (s.setCtx k c).engine = s.engine := rfl
@[simp] theorem State.setCtx_nextEngine (s : State) (k : Nat) (c : Ctx) : (s.setCtx k c).nextEngine = s.nextEngine := rfl
@[simp] theorem State.setCtx_queues (s : State) (k : Nat) (c : Ctx) : (s.setCtx k c).queues = s.queues := rfl
@[simp] theorem State.setCtx_heldOps (s : State) (k : Nat) (c : Ctx) : (s.setCtx k c).heldOps = s.heldOps := rfl
@[simp] theorem State.setCtx_regions (s : State) (k : Nat) (c : Ctx) : (s.setCtx k c).regions = s.regions := rfl
@[simp] theorem State.setCtx_residency (s : State) (k : Nat) (c : Ctx) : (s.setCtx k c).residency = s.residency := rfl
@[simp] theorem State.setCtx_frames (s : State) (k : Nat) (c : Ctx) : (s.setCtx k c).frames = s.frames := rfl
@[simp] theorem State.setCtx_pool (s : State) (k : Nat) (c : Ctx) : (s.setCtx k c).pool = s.pool := rfl
@[simp] theorem State.setCtx_asids (s : State) (k : Nat) (c : Ctx) : (s.setCtx k c).asids = s.asids := rfl
@[simp] theorem State.setCtx_turnPath (s : State) (k : Nat) (c : Ctx) : (s.setCtx k c).turnPath = s.turnPath := rfl
@[simp] theorem State.setCtx_turnSince (s : State) (k : Nat) (c : Ctx) : (s.setCtx k c).turnSince = s.turnSince := rfl
@[simp] theorem State.setCtx_bases (s : State) (k : Nat) (c : Ctx) : (s.setCtx k c).bases = s.bases := rfl
@[simp] theorem State.setCtx_tblQueue (s : State) (k : Nat) (c : Ctx) : (s.setCtx k c).tblQueue = s.tblQueue := rfl
@[simp] theorem State.setCtx_tblCount (s : State) (k : Nat) (c : Ctx) : (s.setCtx k c).tblCount = s.tblCount := rfl
@[simp] theorem State.setCtx_tblError (s : State) (k : Nat) (c : Ctx) : (s.setCtx k c).tblError = s.tblError := rfl
@[simp] theorem State.setCtx_tblIndex (s : State) (k : Nat) (c : Ctx) : (s.setCtx k c).tblIndex = s.tblIndex := rfl
@[simp] theorem State.setCtx_ready (s : State) (k : Nat) (c : Ctx) : (s.setCtx k c).ready = s.ready := rfl
@[simp] theorem State.setCtx_counters (s : State) (k : Nat) (c : Ctx) : (s.setCtx k c).counters = s.counters := rfl
@[simp] theorem State.setCtx_traces (s : State) (k : Nat) (c : Ctx) : (s.setCtx k c).traces = s.traces := rfl
@[simp] theorem State.setCtx_bootStatus (s : State) (k : Nat) (c : Ctx) : (s.setCtx k c).bootStatus = s.bootStatus := rfl
@[simp] theorem State.setCtx_devid (s : State) (k : Nat) (c : Ctx) : (s.setCtx k c).devid = s.devid := rfl
@[simp] theorem State.setCtx_govlim (s : State) (k : Nat) (c : Ctx) : (s.setCtx k c).govlim = s.govlim := rfl
@[simp] theorem State.setCtx_govCurrent (s : State) (k : Nat) (c : Ctx) : (s.setCtx k c).govCurrent = s.govCurrent := rfl
@[simp] theorem State.setCtx_govHeld (s : State) (k : Nat) (c : Ctx) : (s.setCtx k c).govHeld = s.govHeld := rfl
@[simp] theorem State.setCtx_routes (s : State) (k : Nat) (c : Ctx) : (s.setCtx k c).routes = s.routes := rfl
@[simp] theorem State.setCtx_inbound (s : State) (k : Nat) (c : Ctx) : (s.setCtx k c).inbound = s.inbound := rfl
@[simp] theorem State.setCtx_rails (s : State) (k : Nat) (c : Ctx) : (s.setCtx k c).rails = s.rails := rfl
@[simp] theorem State.setCtx_rootUp (s : State) (k : Nat) (c : Ctx) : (s.setCtx k c).rootUp = s.rootUp := rfl
@[simp] theorem State.setCtx_hostUp (s : State) (k : Nat) (c : Ctx) : (s.setCtx k c).hostUp = s.hostUp := rfl
@[simp] theorem State.setCtx_cxlCache (s : State) (k : Nat) (c : Ctx) : (s.setCtx k c).cxlCache = s.cxlCache := rfl
@[simp] theorem State.setCtx_tested (s : State) (k : Nat) (c : Ctx) : (s.setCtx k c).tested = s.tested := rfl
@[simp] theorem State.setCtx_healthy (s : State) (k : Nat) (c : Ctx) : (s.setCtx k c).healthy = s.healthy := rfl
@[simp] theorem State.setCtx_rounds (s : State) (k : Nat) (c : Ctx) : (s.setCtx k c).rounds = s.rounds := rfl
@[simp] theorem State.setCtx_mailbox (s : State) (k : Nat) (c : Ctx) : (s.setCtx k c).mailbox = s.mailbox := rfl
@[simp] theorem State.setCtx_mr (s : State) (k : Nat) (c : Ctx) : (s.setCtx k c).mr = s.mr := rfl
@[simp] theorem State.setCtx_securityDie (s : State) (k : Nat) (c : Ctx) : (s.setCtx k c).securityDie = s.securityDie := rfl
@[simp] theorem State.setCtx_spdm (s : State) (k : Nat) (c : Ctx) : (s.setCtx k c).spdm = s.spdm := rfl
@[simp] theorem State.setCtx_ideKeys (s : State) (k : Nat) (c : Ctx) : (s.setCtx k c).ideKeys = s.ideKeys := rfl
@[simp] theorem State.setCtx_debugWork (s : State) (k : Nat) (c : Ctx) : (s.setCtx k c).debugWork = s.debugWork := rfl
@[simp] theorem State.setCtx_govHolds (s : State) (k : Nat) (c : Ctx) : (s.setCtx k c).govHolds = s.govHolds := rfl
@[simp] theorem State.setCtx_govMicro (s : State) (k : Nat) (c : Ctx) : (s.setCtx k c).govMicro = s.govMicro := rfl
@[simp] theorem State.setCtx_rideSent (s : State) (k : Nat) (c : Ctx) : (s.setCtx k c).rideSent = s.rideSent := rfl
@[simp] theorem State.setCtx_rideSeen (s : State) (k : Nat) (c : Ctx) : (s.setCtx k c).rideSeen = s.rideSeen := rfl
@[simp] theorem State.setCtx_rideRefused (s : State) (k : Nat) (c : Ctx) : (s.setCtx k c).rideRefused = s.rideRefused := rfl

@[simp] theorem State.updCtx_clk (s : State) (k : Nat) (f : Ctx → Ctx) : (s.updCtx k f).clk = s.clk := rfl
@[simp] theorem State.updCtx_free (s : State) (k : Nat) (f : Ctx → Ctx) : (s.updCtx k f).free = s.free := rfl
@[simp] theorem State.updCtx_turn (s : State) (k : Nat) (f : Ctx → Ctx) : (s.updCtx k f).turn = s.turn := rfl
@[simp] theorem State.updCtx_inputs (s : State) (k : Nat) (f : Ctx → Ctx) : (s.updCtx k f).inputs = s.inputs := rfl
@[simp] theorem State.updCtx_outputs (s : State) (k : Nat) (f : Ctx → Ctx) : (s.updCtx k f).outputs = s.outputs := rfl
@[simp] theorem State.updCtx_cores (s : State) (k : Nat) (f : Ctx → Ctx) : (s.updCtx k f).cores = s.cores := rfl
@[simp] theorem State.updCtx_clusters (s : State) (k : Nat) (f : Ctx → Ctx) : (s.updCtx k f).clusters = s.clusters := rfl
@[simp] theorem State.updCtx_groups (s : State) (k : Nat) (f : Ctx → Ctx) : (s.updCtx k f).groups = s.groups := rfl
@[simp] theorem State.updCtx_nextGroup (s : State) (k : Nat) (f : Ctx → Ctx) : (s.updCtx k f).nextGroup = s.nextGroup := rfl
@[simp] theorem State.updCtx_dies (s : State) (k : Nat) (f : Ctx → Ctx) : (s.updCtx k f).dies = s.dies := rfl
@[simp] theorem State.updCtx_mem (s : State) (k : Nat) (f : Ctx → Ctx) : (s.updCtx k f).mem = s.mem := rfl
@[simp] theorem State.updCtx_poisoned (s : State) (k : Nat) (f : Ctx → Ctx) : (s.updCtx k f).poisoned = s.poisoned := rfl
@[simp] theorem State.updCtx_stamps (s : State) (k : Nat) (f : Ctx → Ctx) : (s.updCtx k f).stamps = s.stamps := rfl
@[simp] theorem State.updCtx_partials (s : State) (k : Nat) (f : Ctx → Ctx) : (s.updCtx k f).partials = s.partials := rfl
@[simp] theorem State.updCtx_modified (s : State) (k : Nat) (f : Ctx → Ctx) : (s.updCtx k f).modified = s.modified := rfl
@[simp] theorem State.updCtx_doorbells (s : State) (k : Nat) (f : Ctx → Ctx) : (s.updCtx k f).doorbells = s.doorbells := rfl
@[simp] theorem State.updCtx_imageRecords (s : State) (k : Nat) (f : Ctx → Ctx) : (s.updCtx k f).imageRecords = s.imageRecords := rfl
@[simp] theorem State.updCtx_commands (s : State) (k : Nat) (f : Ctx → Ctx) : (s.updCtx k f).commands = s.commands := rfl
@[simp] theorem State.updCtx_nextCommand (s : State) (k : Nat) (f : Ctx → Ctx) : (s.updCtx k f).nextCommand = s.nextCommand := rfl
@[simp] theorem State.updCtx_engine (s : State) (k : Nat) (f : Ctx → Ctx) : (s.updCtx k f).engine = s.engine := rfl
@[simp] theorem State.updCtx_nextEngine (s : State) (k : Nat) (f : Ctx → Ctx) : (s.updCtx k f).nextEngine = s.nextEngine := rfl
@[simp] theorem State.updCtx_queues (s : State) (k : Nat) (f : Ctx → Ctx) : (s.updCtx k f).queues = s.queues := rfl
@[simp] theorem State.updCtx_heldOps (s : State) (k : Nat) (f : Ctx → Ctx) : (s.updCtx k f).heldOps = s.heldOps := rfl
@[simp] theorem State.updCtx_regions (s : State) (k : Nat) (f : Ctx → Ctx) : (s.updCtx k f).regions = s.regions := rfl
@[simp] theorem State.updCtx_residency (s : State) (k : Nat) (f : Ctx → Ctx) : (s.updCtx k f).residency = s.residency := rfl
@[simp] theorem State.updCtx_frames (s : State) (k : Nat) (f : Ctx → Ctx) : (s.updCtx k f).frames = s.frames := rfl
@[simp] theorem State.updCtx_pool (s : State) (k : Nat) (f : Ctx → Ctx) : (s.updCtx k f).pool = s.pool := rfl
@[simp] theorem State.updCtx_asids (s : State) (k : Nat) (f : Ctx → Ctx) : (s.updCtx k f).asids = s.asids := rfl
@[simp] theorem State.updCtx_turnPath (s : State) (k : Nat) (f : Ctx → Ctx) : (s.updCtx k f).turnPath = s.turnPath := rfl
@[simp] theorem State.updCtx_turnSince (s : State) (k : Nat) (f : Ctx → Ctx) : (s.updCtx k f).turnSince = s.turnSince := rfl
@[simp] theorem State.updCtx_bases (s : State) (k : Nat) (f : Ctx → Ctx) : (s.updCtx k f).bases = s.bases := rfl
@[simp] theorem State.updCtx_tblQueue (s : State) (k : Nat) (f : Ctx → Ctx) : (s.updCtx k f).tblQueue = s.tblQueue := rfl
@[simp] theorem State.updCtx_tblCount (s : State) (k : Nat) (f : Ctx → Ctx) : (s.updCtx k f).tblCount = s.tblCount := rfl
@[simp] theorem State.updCtx_tblError (s : State) (k : Nat) (f : Ctx → Ctx) : (s.updCtx k f).tblError = s.tblError := rfl
@[simp] theorem State.updCtx_tblIndex (s : State) (k : Nat) (f : Ctx → Ctx) : (s.updCtx k f).tblIndex = s.tblIndex := rfl
@[simp] theorem State.updCtx_ready (s : State) (k : Nat) (f : Ctx → Ctx) : (s.updCtx k f).ready = s.ready := rfl
@[simp] theorem State.updCtx_counters (s : State) (k : Nat) (f : Ctx → Ctx) : (s.updCtx k f).counters = s.counters := rfl
@[simp] theorem State.updCtx_traces (s : State) (k : Nat) (f : Ctx → Ctx) : (s.updCtx k f).traces = s.traces := rfl
@[simp] theorem State.updCtx_bootStatus (s : State) (k : Nat) (f : Ctx → Ctx) : (s.updCtx k f).bootStatus = s.bootStatus := rfl
@[simp] theorem State.updCtx_devid (s : State) (k : Nat) (f : Ctx → Ctx) : (s.updCtx k f).devid = s.devid := rfl
@[simp] theorem State.updCtx_govlim (s : State) (k : Nat) (f : Ctx → Ctx) : (s.updCtx k f).govlim = s.govlim := rfl
@[simp] theorem State.updCtx_govCurrent (s : State) (k : Nat) (f : Ctx → Ctx) : (s.updCtx k f).govCurrent = s.govCurrent := rfl
@[simp] theorem State.updCtx_govHeld (s : State) (k : Nat) (f : Ctx → Ctx) : (s.updCtx k f).govHeld = s.govHeld := rfl
@[simp] theorem State.updCtx_routes (s : State) (k : Nat) (f : Ctx → Ctx) : (s.updCtx k f).routes = s.routes := rfl
@[simp] theorem State.updCtx_inbound (s : State) (k : Nat) (f : Ctx → Ctx) : (s.updCtx k f).inbound = s.inbound := rfl
@[simp] theorem State.updCtx_rails (s : State) (k : Nat) (f : Ctx → Ctx) : (s.updCtx k f).rails = s.rails := rfl
@[simp] theorem State.updCtx_rootUp (s : State) (k : Nat) (f : Ctx → Ctx) : (s.updCtx k f).rootUp = s.rootUp := rfl
@[simp] theorem State.updCtx_hostUp (s : State) (k : Nat) (f : Ctx → Ctx) : (s.updCtx k f).hostUp = s.hostUp := rfl
@[simp] theorem State.updCtx_cxlCache (s : State) (k : Nat) (f : Ctx → Ctx) : (s.updCtx k f).cxlCache = s.cxlCache := rfl
@[simp] theorem State.updCtx_tested (s : State) (k : Nat) (f : Ctx → Ctx) : (s.updCtx k f).tested = s.tested := rfl
@[simp] theorem State.updCtx_healthy (s : State) (k : Nat) (f : Ctx → Ctx) : (s.updCtx k f).healthy = s.healthy := rfl
@[simp] theorem State.updCtx_rounds (s : State) (k : Nat) (f : Ctx → Ctx) : (s.updCtx k f).rounds = s.rounds := rfl
@[simp] theorem State.updCtx_mailbox (s : State) (k : Nat) (f : Ctx → Ctx) : (s.updCtx k f).mailbox = s.mailbox := rfl
@[simp] theorem State.updCtx_mr (s : State) (k : Nat) (f : Ctx → Ctx) : (s.updCtx k f).mr = s.mr := rfl
@[simp] theorem State.updCtx_securityDie (s : State) (k : Nat) (f : Ctx → Ctx) : (s.updCtx k f).securityDie = s.securityDie := rfl
@[simp] theorem State.updCtx_spdm (s : State) (k : Nat) (f : Ctx → Ctx) : (s.updCtx k f).spdm = s.spdm := rfl
@[simp] theorem State.updCtx_ideKeys (s : State) (k : Nat) (f : Ctx → Ctx) : (s.updCtx k f).ideKeys = s.ideKeys := rfl
@[simp] theorem State.updCtx_debugWork (s : State) (k : Nat) (f : Ctx → Ctx) : (s.updCtx k f).debugWork = s.debugWork := rfl
@[simp] theorem State.updCtx_govHolds (s : State) (k : Nat) (f : Ctx → Ctx) : (s.updCtx k f).govHolds = s.govHolds := rfl
@[simp] theorem State.updCtx_govMicro (s : State) (k : Nat) (f : Ctx → Ctx) : (s.updCtx k f).govMicro = s.govMicro := rfl
@[simp] theorem State.updCtx_rideSent (s : State) (k : Nat) (f : Ctx → Ctx) : (s.updCtx k f).rideSent = s.rideSent := rfl
@[simp] theorem State.updCtx_rideSeen (s : State) (k : Nat) (f : Ctx → Ctx) : (s.updCtx k f).rideSeen = s.rideSeen := rfl
@[simp] theorem State.updCtx_rideRefused (s : State) (k : Nat) (f : Ctx → Ctx) : (s.updCtx k f).rideRefused = s.rideRefused := rfl

@[simp] theorem State.setCore_clk (s : State) (n : Nat) (c : Core) : (s.setCore n c).clk = s.clk := rfl
@[simp] theorem State.setCore_free (s : State) (n : Nat) (c : Core) : (s.setCore n c).free = s.free := rfl
@[simp] theorem State.setCore_turn (s : State) (n : Nat) (c : Core) : (s.setCore n c).turn = s.turn := rfl
@[simp] theorem State.setCore_inputs (s : State) (n : Nat) (c : Core) : (s.setCore n c).inputs = s.inputs := rfl
@[simp] theorem State.setCore_outputs (s : State) (n : Nat) (c : Core) : (s.setCore n c).outputs = s.outputs := rfl
@[simp] theorem State.setCore_ctxs (s : State) (n : Nat) (c : Core) : (s.setCore n c).ctxs = s.ctxs := rfl
@[simp] theorem State.setCore_clusters (s : State) (n : Nat) (c : Core) : (s.setCore n c).clusters = s.clusters := rfl
@[simp] theorem State.setCore_groups (s : State) (n : Nat) (c : Core) : (s.setCore n c).groups = s.groups := rfl
@[simp] theorem State.setCore_nextGroup (s : State) (n : Nat) (c : Core) : (s.setCore n c).nextGroup = s.nextGroup := rfl
@[simp] theorem State.setCore_dies (s : State) (n : Nat) (c : Core) : (s.setCore n c).dies = s.dies := rfl
@[simp] theorem State.setCore_mem (s : State) (n : Nat) (c : Core) : (s.setCore n c).mem = s.mem := rfl
@[simp] theorem State.setCore_poisoned (s : State) (n : Nat) (c : Core) : (s.setCore n c).poisoned = s.poisoned := rfl
@[simp] theorem State.setCore_stamps (s : State) (n : Nat) (c : Core) : (s.setCore n c).stamps = s.stamps := rfl
@[simp] theorem State.setCore_partials (s : State) (n : Nat) (c : Core) : (s.setCore n c).partials = s.partials := rfl
@[simp] theorem State.setCore_modified (s : State) (n : Nat) (c : Core) : (s.setCore n c).modified = s.modified := rfl
@[simp] theorem State.setCore_doorbells (s : State) (n : Nat) (c : Core) : (s.setCore n c).doorbells = s.doorbells := rfl
@[simp] theorem State.setCore_imageRecords (s : State) (n : Nat) (c : Core) : (s.setCore n c).imageRecords = s.imageRecords := rfl
@[simp] theorem State.setCore_commands (s : State) (n : Nat) (c : Core) : (s.setCore n c).commands = s.commands := rfl
@[simp] theorem State.setCore_nextCommand (s : State) (n : Nat) (c : Core) : (s.setCore n c).nextCommand = s.nextCommand := rfl
@[simp] theorem State.setCore_engine (s : State) (n : Nat) (c : Core) : (s.setCore n c).engine = s.engine := rfl
@[simp] theorem State.setCore_nextEngine (s : State) (n : Nat) (c : Core) : (s.setCore n c).nextEngine = s.nextEngine := rfl
@[simp] theorem State.setCore_queues (s : State) (n : Nat) (c : Core) : (s.setCore n c).queues = s.queues := rfl
@[simp] theorem State.setCore_heldOps (s : State) (n : Nat) (c : Core) : (s.setCore n c).heldOps = s.heldOps := rfl
@[simp] theorem State.setCore_regions (s : State) (n : Nat) (c : Core) : (s.setCore n c).regions = s.regions := rfl
@[simp] theorem State.setCore_residency (s : State) (n : Nat) (c : Core) : (s.setCore n c).residency = s.residency := rfl
@[simp] theorem State.setCore_frames (s : State) (n : Nat) (c : Core) : (s.setCore n c).frames = s.frames := rfl
@[simp] theorem State.setCore_pool (s : State) (n : Nat) (c : Core) : (s.setCore n c).pool = s.pool := rfl
@[simp] theorem State.setCore_asids (s : State) (n : Nat) (c : Core) : (s.setCore n c).asids = s.asids := rfl
@[simp] theorem State.setCore_turnPath (s : State) (n : Nat) (c : Core) : (s.setCore n c).turnPath = s.turnPath := rfl
@[simp] theorem State.setCore_turnSince (s : State) (n : Nat) (c : Core) : (s.setCore n c).turnSince = s.turnSince := rfl
@[simp] theorem State.setCore_bases (s : State) (n : Nat) (c : Core) : (s.setCore n c).bases = s.bases := rfl
@[simp] theorem State.setCore_tblQueue (s : State) (n : Nat) (c : Core) : (s.setCore n c).tblQueue = s.tblQueue := rfl
@[simp] theorem State.setCore_tblCount (s : State) (n : Nat) (c : Core) : (s.setCore n c).tblCount = s.tblCount := rfl
@[simp] theorem State.setCore_tblError (s : State) (n : Nat) (c : Core) : (s.setCore n c).tblError = s.tblError := rfl
@[simp] theorem State.setCore_tblIndex (s : State) (n : Nat) (c : Core) : (s.setCore n c).tblIndex = s.tblIndex := rfl
@[simp] theorem State.setCore_ready (s : State) (n : Nat) (c : Core) : (s.setCore n c).ready = s.ready := rfl
@[simp] theorem State.setCore_counters (s : State) (n : Nat) (c : Core) : (s.setCore n c).counters = s.counters := rfl
@[simp] theorem State.setCore_traces (s : State) (n : Nat) (c : Core) : (s.setCore n c).traces = s.traces := rfl
@[simp] theorem State.setCore_bootStatus (s : State) (n : Nat) (c : Core) : (s.setCore n c).bootStatus = s.bootStatus := rfl
@[simp] theorem State.setCore_devid (s : State) (n : Nat) (c : Core) : (s.setCore n c).devid = s.devid := rfl
@[simp] theorem State.setCore_govlim (s : State) (n : Nat) (c : Core) : (s.setCore n c).govlim = s.govlim := rfl
@[simp] theorem State.setCore_govCurrent (s : State) (n : Nat) (c : Core) : (s.setCore n c).govCurrent = s.govCurrent := rfl
@[simp] theorem State.setCore_govHeld (s : State) (n : Nat) (c : Core) : (s.setCore n c).govHeld = s.govHeld := rfl
@[simp] theorem State.setCore_routes (s : State) (n : Nat) (c : Core) : (s.setCore n c).routes = s.routes := rfl
@[simp] theorem State.setCore_inbound (s : State) (n : Nat) (c : Core) : (s.setCore n c).inbound = s.inbound := rfl
@[simp] theorem State.setCore_rails (s : State) (n : Nat) (c : Core) : (s.setCore n c).rails = s.rails := rfl
@[simp] theorem State.setCore_rootUp (s : State) (n : Nat) (c : Core) : (s.setCore n c).rootUp = s.rootUp := rfl
@[simp] theorem State.setCore_hostUp (s : State) (n : Nat) (c : Core) : (s.setCore n c).hostUp = s.hostUp := rfl
@[simp] theorem State.setCore_cxlCache (s : State) (n : Nat) (c : Core) : (s.setCore n c).cxlCache = s.cxlCache := rfl
@[simp] theorem State.setCore_tested (s : State) (n : Nat) (c : Core) : (s.setCore n c).tested = s.tested := rfl
@[simp] theorem State.setCore_healthy (s : State) (n : Nat) (c : Core) : (s.setCore n c).healthy = s.healthy := rfl
@[simp] theorem State.setCore_rounds (s : State) (n : Nat) (c : Core) : (s.setCore n c).rounds = s.rounds := rfl
@[simp] theorem State.setCore_mailbox (s : State) (n : Nat) (c : Core) : (s.setCore n c).mailbox = s.mailbox := rfl
@[simp] theorem State.setCore_mr (s : State) (n : Nat) (c : Core) : (s.setCore n c).mr = s.mr := rfl
@[simp] theorem State.setCore_securityDie (s : State) (n : Nat) (c : Core) : (s.setCore n c).securityDie = s.securityDie := rfl
@[simp] theorem State.setCore_spdm (s : State) (n : Nat) (c : Core) : (s.setCore n c).spdm = s.spdm := rfl
@[simp] theorem State.setCore_ideKeys (s : State) (n : Nat) (c : Core) : (s.setCore n c).ideKeys = s.ideKeys := rfl
@[simp] theorem State.setCore_debugWork (s : State) (n : Nat) (c : Core) : (s.setCore n c).debugWork = s.debugWork := rfl
@[simp] theorem State.setCore_govHolds (s : State) (n : Nat) (c : Core) : (s.setCore n c).govHolds = s.govHolds := rfl
@[simp] theorem State.setCore_govMicro (s : State) (n : Nat) (c : Core) : (s.setCore n c).govMicro = s.govMicro := rfl
@[simp] theorem State.setCore_rideSent (s : State) (n : Nat) (c : Core) : (s.setCore n c).rideSent = s.rideSent := rfl
@[simp] theorem State.setCore_rideSeen (s : State) (n : Nat) (c : Core) : (s.setCore n c).rideSeen = s.rideSeen := rfl
@[simp] theorem State.setCore_rideRefused (s : State) (n : Nat) (c : Core) : (s.setCore n c).rideRefused = s.rideRefused := rfl

@[simp] theorem State.updCore_clk (s : State) (n : Nat) (f : Core → Core) : (s.updCore n f).clk = s.clk := rfl
@[simp] theorem State.updCore_free (s : State) (n : Nat) (f : Core → Core) : (s.updCore n f).free = s.free := rfl
@[simp] theorem State.updCore_turn (s : State) (n : Nat) (f : Core → Core) : (s.updCore n f).turn = s.turn := rfl
@[simp] theorem State.updCore_inputs (s : State) (n : Nat) (f : Core → Core) : (s.updCore n f).inputs = s.inputs := rfl
@[simp] theorem State.updCore_outputs (s : State) (n : Nat) (f : Core → Core) : (s.updCore n f).outputs = s.outputs := rfl
@[simp] theorem State.updCore_ctxs (s : State) (n : Nat) (f : Core → Core) : (s.updCore n f).ctxs = s.ctxs := rfl
@[simp] theorem State.updCore_clusters (s : State) (n : Nat) (f : Core → Core) : (s.updCore n f).clusters = s.clusters := rfl
@[simp] theorem State.updCore_groups (s : State) (n : Nat) (f : Core → Core) : (s.updCore n f).groups = s.groups := rfl
@[simp] theorem State.updCore_nextGroup (s : State) (n : Nat) (f : Core → Core) : (s.updCore n f).nextGroup = s.nextGroup := rfl
@[simp] theorem State.updCore_dies (s : State) (n : Nat) (f : Core → Core) : (s.updCore n f).dies = s.dies := rfl
@[simp] theorem State.updCore_mem (s : State) (n : Nat) (f : Core → Core) : (s.updCore n f).mem = s.mem := rfl
@[simp] theorem State.updCore_poisoned (s : State) (n : Nat) (f : Core → Core) : (s.updCore n f).poisoned = s.poisoned := rfl
@[simp] theorem State.updCore_stamps (s : State) (n : Nat) (f : Core → Core) : (s.updCore n f).stamps = s.stamps := rfl
@[simp] theorem State.updCore_partials (s : State) (n : Nat) (f : Core → Core) : (s.updCore n f).partials = s.partials := rfl
@[simp] theorem State.updCore_modified (s : State) (n : Nat) (f : Core → Core) : (s.updCore n f).modified = s.modified := rfl
@[simp] theorem State.updCore_doorbells (s : State) (n : Nat) (f : Core → Core) : (s.updCore n f).doorbells = s.doorbells := rfl
@[simp] theorem State.updCore_imageRecords (s : State) (n : Nat) (f : Core → Core) : (s.updCore n f).imageRecords = s.imageRecords := rfl
@[simp] theorem State.updCore_commands (s : State) (n : Nat) (f : Core → Core) : (s.updCore n f).commands = s.commands := rfl
@[simp] theorem State.updCore_nextCommand (s : State) (n : Nat) (f : Core → Core) : (s.updCore n f).nextCommand = s.nextCommand := rfl
@[simp] theorem State.updCore_engine (s : State) (n : Nat) (f : Core → Core) : (s.updCore n f).engine = s.engine := rfl
@[simp] theorem State.updCore_nextEngine (s : State) (n : Nat) (f : Core → Core) : (s.updCore n f).nextEngine = s.nextEngine := rfl
@[simp] theorem State.updCore_queues (s : State) (n : Nat) (f : Core → Core) : (s.updCore n f).queues = s.queues := rfl
@[simp] theorem State.updCore_heldOps (s : State) (n : Nat) (f : Core → Core) : (s.updCore n f).heldOps = s.heldOps := rfl
@[simp] theorem State.updCore_regions (s : State) (n : Nat) (f : Core → Core) : (s.updCore n f).regions = s.regions := rfl
@[simp] theorem State.updCore_residency (s : State) (n : Nat) (f : Core → Core) : (s.updCore n f).residency = s.residency := rfl
@[simp] theorem State.updCore_frames (s : State) (n : Nat) (f : Core → Core) : (s.updCore n f).frames = s.frames := rfl
@[simp] theorem State.updCore_pool (s : State) (n : Nat) (f : Core → Core) : (s.updCore n f).pool = s.pool := rfl
@[simp] theorem State.updCore_asids (s : State) (n : Nat) (f : Core → Core) : (s.updCore n f).asids = s.asids := rfl
@[simp] theorem State.updCore_turnPath (s : State) (n : Nat) (f : Core → Core) : (s.updCore n f).turnPath = s.turnPath := rfl
@[simp] theorem State.updCore_turnSince (s : State) (n : Nat) (f : Core → Core) : (s.updCore n f).turnSince = s.turnSince := rfl
@[simp] theorem State.updCore_bases (s : State) (n : Nat) (f : Core → Core) : (s.updCore n f).bases = s.bases := rfl
@[simp] theorem State.updCore_tblQueue (s : State) (n : Nat) (f : Core → Core) : (s.updCore n f).tblQueue = s.tblQueue := rfl
@[simp] theorem State.updCore_tblCount (s : State) (n : Nat) (f : Core → Core) : (s.updCore n f).tblCount = s.tblCount := rfl
@[simp] theorem State.updCore_tblError (s : State) (n : Nat) (f : Core → Core) : (s.updCore n f).tblError = s.tblError := rfl
@[simp] theorem State.updCore_tblIndex (s : State) (n : Nat) (f : Core → Core) : (s.updCore n f).tblIndex = s.tblIndex := rfl
@[simp] theorem State.updCore_ready (s : State) (n : Nat) (f : Core → Core) : (s.updCore n f).ready = s.ready := rfl
@[simp] theorem State.updCore_counters (s : State) (n : Nat) (f : Core → Core) : (s.updCore n f).counters = s.counters := rfl
@[simp] theorem State.updCore_traces (s : State) (n : Nat) (f : Core → Core) : (s.updCore n f).traces = s.traces := rfl
@[simp] theorem State.updCore_bootStatus (s : State) (n : Nat) (f : Core → Core) : (s.updCore n f).bootStatus = s.bootStatus := rfl
@[simp] theorem State.updCore_devid (s : State) (n : Nat) (f : Core → Core) : (s.updCore n f).devid = s.devid := rfl
@[simp] theorem State.updCore_govlim (s : State) (n : Nat) (f : Core → Core) : (s.updCore n f).govlim = s.govlim := rfl
@[simp] theorem State.updCore_govCurrent (s : State) (n : Nat) (f : Core → Core) : (s.updCore n f).govCurrent = s.govCurrent := rfl
@[simp] theorem State.updCore_govHeld (s : State) (n : Nat) (f : Core → Core) : (s.updCore n f).govHeld = s.govHeld := rfl
@[simp] theorem State.updCore_routes (s : State) (n : Nat) (f : Core → Core) : (s.updCore n f).routes = s.routes := rfl
@[simp] theorem State.updCore_inbound (s : State) (n : Nat) (f : Core → Core) : (s.updCore n f).inbound = s.inbound := rfl
@[simp] theorem State.updCore_rails (s : State) (n : Nat) (f : Core → Core) : (s.updCore n f).rails = s.rails := rfl
@[simp] theorem State.updCore_rootUp (s : State) (n : Nat) (f : Core → Core) : (s.updCore n f).rootUp = s.rootUp := rfl
@[simp] theorem State.updCore_hostUp (s : State) (n : Nat) (f : Core → Core) : (s.updCore n f).hostUp = s.hostUp := rfl
@[simp] theorem State.updCore_cxlCache (s : State) (n : Nat) (f : Core → Core) : (s.updCore n f).cxlCache = s.cxlCache := rfl
@[simp] theorem State.updCore_tested (s : State) (n : Nat) (f : Core → Core) : (s.updCore n f).tested = s.tested := rfl
@[simp] theorem State.updCore_healthy (s : State) (n : Nat) (f : Core → Core) : (s.updCore n f).healthy = s.healthy := rfl
@[simp] theorem State.updCore_rounds (s : State) (n : Nat) (f : Core → Core) : (s.updCore n f).rounds = s.rounds := rfl
@[simp] theorem State.updCore_mailbox (s : State) (n : Nat) (f : Core → Core) : (s.updCore n f).mailbox = s.mailbox := rfl
@[simp] theorem State.updCore_mr (s : State) (n : Nat) (f : Core → Core) : (s.updCore n f).mr = s.mr := rfl
@[simp] theorem State.updCore_securityDie (s : State) (n : Nat) (f : Core → Core) : (s.updCore n f).securityDie = s.securityDie := rfl
@[simp] theorem State.updCore_spdm (s : State) (n : Nat) (f : Core → Core) : (s.updCore n f).spdm = s.spdm := rfl
@[simp] theorem State.updCore_ideKeys (s : State) (n : Nat) (f : Core → Core) : (s.updCore n f).ideKeys = s.ideKeys := rfl
@[simp] theorem State.updCore_debugWork (s : State) (n : Nat) (f : Core → Core) : (s.updCore n f).debugWork = s.debugWork := rfl
@[simp] theorem State.updCore_govHolds (s : State) (n : Nat) (f : Core → Core) : (s.updCore n f).govHolds = s.govHolds := rfl
@[simp] theorem State.updCore_govMicro (s : State) (n : Nat) (f : Core → Core) : (s.updCore n f).govMicro = s.govMicro := rfl
@[simp] theorem State.updCore_rideSent (s : State) (n : Nat) (f : Core → Core) : (s.updCore n f).rideSent = s.rideSent := rfl
@[simp] theorem State.updCore_rideSeen (s : State) (n : Nat) (f : Core → Core) : (s.updCore n f).rideSeen = s.rideSeen := rfl
@[simp] theorem State.updCore_rideRefused (s : State) (n : Nat) (f : Core → Core) : (s.updCore n f).rideRefused = s.rideRefused := rfl

@[simp] theorem State.updCluster_clk (s : State) (n : Nat) (f : Cluster → Cluster) : (s.updCluster n f).clk = s.clk := rfl
@[simp] theorem State.updCluster_free (s : State) (n : Nat) (f : Cluster → Cluster) : (s.updCluster n f).free = s.free := rfl
@[simp] theorem State.updCluster_turn (s : State) (n : Nat) (f : Cluster → Cluster) : (s.updCluster n f).turn = s.turn := rfl
@[simp] theorem State.updCluster_inputs (s : State) (n : Nat) (f : Cluster → Cluster) : (s.updCluster n f).inputs = s.inputs := rfl
@[simp] theorem State.updCluster_outputs (s : State) (n : Nat) (f : Cluster → Cluster) : (s.updCluster n f).outputs = s.outputs := rfl
@[simp] theorem State.updCluster_ctxs (s : State) (n : Nat) (f : Cluster → Cluster) : (s.updCluster n f).ctxs = s.ctxs := rfl
@[simp] theorem State.updCluster_cores (s : State) (n : Nat) (f : Cluster → Cluster) : (s.updCluster n f).cores = s.cores := rfl
@[simp] theorem State.updCluster_groups (s : State) (n : Nat) (f : Cluster → Cluster) : (s.updCluster n f).groups = s.groups := rfl
@[simp] theorem State.updCluster_nextGroup (s : State) (n : Nat) (f : Cluster → Cluster) : (s.updCluster n f).nextGroup = s.nextGroup := rfl
@[simp] theorem State.updCluster_dies (s : State) (n : Nat) (f : Cluster → Cluster) : (s.updCluster n f).dies = s.dies := rfl
@[simp] theorem State.updCluster_mem (s : State) (n : Nat) (f : Cluster → Cluster) : (s.updCluster n f).mem = s.mem := rfl
@[simp] theorem State.updCluster_poisoned (s : State) (n : Nat) (f : Cluster → Cluster) : (s.updCluster n f).poisoned = s.poisoned := rfl
@[simp] theorem State.updCluster_stamps (s : State) (n : Nat) (f : Cluster → Cluster) : (s.updCluster n f).stamps = s.stamps := rfl
@[simp] theorem State.updCluster_partials (s : State) (n : Nat) (f : Cluster → Cluster) : (s.updCluster n f).partials = s.partials := rfl
@[simp] theorem State.updCluster_modified (s : State) (n : Nat) (f : Cluster → Cluster) : (s.updCluster n f).modified = s.modified := rfl
@[simp] theorem State.updCluster_doorbells (s : State) (n : Nat) (f : Cluster → Cluster) : (s.updCluster n f).doorbells = s.doorbells := rfl
@[simp] theorem State.updCluster_imageRecords (s : State) (n : Nat) (f : Cluster → Cluster) : (s.updCluster n f).imageRecords = s.imageRecords := rfl
@[simp] theorem State.updCluster_commands (s : State) (n : Nat) (f : Cluster → Cluster) : (s.updCluster n f).commands = s.commands := rfl
@[simp] theorem State.updCluster_nextCommand (s : State) (n : Nat) (f : Cluster → Cluster) : (s.updCluster n f).nextCommand = s.nextCommand := rfl
@[simp] theorem State.updCluster_engine (s : State) (n : Nat) (f : Cluster → Cluster) : (s.updCluster n f).engine = s.engine := rfl
@[simp] theorem State.updCluster_nextEngine (s : State) (n : Nat) (f : Cluster → Cluster) : (s.updCluster n f).nextEngine = s.nextEngine := rfl
@[simp] theorem State.updCluster_queues (s : State) (n : Nat) (f : Cluster → Cluster) : (s.updCluster n f).queues = s.queues := rfl
@[simp] theorem State.updCluster_heldOps (s : State) (n : Nat) (f : Cluster → Cluster) : (s.updCluster n f).heldOps = s.heldOps := rfl
@[simp] theorem State.updCluster_regions (s : State) (n : Nat) (f : Cluster → Cluster) : (s.updCluster n f).regions = s.regions := rfl
@[simp] theorem State.updCluster_residency (s : State) (n : Nat) (f : Cluster → Cluster) : (s.updCluster n f).residency = s.residency := rfl
@[simp] theorem State.updCluster_frames (s : State) (n : Nat) (f : Cluster → Cluster) : (s.updCluster n f).frames = s.frames := rfl
@[simp] theorem State.updCluster_pool (s : State) (n : Nat) (f : Cluster → Cluster) : (s.updCluster n f).pool = s.pool := rfl
@[simp] theorem State.updCluster_asids (s : State) (n : Nat) (f : Cluster → Cluster) : (s.updCluster n f).asids = s.asids := rfl
@[simp] theorem State.updCluster_turnPath (s : State) (n : Nat) (f : Cluster → Cluster) : (s.updCluster n f).turnPath = s.turnPath := rfl
@[simp] theorem State.updCluster_turnSince (s : State) (n : Nat) (f : Cluster → Cluster) : (s.updCluster n f).turnSince = s.turnSince := rfl
@[simp] theorem State.updCluster_bases (s : State) (n : Nat) (f : Cluster → Cluster) : (s.updCluster n f).bases = s.bases := rfl
@[simp] theorem State.updCluster_tblQueue (s : State) (n : Nat) (f : Cluster → Cluster) : (s.updCluster n f).tblQueue = s.tblQueue := rfl
@[simp] theorem State.updCluster_tblCount (s : State) (n : Nat) (f : Cluster → Cluster) : (s.updCluster n f).tblCount = s.tblCount := rfl
@[simp] theorem State.updCluster_tblError (s : State) (n : Nat) (f : Cluster → Cluster) : (s.updCluster n f).tblError = s.tblError := rfl
@[simp] theorem State.updCluster_tblIndex (s : State) (n : Nat) (f : Cluster → Cluster) : (s.updCluster n f).tblIndex = s.tblIndex := rfl
@[simp] theorem State.updCluster_ready (s : State) (n : Nat) (f : Cluster → Cluster) : (s.updCluster n f).ready = s.ready := rfl
@[simp] theorem State.updCluster_counters (s : State) (n : Nat) (f : Cluster → Cluster) : (s.updCluster n f).counters = s.counters := rfl
@[simp] theorem State.updCluster_traces (s : State) (n : Nat) (f : Cluster → Cluster) : (s.updCluster n f).traces = s.traces := rfl
@[simp] theorem State.updCluster_bootStatus (s : State) (n : Nat) (f : Cluster → Cluster) : (s.updCluster n f).bootStatus = s.bootStatus := rfl
@[simp] theorem State.updCluster_devid (s : State) (n : Nat) (f : Cluster → Cluster) : (s.updCluster n f).devid = s.devid := rfl
@[simp] theorem State.updCluster_govlim (s : State) (n : Nat) (f : Cluster → Cluster) : (s.updCluster n f).govlim = s.govlim := rfl
@[simp] theorem State.updCluster_govCurrent (s : State) (n : Nat) (f : Cluster → Cluster) : (s.updCluster n f).govCurrent = s.govCurrent := rfl
@[simp] theorem State.updCluster_govHeld (s : State) (n : Nat) (f : Cluster → Cluster) : (s.updCluster n f).govHeld = s.govHeld := rfl
@[simp] theorem State.updCluster_routes (s : State) (n : Nat) (f : Cluster → Cluster) : (s.updCluster n f).routes = s.routes := rfl
@[simp] theorem State.updCluster_inbound (s : State) (n : Nat) (f : Cluster → Cluster) : (s.updCluster n f).inbound = s.inbound := rfl
@[simp] theorem State.updCluster_rails (s : State) (n : Nat) (f : Cluster → Cluster) : (s.updCluster n f).rails = s.rails := rfl
@[simp] theorem State.updCluster_rootUp (s : State) (n : Nat) (f : Cluster → Cluster) : (s.updCluster n f).rootUp = s.rootUp := rfl
@[simp] theorem State.updCluster_hostUp (s : State) (n : Nat) (f : Cluster → Cluster) : (s.updCluster n f).hostUp = s.hostUp := rfl
@[simp] theorem State.updCluster_cxlCache (s : State) (n : Nat) (f : Cluster → Cluster) : (s.updCluster n f).cxlCache = s.cxlCache := rfl
@[simp] theorem State.updCluster_tested (s : State) (n : Nat) (f : Cluster → Cluster) : (s.updCluster n f).tested = s.tested := rfl
@[simp] theorem State.updCluster_healthy (s : State) (n : Nat) (f : Cluster → Cluster) : (s.updCluster n f).healthy = s.healthy := rfl
@[simp] theorem State.updCluster_rounds (s : State) (n : Nat) (f : Cluster → Cluster) : (s.updCluster n f).rounds = s.rounds := rfl
@[simp] theorem State.updCluster_mailbox (s : State) (n : Nat) (f : Cluster → Cluster) : (s.updCluster n f).mailbox = s.mailbox := rfl
@[simp] theorem State.updCluster_mr (s : State) (n : Nat) (f : Cluster → Cluster) : (s.updCluster n f).mr = s.mr := rfl
@[simp] theorem State.updCluster_securityDie (s : State) (n : Nat) (f : Cluster → Cluster) : (s.updCluster n f).securityDie = s.securityDie := rfl
@[simp] theorem State.updCluster_spdm (s : State) (n : Nat) (f : Cluster → Cluster) : (s.updCluster n f).spdm = s.spdm := rfl
@[simp] theorem State.updCluster_ideKeys (s : State) (n : Nat) (f : Cluster → Cluster) : (s.updCluster n f).ideKeys = s.ideKeys := rfl
@[simp] theorem State.updCluster_debugWork (s : State) (n : Nat) (f : Cluster → Cluster) : (s.updCluster n f).debugWork = s.debugWork := rfl
@[simp] theorem State.updCluster_govHolds (s : State) (n : Nat) (f : Cluster → Cluster) : (s.updCluster n f).govHolds = s.govHolds := rfl
@[simp] theorem State.updCluster_govMicro (s : State) (n : Nat) (f : Cluster → Cluster) : (s.updCluster n f).govMicro = s.govMicro := rfl
@[simp] theorem State.updCluster_rideSent (s : State) (n : Nat) (f : Cluster → Cluster) : (s.updCluster n f).rideSent = s.rideSent := rfl
@[simp] theorem State.updCluster_rideSeen (s : State) (n : Nat) (f : Cluster → Cluster) : (s.updCluster n f).rideSeen = s.rideSeen := rfl
@[simp] theorem State.updCluster_rideRefused (s : State) (n : Nat) (f : Cluster → Cluster) : (s.updCluster n f).rideRefused = s.rideRefused := rfl

@[simp] theorem State.updDie_clk (s : State) (n : Nat) (f : Die → Die) : (s.updDie n f).clk = s.clk := rfl
@[simp] theorem State.updDie_free (s : State) (n : Nat) (f : Die → Die) : (s.updDie n f).free = s.free := rfl
@[simp] theorem State.updDie_turn (s : State) (n : Nat) (f : Die → Die) : (s.updDie n f).turn = s.turn := rfl
@[simp] theorem State.updDie_inputs (s : State) (n : Nat) (f : Die → Die) : (s.updDie n f).inputs = s.inputs := rfl
@[simp] theorem State.updDie_outputs (s : State) (n : Nat) (f : Die → Die) : (s.updDie n f).outputs = s.outputs := rfl
@[simp] theorem State.updDie_ctxs (s : State) (n : Nat) (f : Die → Die) : (s.updDie n f).ctxs = s.ctxs := rfl
@[simp] theorem State.updDie_cores (s : State) (n : Nat) (f : Die → Die) : (s.updDie n f).cores = s.cores := rfl
@[simp] theorem State.updDie_clusters (s : State) (n : Nat) (f : Die → Die) : (s.updDie n f).clusters = s.clusters := rfl
@[simp] theorem State.updDie_groups (s : State) (n : Nat) (f : Die → Die) : (s.updDie n f).groups = s.groups := rfl
@[simp] theorem State.updDie_nextGroup (s : State) (n : Nat) (f : Die → Die) : (s.updDie n f).nextGroup = s.nextGroup := rfl
@[simp] theorem State.updDie_mem (s : State) (n : Nat) (f : Die → Die) : (s.updDie n f).mem = s.mem := rfl
@[simp] theorem State.updDie_poisoned (s : State) (n : Nat) (f : Die → Die) : (s.updDie n f).poisoned = s.poisoned := rfl
@[simp] theorem State.updDie_stamps (s : State) (n : Nat) (f : Die → Die) : (s.updDie n f).stamps = s.stamps := rfl
@[simp] theorem State.updDie_partials (s : State) (n : Nat) (f : Die → Die) : (s.updDie n f).partials = s.partials := rfl
@[simp] theorem State.updDie_modified (s : State) (n : Nat) (f : Die → Die) : (s.updDie n f).modified = s.modified := rfl
@[simp] theorem State.updDie_doorbells (s : State) (n : Nat) (f : Die → Die) : (s.updDie n f).doorbells = s.doorbells := rfl
@[simp] theorem State.updDie_imageRecords (s : State) (n : Nat) (f : Die → Die) : (s.updDie n f).imageRecords = s.imageRecords := rfl
@[simp] theorem State.updDie_commands (s : State) (n : Nat) (f : Die → Die) : (s.updDie n f).commands = s.commands := rfl
@[simp] theorem State.updDie_nextCommand (s : State) (n : Nat) (f : Die → Die) : (s.updDie n f).nextCommand = s.nextCommand := rfl
@[simp] theorem State.updDie_engine (s : State) (n : Nat) (f : Die → Die) : (s.updDie n f).engine = s.engine := rfl
@[simp] theorem State.updDie_nextEngine (s : State) (n : Nat) (f : Die → Die) : (s.updDie n f).nextEngine = s.nextEngine := rfl
@[simp] theorem State.updDie_queues (s : State) (n : Nat) (f : Die → Die) : (s.updDie n f).queues = s.queues := rfl
@[simp] theorem State.updDie_heldOps (s : State) (n : Nat) (f : Die → Die) : (s.updDie n f).heldOps = s.heldOps := rfl
@[simp] theorem State.updDie_regions (s : State) (n : Nat) (f : Die → Die) : (s.updDie n f).regions = s.regions := rfl
@[simp] theorem State.updDie_residency (s : State) (n : Nat) (f : Die → Die) : (s.updDie n f).residency = s.residency := rfl
@[simp] theorem State.updDie_frames (s : State) (n : Nat) (f : Die → Die) : (s.updDie n f).frames = s.frames := rfl
@[simp] theorem State.updDie_pool (s : State) (n : Nat) (f : Die → Die) : (s.updDie n f).pool = s.pool := rfl
@[simp] theorem State.updDie_asids (s : State) (n : Nat) (f : Die → Die) : (s.updDie n f).asids = s.asids := rfl
@[simp] theorem State.updDie_turnPath (s : State) (n : Nat) (f : Die → Die) : (s.updDie n f).turnPath = s.turnPath := rfl
@[simp] theorem State.updDie_turnSince (s : State) (n : Nat) (f : Die → Die) : (s.updDie n f).turnSince = s.turnSince := rfl
@[simp] theorem State.updDie_bases (s : State) (n : Nat) (f : Die → Die) : (s.updDie n f).bases = s.bases := rfl
@[simp] theorem State.updDie_tblQueue (s : State) (n : Nat) (f : Die → Die) : (s.updDie n f).tblQueue = s.tblQueue := rfl
@[simp] theorem State.updDie_tblCount (s : State) (n : Nat) (f : Die → Die) : (s.updDie n f).tblCount = s.tblCount := rfl
@[simp] theorem State.updDie_tblError (s : State) (n : Nat) (f : Die → Die) : (s.updDie n f).tblError = s.tblError := rfl
@[simp] theorem State.updDie_tblIndex (s : State) (n : Nat) (f : Die → Die) : (s.updDie n f).tblIndex = s.tblIndex := rfl
@[simp] theorem State.updDie_ready (s : State) (n : Nat) (f : Die → Die) : (s.updDie n f).ready = s.ready := rfl
@[simp] theorem State.updDie_counters (s : State) (n : Nat) (f : Die → Die) : (s.updDie n f).counters = s.counters := rfl
@[simp] theorem State.updDie_traces (s : State) (n : Nat) (f : Die → Die) : (s.updDie n f).traces = s.traces := rfl
@[simp] theorem State.updDie_bootStatus (s : State) (n : Nat) (f : Die → Die) : (s.updDie n f).bootStatus = s.bootStatus := rfl
@[simp] theorem State.updDie_devid (s : State) (n : Nat) (f : Die → Die) : (s.updDie n f).devid = s.devid := rfl
@[simp] theorem State.updDie_govlim (s : State) (n : Nat) (f : Die → Die) : (s.updDie n f).govlim = s.govlim := rfl
@[simp] theorem State.updDie_govCurrent (s : State) (n : Nat) (f : Die → Die) : (s.updDie n f).govCurrent = s.govCurrent := rfl
@[simp] theorem State.updDie_govHeld (s : State) (n : Nat) (f : Die → Die) : (s.updDie n f).govHeld = s.govHeld := rfl
@[simp] theorem State.updDie_routes (s : State) (n : Nat) (f : Die → Die) : (s.updDie n f).routes = s.routes := rfl
@[simp] theorem State.updDie_inbound (s : State) (n : Nat) (f : Die → Die) : (s.updDie n f).inbound = s.inbound := rfl
@[simp] theorem State.updDie_rails (s : State) (n : Nat) (f : Die → Die) : (s.updDie n f).rails = s.rails := rfl
@[simp] theorem State.updDie_rootUp (s : State) (n : Nat) (f : Die → Die) : (s.updDie n f).rootUp = s.rootUp := rfl
@[simp] theorem State.updDie_hostUp (s : State) (n : Nat) (f : Die → Die) : (s.updDie n f).hostUp = s.hostUp := rfl
@[simp] theorem State.updDie_cxlCache (s : State) (n : Nat) (f : Die → Die) : (s.updDie n f).cxlCache = s.cxlCache := rfl
@[simp] theorem State.updDie_tested (s : State) (n : Nat) (f : Die → Die) : (s.updDie n f).tested = s.tested := rfl
@[simp] theorem State.updDie_healthy (s : State) (n : Nat) (f : Die → Die) : (s.updDie n f).healthy = s.healthy := rfl
@[simp] theorem State.updDie_rounds (s : State) (n : Nat) (f : Die → Die) : (s.updDie n f).rounds = s.rounds := rfl
@[simp] theorem State.updDie_mailbox (s : State) (n : Nat) (f : Die → Die) : (s.updDie n f).mailbox = s.mailbox := rfl
@[simp] theorem State.updDie_mr (s : State) (n : Nat) (f : Die → Die) : (s.updDie n f).mr = s.mr := rfl
@[simp] theorem State.updDie_securityDie (s : State) (n : Nat) (f : Die → Die) : (s.updDie n f).securityDie = s.securityDie := rfl
@[simp] theorem State.updDie_spdm (s : State) (n : Nat) (f : Die → Die) : (s.updDie n f).spdm = s.spdm := rfl
@[simp] theorem State.updDie_ideKeys (s : State) (n : Nat) (f : Die → Die) : (s.updDie n f).ideKeys = s.ideKeys := rfl
@[simp] theorem State.updDie_debugWork (s : State) (n : Nat) (f : Die → Die) : (s.updDie n f).debugWork = s.debugWork := rfl
@[simp] theorem State.updDie_govHolds (s : State) (n : Nat) (f : Die → Die) : (s.updDie n f).govHolds = s.govHolds := rfl
@[simp] theorem State.updDie_govMicro (s : State) (n : Nat) (f : Die → Die) : (s.updDie n f).govMicro = s.govMicro := rfl
@[simp] theorem State.updDie_rideSent (s : State) (n : Nat) (f : Die → Die) : (s.updDie n f).rideSent = s.rideSent := rfl
@[simp] theorem State.updDie_rideSeen (s : State) (n : Nat) (f : Die → Die) : (s.updDie n f).rideSeen = s.rideSeen := rfl
@[simp] theorem State.updDie_rideRefused (s : State) (n : Nat) (f : Die → Die) : (s.updDie n f).rideRefused = s.rideRefused := rfl

@[simp] theorem State.updRegion_clk (s : State) (r : Nat) (f : Region → Region) : (s.updRegion r f).clk = s.clk := rfl
@[simp] theorem State.updRegion_free (s : State) (r : Nat) (f : Region → Region) : (s.updRegion r f).free = s.free := rfl
@[simp] theorem State.updRegion_turn (s : State) (r : Nat) (f : Region → Region) : (s.updRegion r f).turn = s.turn := rfl
@[simp] theorem State.updRegion_inputs (s : State) (r : Nat) (f : Region → Region) : (s.updRegion r f).inputs = s.inputs := rfl
@[simp] theorem State.updRegion_outputs (s : State) (r : Nat) (f : Region → Region) : (s.updRegion r f).outputs = s.outputs := rfl
@[simp] theorem State.updRegion_ctxs (s : State) (r : Nat) (f : Region → Region) : (s.updRegion r f).ctxs = s.ctxs := rfl
@[simp] theorem State.updRegion_cores (s : State) (r : Nat) (f : Region → Region) : (s.updRegion r f).cores = s.cores := rfl
@[simp] theorem State.updRegion_clusters (s : State) (r : Nat) (f : Region → Region) : (s.updRegion r f).clusters = s.clusters := rfl
@[simp] theorem State.updRegion_groups (s : State) (r : Nat) (f : Region → Region) : (s.updRegion r f).groups = s.groups := rfl
@[simp] theorem State.updRegion_nextGroup (s : State) (r : Nat) (f : Region → Region) : (s.updRegion r f).nextGroup = s.nextGroup := rfl
@[simp] theorem State.updRegion_dies (s : State) (r : Nat) (f : Region → Region) : (s.updRegion r f).dies = s.dies := rfl
@[simp] theorem State.updRegion_mem (s : State) (r : Nat) (f : Region → Region) : (s.updRegion r f).mem = s.mem := rfl
@[simp] theorem State.updRegion_poisoned (s : State) (r : Nat) (f : Region → Region) : (s.updRegion r f).poisoned = s.poisoned := rfl
@[simp] theorem State.updRegion_stamps (s : State) (r : Nat) (f : Region → Region) : (s.updRegion r f).stamps = s.stamps := rfl
@[simp] theorem State.updRegion_partials (s : State) (r : Nat) (f : Region → Region) : (s.updRegion r f).partials = s.partials := rfl
@[simp] theorem State.updRegion_modified (s : State) (r : Nat) (f : Region → Region) : (s.updRegion r f).modified = s.modified := rfl
@[simp] theorem State.updRegion_doorbells (s : State) (r : Nat) (f : Region → Region) : (s.updRegion r f).doorbells = s.doorbells := rfl
@[simp] theorem State.updRegion_imageRecords (s : State) (r : Nat) (f : Region → Region) : (s.updRegion r f).imageRecords = s.imageRecords := rfl
@[simp] theorem State.updRegion_commands (s : State) (r : Nat) (f : Region → Region) : (s.updRegion r f).commands = s.commands := rfl
@[simp] theorem State.updRegion_nextCommand (s : State) (r : Nat) (f : Region → Region) : (s.updRegion r f).nextCommand = s.nextCommand := rfl
@[simp] theorem State.updRegion_engine (s : State) (r : Nat) (f : Region → Region) : (s.updRegion r f).engine = s.engine := rfl
@[simp] theorem State.updRegion_nextEngine (s : State) (r : Nat) (f : Region → Region) : (s.updRegion r f).nextEngine = s.nextEngine := rfl
@[simp] theorem State.updRegion_queues (s : State) (r : Nat) (f : Region → Region) : (s.updRegion r f).queues = s.queues := rfl
@[simp] theorem State.updRegion_heldOps (s : State) (r : Nat) (f : Region → Region) : (s.updRegion r f).heldOps = s.heldOps := rfl
@[simp] theorem State.updRegion_residency (s : State) (r : Nat) (f : Region → Region) : (s.updRegion r f).residency = s.residency := rfl
@[simp] theorem State.updRegion_frames (s : State) (r : Nat) (f : Region → Region) : (s.updRegion r f).frames = s.frames := rfl
@[simp] theorem State.updRegion_pool (s : State) (r : Nat) (f : Region → Region) : (s.updRegion r f).pool = s.pool := rfl
@[simp] theorem State.updRegion_asids (s : State) (r : Nat) (f : Region → Region) : (s.updRegion r f).asids = s.asids := rfl
@[simp] theorem State.updRegion_turnPath (s : State) (r : Nat) (f : Region → Region) : (s.updRegion r f).turnPath = s.turnPath := rfl
@[simp] theorem State.updRegion_turnSince (s : State) (r : Nat) (f : Region → Region) : (s.updRegion r f).turnSince = s.turnSince := rfl
@[simp] theorem State.updRegion_bases (s : State) (r : Nat) (f : Region → Region) : (s.updRegion r f).bases = s.bases := rfl
@[simp] theorem State.updRegion_tblQueue (s : State) (r : Nat) (f : Region → Region) : (s.updRegion r f).tblQueue = s.tblQueue := rfl
@[simp] theorem State.updRegion_tblCount (s : State) (r : Nat) (f : Region → Region) : (s.updRegion r f).tblCount = s.tblCount := rfl
@[simp] theorem State.updRegion_tblError (s : State) (r : Nat) (f : Region → Region) : (s.updRegion r f).tblError = s.tblError := rfl
@[simp] theorem State.updRegion_tblIndex (s : State) (r : Nat) (f : Region → Region) : (s.updRegion r f).tblIndex = s.tblIndex := rfl
@[simp] theorem State.updRegion_ready (s : State) (r : Nat) (f : Region → Region) : (s.updRegion r f).ready = s.ready := rfl
@[simp] theorem State.updRegion_counters (s : State) (r : Nat) (f : Region → Region) : (s.updRegion r f).counters = s.counters := rfl
@[simp] theorem State.updRegion_traces (s : State) (r : Nat) (f : Region → Region) : (s.updRegion r f).traces = s.traces := rfl
@[simp] theorem State.updRegion_bootStatus (s : State) (r : Nat) (f : Region → Region) : (s.updRegion r f).bootStatus = s.bootStatus := rfl
@[simp] theorem State.updRegion_devid (s : State) (r : Nat) (f : Region → Region) : (s.updRegion r f).devid = s.devid := rfl
@[simp] theorem State.updRegion_govlim (s : State) (r : Nat) (f : Region → Region) : (s.updRegion r f).govlim = s.govlim := rfl
@[simp] theorem State.updRegion_govCurrent (s : State) (r : Nat) (f : Region → Region) : (s.updRegion r f).govCurrent = s.govCurrent := rfl
@[simp] theorem State.updRegion_govHeld (s : State) (r : Nat) (f : Region → Region) : (s.updRegion r f).govHeld = s.govHeld := rfl
@[simp] theorem State.updRegion_routes (s : State) (r : Nat) (f : Region → Region) : (s.updRegion r f).routes = s.routes := rfl
@[simp] theorem State.updRegion_inbound (s : State) (r : Nat) (f : Region → Region) : (s.updRegion r f).inbound = s.inbound := rfl
@[simp] theorem State.updRegion_rails (s : State) (r : Nat) (f : Region → Region) : (s.updRegion r f).rails = s.rails := rfl
@[simp] theorem State.updRegion_rootUp (s : State) (r : Nat) (f : Region → Region) : (s.updRegion r f).rootUp = s.rootUp := rfl
@[simp] theorem State.updRegion_hostUp (s : State) (r : Nat) (f : Region → Region) : (s.updRegion r f).hostUp = s.hostUp := rfl
@[simp] theorem State.updRegion_cxlCache (s : State) (r : Nat) (f : Region → Region) : (s.updRegion r f).cxlCache = s.cxlCache := rfl
@[simp] theorem State.updRegion_tested (s : State) (r : Nat) (f : Region → Region) : (s.updRegion r f).tested = s.tested := rfl
@[simp] theorem State.updRegion_healthy (s : State) (r : Nat) (f : Region → Region) : (s.updRegion r f).healthy = s.healthy := rfl
@[simp] theorem State.updRegion_rounds (s : State) (r : Nat) (f : Region → Region) : (s.updRegion r f).rounds = s.rounds := rfl
@[simp] theorem State.updRegion_mailbox (s : State) (r : Nat) (f : Region → Region) : (s.updRegion r f).mailbox = s.mailbox := rfl
@[simp] theorem State.updRegion_mr (s : State) (r : Nat) (f : Region → Region) : (s.updRegion r f).mr = s.mr := rfl
@[simp] theorem State.updRegion_securityDie (s : State) (r : Nat) (f : Region → Region) : (s.updRegion r f).securityDie = s.securityDie := rfl
@[simp] theorem State.updRegion_spdm (s : State) (r : Nat) (f : Region → Region) : (s.updRegion r f).spdm = s.spdm := rfl
@[simp] theorem State.updRegion_ideKeys (s : State) (r : Nat) (f : Region → Region) : (s.updRegion r f).ideKeys = s.ideKeys := rfl
@[simp] theorem State.updRegion_debugWork (s : State) (r : Nat) (f : Region → Region) : (s.updRegion r f).debugWork = s.debugWork := rfl
@[simp] theorem State.updRegion_govHolds (s : State) (r : Nat) (f : Region → Region) : (s.updRegion r f).govHolds = s.govHolds := rfl
@[simp] theorem State.updRegion_govMicro (s : State) (r : Nat) (f : Region → Region) : (s.updRegion r f).govMicro = s.govMicro := rfl
@[simp] theorem State.updRegion_rideSent (s : State) (r : Nat) (f : Region → Region) : (s.updRegion r f).rideSent = s.rideSent := rfl
@[simp] theorem State.updRegion_rideSeen (s : State) (r : Nat) (f : Region → Region) : (s.updRegion r f).rideSeen = s.rideSeen := rfl
@[simp] theorem State.updRegion_rideRefused (s : State) (r : Nat) (f : Region → Region) : (s.updRegion r f).rideRefused = s.rideRefused := rfl

@[simp] theorem State.updHold_clk (s : State) (q : Nat) (f : QueueHold → QueueHold) : (s.updHold q f).clk = s.clk := rfl
@[simp] theorem State.updHold_free (s : State) (q : Nat) (f : QueueHold → QueueHold) : (s.updHold q f).free = s.free := rfl
@[simp] theorem State.updHold_turn (s : State) (q : Nat) (f : QueueHold → QueueHold) : (s.updHold q f).turn = s.turn := rfl
@[simp] theorem State.updHold_inputs (s : State) (q : Nat) (f : QueueHold → QueueHold) : (s.updHold q f).inputs = s.inputs := rfl
@[simp] theorem State.updHold_outputs (s : State) (q : Nat) (f : QueueHold → QueueHold) : (s.updHold q f).outputs = s.outputs := rfl
@[simp] theorem State.updHold_ctxs (s : State) (q : Nat) (f : QueueHold → QueueHold) : (s.updHold q f).ctxs = s.ctxs := rfl
@[simp] theorem State.updHold_cores (s : State) (q : Nat) (f : QueueHold → QueueHold) : (s.updHold q f).cores = s.cores := rfl
@[simp] theorem State.updHold_clusters (s : State) (q : Nat) (f : QueueHold → QueueHold) : (s.updHold q f).clusters = s.clusters := rfl
@[simp] theorem State.updHold_groups (s : State) (q : Nat) (f : QueueHold → QueueHold) : (s.updHold q f).groups = s.groups := rfl
@[simp] theorem State.updHold_nextGroup (s : State) (q : Nat) (f : QueueHold → QueueHold) : (s.updHold q f).nextGroup = s.nextGroup := rfl
@[simp] theorem State.updHold_dies (s : State) (q : Nat) (f : QueueHold → QueueHold) : (s.updHold q f).dies = s.dies := rfl
@[simp] theorem State.updHold_mem (s : State) (q : Nat) (f : QueueHold → QueueHold) : (s.updHold q f).mem = s.mem := rfl
@[simp] theorem State.updHold_poisoned (s : State) (q : Nat) (f : QueueHold → QueueHold) : (s.updHold q f).poisoned = s.poisoned := rfl
@[simp] theorem State.updHold_stamps (s : State) (q : Nat) (f : QueueHold → QueueHold) : (s.updHold q f).stamps = s.stamps := rfl
@[simp] theorem State.updHold_partials (s : State) (q : Nat) (f : QueueHold → QueueHold) : (s.updHold q f).partials = s.partials := rfl
@[simp] theorem State.updHold_modified (s : State) (q : Nat) (f : QueueHold → QueueHold) : (s.updHold q f).modified = s.modified := rfl
@[simp] theorem State.updHold_doorbells (s : State) (q : Nat) (f : QueueHold → QueueHold) : (s.updHold q f).doorbells = s.doorbells := rfl
@[simp] theorem State.updHold_imageRecords (s : State) (q : Nat) (f : QueueHold → QueueHold) : (s.updHold q f).imageRecords = s.imageRecords := rfl
@[simp] theorem State.updHold_commands (s : State) (q : Nat) (f : QueueHold → QueueHold) : (s.updHold q f).commands = s.commands := rfl
@[simp] theorem State.updHold_nextCommand (s : State) (q : Nat) (f : QueueHold → QueueHold) : (s.updHold q f).nextCommand = s.nextCommand := rfl
@[simp] theorem State.updHold_engine (s : State) (q : Nat) (f : QueueHold → QueueHold) : (s.updHold q f).engine = s.engine := rfl
@[simp] theorem State.updHold_nextEngine (s : State) (q : Nat) (f : QueueHold → QueueHold) : (s.updHold q f).nextEngine = s.nextEngine := rfl
@[simp] theorem State.updHold_heldOps (s : State) (q : Nat) (f : QueueHold → QueueHold) : (s.updHold q f).heldOps = s.heldOps := rfl
@[simp] theorem State.updHold_regions (s : State) (q : Nat) (f : QueueHold → QueueHold) : (s.updHold q f).regions = s.regions := rfl
@[simp] theorem State.updHold_residency (s : State) (q : Nat) (f : QueueHold → QueueHold) : (s.updHold q f).residency = s.residency := rfl
@[simp] theorem State.updHold_frames (s : State) (q : Nat) (f : QueueHold → QueueHold) : (s.updHold q f).frames = s.frames := rfl
@[simp] theorem State.updHold_pool (s : State) (q : Nat) (f : QueueHold → QueueHold) : (s.updHold q f).pool = s.pool := rfl
@[simp] theorem State.updHold_asids (s : State) (q : Nat) (f : QueueHold → QueueHold) : (s.updHold q f).asids = s.asids := rfl
@[simp] theorem State.updHold_turnPath (s : State) (q : Nat) (f : QueueHold → QueueHold) : (s.updHold q f).turnPath = s.turnPath := rfl
@[simp] theorem State.updHold_turnSince (s : State) (q : Nat) (f : QueueHold → QueueHold) : (s.updHold q f).turnSince = s.turnSince := rfl
@[simp] theorem State.updHold_bases (s : State) (q : Nat) (f : QueueHold → QueueHold) : (s.updHold q f).bases = s.bases := rfl
@[simp] theorem State.updHold_tblQueue (s : State) (q : Nat) (f : QueueHold → QueueHold) : (s.updHold q f).tblQueue = s.tblQueue := rfl
@[simp] theorem State.updHold_tblCount (s : State) (q : Nat) (f : QueueHold → QueueHold) : (s.updHold q f).tblCount = s.tblCount := rfl
@[simp] theorem State.updHold_tblError (s : State) (q : Nat) (f : QueueHold → QueueHold) : (s.updHold q f).tblError = s.tblError := rfl
@[simp] theorem State.updHold_tblIndex (s : State) (q : Nat) (f : QueueHold → QueueHold) : (s.updHold q f).tblIndex = s.tblIndex := rfl
@[simp] theorem State.updHold_ready (s : State) (q : Nat) (f : QueueHold → QueueHold) : (s.updHold q f).ready = s.ready := rfl
@[simp] theorem State.updHold_counters (s : State) (q : Nat) (f : QueueHold → QueueHold) : (s.updHold q f).counters = s.counters := rfl
@[simp] theorem State.updHold_traces (s : State) (q : Nat) (f : QueueHold → QueueHold) : (s.updHold q f).traces = s.traces := rfl
@[simp] theorem State.updHold_bootStatus (s : State) (q : Nat) (f : QueueHold → QueueHold) : (s.updHold q f).bootStatus = s.bootStatus := rfl
@[simp] theorem State.updHold_devid (s : State) (q : Nat) (f : QueueHold → QueueHold) : (s.updHold q f).devid = s.devid := rfl
@[simp] theorem State.updHold_govlim (s : State) (q : Nat) (f : QueueHold → QueueHold) : (s.updHold q f).govlim = s.govlim := rfl
@[simp] theorem State.updHold_govCurrent (s : State) (q : Nat) (f : QueueHold → QueueHold) : (s.updHold q f).govCurrent = s.govCurrent := rfl
@[simp] theorem State.updHold_govHeld (s : State) (q : Nat) (f : QueueHold → QueueHold) : (s.updHold q f).govHeld = s.govHeld := rfl
@[simp] theorem State.updHold_routes (s : State) (q : Nat) (f : QueueHold → QueueHold) : (s.updHold q f).routes = s.routes := rfl
@[simp] theorem State.updHold_inbound (s : State) (q : Nat) (f : QueueHold → QueueHold) : (s.updHold q f).inbound = s.inbound := rfl
@[simp] theorem State.updHold_rails (s : State) (q : Nat) (f : QueueHold → QueueHold) : (s.updHold q f).rails = s.rails := rfl
@[simp] theorem State.updHold_rootUp (s : State) (q : Nat) (f : QueueHold → QueueHold) : (s.updHold q f).rootUp = s.rootUp := rfl
@[simp] theorem State.updHold_hostUp (s : State) (q : Nat) (f : QueueHold → QueueHold) : (s.updHold q f).hostUp = s.hostUp := rfl
@[simp] theorem State.updHold_cxlCache (s : State) (q : Nat) (f : QueueHold → QueueHold) : (s.updHold q f).cxlCache = s.cxlCache := rfl
@[simp] theorem State.updHold_tested (s : State) (q : Nat) (f : QueueHold → QueueHold) : (s.updHold q f).tested = s.tested := rfl
@[simp] theorem State.updHold_healthy (s : State) (q : Nat) (f : QueueHold → QueueHold) : (s.updHold q f).healthy = s.healthy := rfl
@[simp] theorem State.updHold_rounds (s : State) (q : Nat) (f : QueueHold → QueueHold) : (s.updHold q f).rounds = s.rounds := rfl
@[simp] theorem State.updHold_mailbox (s : State) (q : Nat) (f : QueueHold → QueueHold) : (s.updHold q f).mailbox = s.mailbox := rfl
@[simp] theorem State.updHold_mr (s : State) (q : Nat) (f : QueueHold → QueueHold) : (s.updHold q f).mr = s.mr := rfl
@[simp] theorem State.updHold_securityDie (s : State) (q : Nat) (f : QueueHold → QueueHold) : (s.updHold q f).securityDie = s.securityDie := rfl
@[simp] theorem State.updHold_spdm (s : State) (q : Nat) (f : QueueHold → QueueHold) : (s.updHold q f).spdm = s.spdm := rfl
@[simp] theorem State.updHold_ideKeys (s : State) (q : Nat) (f : QueueHold → QueueHold) : (s.updHold q f).ideKeys = s.ideKeys := rfl
@[simp] theorem State.updHold_debugWork (s : State) (q : Nat) (f : QueueHold → QueueHold) : (s.updHold q f).debugWork = s.debugWork := rfl
@[simp] theorem State.updHold_govHolds (s : State) (q : Nat) (f : QueueHold → QueueHold) : (s.updHold q f).govHolds = s.govHolds := rfl
@[simp] theorem State.updHold_govMicro (s : State) (q : Nat) (f : QueueHold → QueueHold) : (s.updHold q f).govMicro = s.govMicro := rfl
@[simp] theorem State.updHold_rideSent (s : State) (q : Nat) (f : QueueHold → QueueHold) : (s.updHold q f).rideSent = s.rideSent := rfl
@[simp] theorem State.updHold_rideSeen (s : State) (q : Nat) (f : QueueHold → QueueHold) : (s.updHold q f).rideSeen = s.rideSeen := rfl
@[simp] theorem State.updHold_rideRefused (s : State) (q : Nat) (f : QueueHold → QueueHold) : (s.updHold q f).rideRefused = s.rideRefused := rfl

@[simp] theorem State.setReady_clk (s : State) (w b : Nat) (v : Bool) : (s.setReady w b v).clk = s.clk := rfl
@[simp] theorem State.setReady_free (s : State) (w b : Nat) (v : Bool) : (s.setReady w b v).free = s.free := rfl
@[simp] theorem State.setReady_turn (s : State) (w b : Nat) (v : Bool) : (s.setReady w b v).turn = s.turn := rfl
@[simp] theorem State.setReady_inputs (s : State) (w b : Nat) (v : Bool) : (s.setReady w b v).inputs = s.inputs := rfl
@[simp] theorem State.setReady_outputs (s : State) (w b : Nat) (v : Bool) : (s.setReady w b v).outputs = s.outputs := rfl
@[simp] theorem State.setReady_ctxs (s : State) (w b : Nat) (v : Bool) : (s.setReady w b v).ctxs = s.ctxs := rfl
@[simp] theorem State.setReady_cores (s : State) (w b : Nat) (v : Bool) : (s.setReady w b v).cores = s.cores := rfl
@[simp] theorem State.setReady_clusters (s : State) (w b : Nat) (v : Bool) : (s.setReady w b v).clusters = s.clusters := rfl
@[simp] theorem State.setReady_groups (s : State) (w b : Nat) (v : Bool) : (s.setReady w b v).groups = s.groups := rfl
@[simp] theorem State.setReady_nextGroup (s : State) (w b : Nat) (v : Bool) : (s.setReady w b v).nextGroup = s.nextGroup := rfl
@[simp] theorem State.setReady_dies (s : State) (w b : Nat) (v : Bool) : (s.setReady w b v).dies = s.dies := rfl
@[simp] theorem State.setReady_mem (s : State) (w b : Nat) (v : Bool) : (s.setReady w b v).mem = s.mem := rfl
@[simp] theorem State.setReady_poisoned (s : State) (w b : Nat) (v : Bool) : (s.setReady w b v).poisoned = s.poisoned := rfl
@[simp] theorem State.setReady_stamps (s : State) (w b : Nat) (v : Bool) : (s.setReady w b v).stamps = s.stamps := rfl
@[simp] theorem State.setReady_partials (s : State) (w b : Nat) (v : Bool) : (s.setReady w b v).partials = s.partials := rfl
@[simp] theorem State.setReady_modified (s : State) (w b : Nat) (v : Bool) : (s.setReady w b v).modified = s.modified := rfl
@[simp] theorem State.setReady_doorbells (s : State) (w b : Nat) (v : Bool) : (s.setReady w b v).doorbells = s.doorbells := rfl
@[simp] theorem State.setReady_imageRecords (s : State) (w b : Nat) (v : Bool) : (s.setReady w b v).imageRecords = s.imageRecords := rfl
@[simp] theorem State.setReady_commands (s : State) (w b : Nat) (v : Bool) : (s.setReady w b v).commands = s.commands := rfl
@[simp] theorem State.setReady_nextCommand (s : State) (w b : Nat) (v : Bool) : (s.setReady w b v).nextCommand = s.nextCommand := rfl
@[simp] theorem State.setReady_engine (s : State) (w b : Nat) (v : Bool) : (s.setReady w b v).engine = s.engine := rfl
@[simp] theorem State.setReady_nextEngine (s : State) (w b : Nat) (v : Bool) : (s.setReady w b v).nextEngine = s.nextEngine := rfl
@[simp] theorem State.setReady_queues (s : State) (w b : Nat) (v : Bool) : (s.setReady w b v).queues = s.queues := rfl
@[simp] theorem State.setReady_heldOps (s : State) (w b : Nat) (v : Bool) : (s.setReady w b v).heldOps = s.heldOps := rfl
@[simp] theorem State.setReady_regions (s : State) (w b : Nat) (v : Bool) : (s.setReady w b v).regions = s.regions := rfl
@[simp] theorem State.setReady_residency (s : State) (w b : Nat) (v : Bool) : (s.setReady w b v).residency = s.residency := rfl
@[simp] theorem State.setReady_frames (s : State) (w b : Nat) (v : Bool) : (s.setReady w b v).frames = s.frames := rfl
@[simp] theorem State.setReady_pool (s : State) (w b : Nat) (v : Bool) : (s.setReady w b v).pool = s.pool := rfl
@[simp] theorem State.setReady_asids (s : State) (w b : Nat) (v : Bool) : (s.setReady w b v).asids = s.asids := rfl
@[simp] theorem State.setReady_turnPath (s : State) (w b : Nat) (v : Bool) : (s.setReady w b v).turnPath = s.turnPath := rfl
@[simp] theorem State.setReady_turnSince (s : State) (w b : Nat) (v : Bool) : (s.setReady w b v).turnSince = s.turnSince := rfl
@[simp] theorem State.setReady_bases (s : State) (w b : Nat) (v : Bool) : (s.setReady w b v).bases = s.bases := rfl
@[simp] theorem State.setReady_tblQueue (s : State) (w b : Nat) (v : Bool) : (s.setReady w b v).tblQueue = s.tblQueue := rfl
@[simp] theorem State.setReady_tblCount (s : State) (w b : Nat) (v : Bool) : (s.setReady w b v).tblCount = s.tblCount := rfl
@[simp] theorem State.setReady_tblError (s : State) (w b : Nat) (v : Bool) : (s.setReady w b v).tblError = s.tblError := rfl
@[simp] theorem State.setReady_tblIndex (s : State) (w b : Nat) (v : Bool) : (s.setReady w b v).tblIndex = s.tblIndex := rfl
@[simp] theorem State.setReady_counters (s : State) (w b : Nat) (v : Bool) : (s.setReady w b v).counters = s.counters := rfl
@[simp] theorem State.setReady_traces (s : State) (w b : Nat) (v : Bool) : (s.setReady w b v).traces = s.traces := rfl
@[simp] theorem State.setReady_bootStatus (s : State) (w b : Nat) (v : Bool) : (s.setReady w b v).bootStatus = s.bootStatus := rfl
@[simp] theorem State.setReady_devid (s : State) (w b : Nat) (v : Bool) : (s.setReady w b v).devid = s.devid := rfl
@[simp] theorem State.setReady_govlim (s : State) (w b : Nat) (v : Bool) : (s.setReady w b v).govlim = s.govlim := rfl
@[simp] theorem State.setReady_govCurrent (s : State) (w b : Nat) (v : Bool) : (s.setReady w b v).govCurrent = s.govCurrent := rfl
@[simp] theorem State.setReady_govHeld (s : State) (w b : Nat) (v : Bool) : (s.setReady w b v).govHeld = s.govHeld := rfl
@[simp] theorem State.setReady_routes (s : State) (w b : Nat) (v : Bool) : (s.setReady w b v).routes = s.routes := rfl
@[simp] theorem State.setReady_inbound (s : State) (w b : Nat) (v : Bool) : (s.setReady w b v).inbound = s.inbound := rfl
@[simp] theorem State.setReady_rails (s : State) (w b : Nat) (v : Bool) : (s.setReady w b v).rails = s.rails := rfl
@[simp] theorem State.setReady_rootUp (s : State) (w b : Nat) (v : Bool) : (s.setReady w b v).rootUp = s.rootUp := rfl
@[simp] theorem State.setReady_hostUp (s : State) (w b : Nat) (v : Bool) : (s.setReady w b v).hostUp = s.hostUp := rfl
@[simp] theorem State.setReady_cxlCache (s : State) (w b : Nat) (v : Bool) : (s.setReady w b v).cxlCache = s.cxlCache := rfl
@[simp] theorem State.setReady_tested (s : State) (w b : Nat) (v : Bool) : (s.setReady w b v).tested = s.tested := rfl
@[simp] theorem State.setReady_healthy (s : State) (w b : Nat) (v : Bool) : (s.setReady w b v).healthy = s.healthy := rfl
@[simp] theorem State.setReady_rounds (s : State) (w b : Nat) (v : Bool) : (s.setReady w b v).rounds = s.rounds := rfl
@[simp] theorem State.setReady_mailbox (s : State) (w b : Nat) (v : Bool) : (s.setReady w b v).mailbox = s.mailbox := rfl
@[simp] theorem State.setReady_mr (s : State) (w b : Nat) (v : Bool) : (s.setReady w b v).mr = s.mr := rfl
@[simp] theorem State.setReady_securityDie (s : State) (w b : Nat) (v : Bool) : (s.setReady w b v).securityDie = s.securityDie := rfl
@[simp] theorem State.setReady_spdm (s : State) (w b : Nat) (v : Bool) : (s.setReady w b v).spdm = s.spdm := rfl
@[simp] theorem State.setReady_ideKeys (s : State) (w b : Nat) (v : Bool) : (s.setReady w b v).ideKeys = s.ideKeys := rfl
@[simp] theorem State.setReady_debugWork (s : State) (w b : Nat) (v : Bool) : (s.setReady w b v).debugWork = s.debugWork := rfl
@[simp] theorem State.setReady_govHolds (s : State) (w b : Nat) (v : Bool) : (s.setReady w b v).govHolds = s.govHolds := rfl
@[simp] theorem State.setReady_govMicro (s : State) (w b : Nat) (v : Bool) : (s.setReady w b v).govMicro = s.govMicro := rfl
@[simp] theorem State.setReady_rideSent (s : State) (w b : Nat) (v : Bool) : (s.setReady w b v).rideSent = s.rideSent := rfl
@[simp] theorem State.setReady_rideSeen (s : State) (w b : Nat) (v : Bool) : (s.setReady w b v).rideSeen = s.rideSeen := rfl
@[simp] theorem State.setReady_rideRefused (s : State) (w b : Nat) (v : Bool) : (s.setReady w b v).rideRefused = s.rideRefused := rfl

@[simp] theorem State.count_clk (s : State) (n m : Nat) : (s.count n m).clk = s.clk := rfl
@[simp] theorem State.count_free (s : State) (n m : Nat) : (s.count n m).free = s.free := rfl
@[simp] theorem State.count_turn (s : State) (n m : Nat) : (s.count n m).turn = s.turn := rfl
@[simp] theorem State.count_inputs (s : State) (n m : Nat) : (s.count n m).inputs = s.inputs := rfl
@[simp] theorem State.count_outputs (s : State) (n m : Nat) : (s.count n m).outputs = s.outputs := rfl
@[simp] theorem State.count_ctxs (s : State) (n m : Nat) : (s.count n m).ctxs = s.ctxs := rfl
@[simp] theorem State.count_cores (s : State) (n m : Nat) : (s.count n m).cores = s.cores := rfl
@[simp] theorem State.count_clusters (s : State) (n m : Nat) : (s.count n m).clusters = s.clusters := rfl
@[simp] theorem State.count_groups (s : State) (n m : Nat) : (s.count n m).groups = s.groups := rfl
@[simp] theorem State.count_nextGroup (s : State) (n m : Nat) : (s.count n m).nextGroup = s.nextGroup := rfl
@[simp] theorem State.count_dies (s : State) (n m : Nat) : (s.count n m).dies = s.dies := rfl
@[simp] theorem State.count_mem (s : State) (n m : Nat) : (s.count n m).mem = s.mem := rfl
@[simp] theorem State.count_poisoned (s : State) (n m : Nat) : (s.count n m).poisoned = s.poisoned := rfl
@[simp] theorem State.count_stamps (s : State) (n m : Nat) : (s.count n m).stamps = s.stamps := rfl
@[simp] theorem State.count_partials (s : State) (n m : Nat) : (s.count n m).partials = s.partials := rfl
@[simp] theorem State.count_modified (s : State) (n m : Nat) : (s.count n m).modified = s.modified := rfl
@[simp] theorem State.count_doorbells (s : State) (n m : Nat) : (s.count n m).doorbells = s.doorbells := rfl
@[simp] theorem State.count_imageRecords (s : State) (n m : Nat) : (s.count n m).imageRecords = s.imageRecords := rfl
@[simp] theorem State.count_commands (s : State) (n m : Nat) : (s.count n m).commands = s.commands := rfl
@[simp] theorem State.count_nextCommand (s : State) (n m : Nat) : (s.count n m).nextCommand = s.nextCommand := rfl
@[simp] theorem State.count_engine (s : State) (n m : Nat) : (s.count n m).engine = s.engine := rfl
@[simp] theorem State.count_nextEngine (s : State) (n m : Nat) : (s.count n m).nextEngine = s.nextEngine := rfl
@[simp] theorem State.count_queues (s : State) (n m : Nat) : (s.count n m).queues = s.queues := rfl
@[simp] theorem State.count_heldOps (s : State) (n m : Nat) : (s.count n m).heldOps = s.heldOps := rfl
@[simp] theorem State.count_regions (s : State) (n m : Nat) : (s.count n m).regions = s.regions := rfl
@[simp] theorem State.count_residency (s : State) (n m : Nat) : (s.count n m).residency = s.residency := rfl
@[simp] theorem State.count_frames (s : State) (n m : Nat) : (s.count n m).frames = s.frames := rfl
@[simp] theorem State.count_pool (s : State) (n m : Nat) : (s.count n m).pool = s.pool := rfl
@[simp] theorem State.count_asids (s : State) (n m : Nat) : (s.count n m).asids = s.asids := rfl
@[simp] theorem State.count_turnPath (s : State) (n m : Nat) : (s.count n m).turnPath = s.turnPath := rfl
@[simp] theorem State.count_turnSince (s : State) (n m : Nat) : (s.count n m).turnSince = s.turnSince := rfl
@[simp] theorem State.count_bases (s : State) (n m : Nat) : (s.count n m).bases = s.bases := rfl
@[simp] theorem State.count_tblQueue (s : State) (n m : Nat) : (s.count n m).tblQueue = s.tblQueue := rfl
@[simp] theorem State.count_tblCount (s : State) (n m : Nat) : (s.count n m).tblCount = s.tblCount := rfl
@[simp] theorem State.count_tblError (s : State) (n m : Nat) : (s.count n m).tblError = s.tblError := rfl
@[simp] theorem State.count_tblIndex (s : State) (n m : Nat) : (s.count n m).tblIndex = s.tblIndex := rfl
@[simp] theorem State.count_ready (s : State) (n m : Nat) : (s.count n m).ready = s.ready := rfl
@[simp] theorem State.count_traces (s : State) (n m : Nat) : (s.count n m).traces = s.traces := rfl
@[simp] theorem State.count_bootStatus (s : State) (n m : Nat) : (s.count n m).bootStatus = s.bootStatus := rfl
@[simp] theorem State.count_devid (s : State) (n m : Nat) : (s.count n m).devid = s.devid := rfl
@[simp] theorem State.count_govlim (s : State) (n m : Nat) : (s.count n m).govlim = s.govlim := rfl
@[simp] theorem State.count_govCurrent (s : State) (n m : Nat) : (s.count n m).govCurrent = s.govCurrent := rfl
@[simp] theorem State.count_govHeld (s : State) (n m : Nat) : (s.count n m).govHeld = s.govHeld := rfl
@[simp] theorem State.count_routes (s : State) (n m : Nat) : (s.count n m).routes = s.routes := rfl
@[simp] theorem State.count_inbound (s : State) (n m : Nat) : (s.count n m).inbound = s.inbound := rfl
@[simp] theorem State.count_rails (s : State) (n m : Nat) : (s.count n m).rails = s.rails := rfl
@[simp] theorem State.count_rootUp (s : State) (n m : Nat) : (s.count n m).rootUp = s.rootUp := rfl
@[simp] theorem State.count_hostUp (s : State) (n m : Nat) : (s.count n m).hostUp = s.hostUp := rfl
@[simp] theorem State.count_cxlCache (s : State) (n m : Nat) : (s.count n m).cxlCache = s.cxlCache := rfl
@[simp] theorem State.count_tested (s : State) (n m : Nat) : (s.count n m).tested = s.tested := rfl
@[simp] theorem State.count_healthy (s : State) (n m : Nat) : (s.count n m).healthy = s.healthy := rfl
@[simp] theorem State.count_rounds (s : State) (n m : Nat) : (s.count n m).rounds = s.rounds := rfl
@[simp] theorem State.count_mailbox (s : State) (n m : Nat) : (s.count n m).mailbox = s.mailbox := rfl
@[simp] theorem State.count_mr (s : State) (n m : Nat) : (s.count n m).mr = s.mr := rfl
@[simp] theorem State.count_securityDie (s : State) (n m : Nat) : (s.count n m).securityDie = s.securityDie := rfl
@[simp] theorem State.count_spdm (s : State) (n m : Nat) : (s.count n m).spdm = s.spdm := rfl
@[simp] theorem State.count_ideKeys (s : State) (n m : Nat) : (s.count n m).ideKeys = s.ideKeys := rfl
@[simp] theorem State.count_debugWork (s : State) (n m : Nat) : (s.count n m).debugWork = s.debugWork := rfl
@[simp] theorem State.count_govHolds (s : State) (n m : Nat) : (s.count n m).govHolds = s.govHolds := rfl
@[simp] theorem State.count_govMicro (s : State) (n m : Nat) : (s.count n m).govMicro = s.govMicro := rfl
@[simp] theorem State.count_rideSent (s : State) (n m : Nat) : (s.count n m).rideSent = s.rideSent := rfl
@[simp] theorem State.count_rideSeen (s : State) (n m : Nat) : (s.count n m).rideSeen = s.rideSeen := rfl
@[simp] theorem State.count_rideRefused (s : State) (n m : Nat) : (s.count n m).rideRefused = s.rideRefused := rfl

@[simp] theorem State.updGroup_clk (s : State) (g : Nat) (f : Group → Group) : (s.updGroup g f).clk = s.clk := by
  unfold State.updGroup; split <;> rfl
@[simp] theorem State.updGroup_free (s : State) (g : Nat) (f : Group → Group) : (s.updGroup g f).free = s.free := by
  unfold State.updGroup; split <;> rfl
@[simp] theorem State.updGroup_turn (s : State) (g : Nat) (f : Group → Group) : (s.updGroup g f).turn = s.turn := by
  unfold State.updGroup; split <;> rfl
@[simp] theorem State.updGroup_inputs (s : State) (g : Nat) (f : Group → Group) : (s.updGroup g f).inputs = s.inputs := by
  unfold State.updGroup; split <;> rfl
@[simp] theorem State.updGroup_outputs (s : State) (g : Nat) (f : Group → Group) : (s.updGroup g f).outputs = s.outputs := by
  unfold State.updGroup; split <;> rfl
@[simp] theorem State.updGroup_ctxs (s : State) (g : Nat) (f : Group → Group) : (s.updGroup g f).ctxs = s.ctxs := by
  unfold State.updGroup; split <;> rfl
@[simp] theorem State.updGroup_cores (s : State) (g : Nat) (f : Group → Group) : (s.updGroup g f).cores = s.cores := by
  unfold State.updGroup; split <;> rfl
@[simp] theorem State.updGroup_clusters (s : State) (g : Nat) (f : Group → Group) : (s.updGroup g f).clusters = s.clusters := by
  unfold State.updGroup; split <;> rfl
@[simp] theorem State.updGroup_nextGroup (s : State) (g : Nat) (f : Group → Group) : (s.updGroup g f).nextGroup = s.nextGroup := by
  unfold State.updGroup; split <;> rfl
@[simp] theorem State.updGroup_dies (s : State) (g : Nat) (f : Group → Group) : (s.updGroup g f).dies = s.dies := by
  unfold State.updGroup; split <;> rfl
@[simp] theorem State.updGroup_mem (s : State) (g : Nat) (f : Group → Group) : (s.updGroup g f).mem = s.mem := by
  unfold State.updGroup; split <;> rfl
@[simp] theorem State.updGroup_poisoned (s : State) (g : Nat) (f : Group → Group) : (s.updGroup g f).poisoned = s.poisoned := by
  unfold State.updGroup; split <;> rfl
@[simp] theorem State.updGroup_stamps (s : State) (g : Nat) (f : Group → Group) : (s.updGroup g f).stamps = s.stamps := by
  unfold State.updGroup; split <;> rfl
@[simp] theorem State.updGroup_partials (s : State) (g : Nat) (f : Group → Group) : (s.updGroup g f).partials = s.partials := by
  unfold State.updGroup; split <;> rfl
@[simp] theorem State.updGroup_modified (s : State) (g : Nat) (f : Group → Group) : (s.updGroup g f).modified = s.modified := by
  unfold State.updGroup; split <;> rfl
@[simp] theorem State.updGroup_doorbells (s : State) (g : Nat) (f : Group → Group) : (s.updGroup g f).doorbells = s.doorbells := by
  unfold State.updGroup; split <;> rfl
@[simp] theorem State.updGroup_imageRecords (s : State) (g : Nat) (f : Group → Group) : (s.updGroup g f).imageRecords = s.imageRecords := by
  unfold State.updGroup; split <;> rfl
@[simp] theorem State.updGroup_commands (s : State) (g : Nat) (f : Group → Group) : (s.updGroup g f).commands = s.commands := by
  unfold State.updGroup; split <;> rfl
@[simp] theorem State.updGroup_nextCommand (s : State) (g : Nat) (f : Group → Group) : (s.updGroup g f).nextCommand = s.nextCommand := by
  unfold State.updGroup; split <;> rfl
@[simp] theorem State.updGroup_engine (s : State) (g : Nat) (f : Group → Group) : (s.updGroup g f).engine = s.engine := by
  unfold State.updGroup; split <;> rfl
@[simp] theorem State.updGroup_nextEngine (s : State) (g : Nat) (f : Group → Group) : (s.updGroup g f).nextEngine = s.nextEngine := by
  unfold State.updGroup; split <;> rfl
@[simp] theorem State.updGroup_queues (s : State) (g : Nat) (f : Group → Group) : (s.updGroup g f).queues = s.queues := by
  unfold State.updGroup; split <;> rfl
@[simp] theorem State.updGroup_heldOps (s : State) (g : Nat) (f : Group → Group) : (s.updGroup g f).heldOps = s.heldOps := by
  unfold State.updGroup; split <;> rfl
@[simp] theorem State.updGroup_regions (s : State) (g : Nat) (f : Group → Group) : (s.updGroup g f).regions = s.regions := by
  unfold State.updGroup; split <;> rfl
@[simp] theorem State.updGroup_residency (s : State) (g : Nat) (f : Group → Group) : (s.updGroup g f).residency = s.residency := by
  unfold State.updGroup; split <;> rfl
@[simp] theorem State.updGroup_frames (s : State) (g : Nat) (f : Group → Group) : (s.updGroup g f).frames = s.frames := by
  unfold State.updGroup; split <;> rfl
@[simp] theorem State.updGroup_pool (s : State) (g : Nat) (f : Group → Group) : (s.updGroup g f).pool = s.pool := by
  unfold State.updGroup; split <;> rfl
@[simp] theorem State.updGroup_asids (s : State) (g : Nat) (f : Group → Group) : (s.updGroup g f).asids = s.asids := by
  unfold State.updGroup; split <;> rfl
@[simp] theorem State.updGroup_turnPath (s : State) (g : Nat) (f : Group → Group) : (s.updGroup g f).turnPath = s.turnPath := by
  unfold State.updGroup; split <;> rfl
@[simp] theorem State.updGroup_turnSince (s : State) (g : Nat) (f : Group → Group) : (s.updGroup g f).turnSince = s.turnSince := by
  unfold State.updGroup; split <;> rfl
@[simp] theorem State.updGroup_bases (s : State) (g : Nat) (f : Group → Group) : (s.updGroup g f).bases = s.bases := by
  unfold State.updGroup; split <;> rfl
@[simp] theorem State.updGroup_tblQueue (s : State) (g : Nat) (f : Group → Group) : (s.updGroup g f).tblQueue = s.tblQueue := by
  unfold State.updGroup; split <;> rfl
@[simp] theorem State.updGroup_tblCount (s : State) (g : Nat) (f : Group → Group) : (s.updGroup g f).tblCount = s.tblCount := by
  unfold State.updGroup; split <;> rfl
@[simp] theorem State.updGroup_tblError (s : State) (g : Nat) (f : Group → Group) : (s.updGroup g f).tblError = s.tblError := by
  unfold State.updGroup; split <;> rfl
@[simp] theorem State.updGroup_tblIndex (s : State) (g : Nat) (f : Group → Group) : (s.updGroup g f).tblIndex = s.tblIndex := by
  unfold State.updGroup; split <;> rfl
@[simp] theorem State.updGroup_ready (s : State) (g : Nat) (f : Group → Group) : (s.updGroup g f).ready = s.ready := by
  unfold State.updGroup; split <;> rfl
@[simp] theorem State.updGroup_counters (s : State) (g : Nat) (f : Group → Group) : (s.updGroup g f).counters = s.counters := by
  unfold State.updGroup; split <;> rfl
@[simp] theorem State.updGroup_traces (s : State) (g : Nat) (f : Group → Group) : (s.updGroup g f).traces = s.traces := by
  unfold State.updGroup; split <;> rfl
@[simp] theorem State.updGroup_bootStatus (s : State) (g : Nat) (f : Group → Group) : (s.updGroup g f).bootStatus = s.bootStatus := by
  unfold State.updGroup; split <;> rfl
@[simp] theorem State.updGroup_devid (s : State) (g : Nat) (f : Group → Group) : (s.updGroup g f).devid = s.devid := by
  unfold State.updGroup; split <;> rfl
@[simp] theorem State.updGroup_govlim (s : State) (g : Nat) (f : Group → Group) : (s.updGroup g f).govlim = s.govlim := by
  unfold State.updGroup; split <;> rfl
@[simp] theorem State.updGroup_govCurrent (s : State) (g : Nat) (f : Group → Group) : (s.updGroup g f).govCurrent = s.govCurrent := by
  unfold State.updGroup; split <;> rfl
@[simp] theorem State.updGroup_govHeld (s : State) (g : Nat) (f : Group → Group) : (s.updGroup g f).govHeld = s.govHeld := by
  unfold State.updGroup; split <;> rfl
@[simp] theorem State.updGroup_routes (s : State) (g : Nat) (f : Group → Group) : (s.updGroup g f).routes = s.routes := by
  unfold State.updGroup; split <;> rfl
@[simp] theorem State.updGroup_inbound (s : State) (g : Nat) (f : Group → Group) : (s.updGroup g f).inbound = s.inbound := by
  unfold State.updGroup; split <;> rfl
@[simp] theorem State.updGroup_rails (s : State) (g : Nat) (f : Group → Group) : (s.updGroup g f).rails = s.rails := by
  unfold State.updGroup; split <;> rfl
@[simp] theorem State.updGroup_rootUp (s : State) (g : Nat) (f : Group → Group) : (s.updGroup g f).rootUp = s.rootUp := by
  unfold State.updGroup; split <;> rfl
@[simp] theorem State.updGroup_hostUp (s : State) (g : Nat) (f : Group → Group) : (s.updGroup g f).hostUp = s.hostUp := by
  unfold State.updGroup; split <;> rfl
@[simp] theorem State.updGroup_cxlCache (s : State) (g : Nat) (f : Group → Group) : (s.updGroup g f).cxlCache = s.cxlCache := by
  unfold State.updGroup; split <;> rfl
@[simp] theorem State.updGroup_tested (s : State) (g : Nat) (f : Group → Group) : (s.updGroup g f).tested = s.tested := by
  unfold State.updGroup; split <;> rfl
@[simp] theorem State.updGroup_healthy (s : State) (g : Nat) (f : Group → Group) : (s.updGroup g f).healthy = s.healthy := by
  unfold State.updGroup; split <;> rfl
@[simp] theorem State.updGroup_rounds (s : State) (g : Nat) (f : Group → Group) : (s.updGroup g f).rounds = s.rounds := by
  unfold State.updGroup; split <;> rfl
@[simp] theorem State.updGroup_mailbox (s : State) (g : Nat) (f : Group → Group) : (s.updGroup g f).mailbox = s.mailbox := by
  unfold State.updGroup; split <;> rfl
@[simp] theorem State.updGroup_mr (s : State) (g : Nat) (f : Group → Group) : (s.updGroup g f).mr = s.mr := by
  unfold State.updGroup; split <;> rfl
@[simp] theorem State.updGroup_securityDie (s : State) (g : Nat) (f : Group → Group) : (s.updGroup g f).securityDie = s.securityDie := by
  unfold State.updGroup; split <;> rfl
@[simp] theorem State.updGroup_spdm (s : State) (g : Nat) (f : Group → Group) : (s.updGroup g f).spdm = s.spdm := by
  unfold State.updGroup; split <;> rfl
@[simp] theorem State.updGroup_ideKeys (s : State) (g : Nat) (f : Group → Group) : (s.updGroup g f).ideKeys = s.ideKeys := by
  unfold State.updGroup; split <;> rfl
@[simp] theorem State.updGroup_debugWork (s : State) (g : Nat) (f : Group → Group) : (s.updGroup g f).debugWork = s.debugWork := by
  unfold State.updGroup; split <;> rfl
@[simp] theorem State.updGroup_govHolds (s : State) (g : Nat) (f : Group → Group) : (s.updGroup g f).govHolds = s.govHolds := by
  unfold State.updGroup; split <;> rfl
@[simp] theorem State.updGroup_govMicro (s : State) (g : Nat) (f : Group → Group) : (s.updGroup g f).govMicro = s.govMicro := by
  unfold State.updGroup; split <;> rfl
@[simp] theorem State.updGroup_rideSent (s : State) (g : Nat) (f : Group → Group) : (s.updGroup g f).rideSent = s.rideSent := by
  unfold State.updGroup; split <;> rfl
@[simp] theorem State.updGroup_rideSeen (s : State) (g : Nat) (f : Group → Group) : (s.updGroup g f).rideSeen = s.rideSeen := by
  unfold State.updGroup; split <;> rfl
@[simp] theorem State.updGroup_rideRefused (s : State) (g : Nat) (f : Group → Group) : (s.updGroup g f).rideRefused = s.rideRefused := by
  unfold State.updGroup; split <;> rfl

@[simp] theorem State.updEngine_clk (s : State) (n : Nat) (f : EngineCmd → EngineCmd) : (s.updEngine n f).clk = s.clk := by
  unfold State.updEngine; split <;> rfl
@[simp] theorem State.updEngine_free (s : State) (n : Nat) (f : EngineCmd → EngineCmd) : (s.updEngine n f).free = s.free := by
  unfold State.updEngine; split <;> rfl
@[simp] theorem State.updEngine_turn (s : State) (n : Nat) (f : EngineCmd → EngineCmd) : (s.updEngine n f).turn = s.turn := by
  unfold State.updEngine; split <;> rfl
@[simp] theorem State.updEngine_inputs (s : State) (n : Nat) (f : EngineCmd → EngineCmd) : (s.updEngine n f).inputs = s.inputs := by
  unfold State.updEngine; split <;> rfl
@[simp] theorem State.updEngine_outputs (s : State) (n : Nat) (f : EngineCmd → EngineCmd) : (s.updEngine n f).outputs = s.outputs := by
  unfold State.updEngine; split <;> rfl
@[simp] theorem State.updEngine_ctxs (s : State) (n : Nat) (f : EngineCmd → EngineCmd) : (s.updEngine n f).ctxs = s.ctxs := by
  unfold State.updEngine; split <;> rfl
@[simp] theorem State.updEngine_cores (s : State) (n : Nat) (f : EngineCmd → EngineCmd) : (s.updEngine n f).cores = s.cores := by
  unfold State.updEngine; split <;> rfl
@[simp] theorem State.updEngine_clusters (s : State) (n : Nat) (f : EngineCmd → EngineCmd) : (s.updEngine n f).clusters = s.clusters := by
  unfold State.updEngine; split <;> rfl
@[simp] theorem State.updEngine_groups (s : State) (n : Nat) (f : EngineCmd → EngineCmd) : (s.updEngine n f).groups = s.groups := by
  unfold State.updEngine; split <;> rfl
@[simp] theorem State.updEngine_nextGroup (s : State) (n : Nat) (f : EngineCmd → EngineCmd) : (s.updEngine n f).nextGroup = s.nextGroup := by
  unfold State.updEngine; split <;> rfl
@[simp] theorem State.updEngine_dies (s : State) (n : Nat) (f : EngineCmd → EngineCmd) : (s.updEngine n f).dies = s.dies := by
  unfold State.updEngine; split <;> rfl
@[simp] theorem State.updEngine_mem (s : State) (n : Nat) (f : EngineCmd → EngineCmd) : (s.updEngine n f).mem = s.mem := by
  unfold State.updEngine; split <;> rfl
@[simp] theorem State.updEngine_poisoned (s : State) (n : Nat) (f : EngineCmd → EngineCmd) : (s.updEngine n f).poisoned = s.poisoned := by
  unfold State.updEngine; split <;> rfl
@[simp] theorem State.updEngine_stamps (s : State) (n : Nat) (f : EngineCmd → EngineCmd) : (s.updEngine n f).stamps = s.stamps := by
  unfold State.updEngine; split <;> rfl
@[simp] theorem State.updEngine_partials (s : State) (n : Nat) (f : EngineCmd → EngineCmd) : (s.updEngine n f).partials = s.partials := by
  unfold State.updEngine; split <;> rfl
@[simp] theorem State.updEngine_modified (s : State) (n : Nat) (f : EngineCmd → EngineCmd) : (s.updEngine n f).modified = s.modified := by
  unfold State.updEngine; split <;> rfl
@[simp] theorem State.updEngine_doorbells (s : State) (n : Nat) (f : EngineCmd → EngineCmd) : (s.updEngine n f).doorbells = s.doorbells := by
  unfold State.updEngine; split <;> rfl
@[simp] theorem State.updEngine_imageRecords (s : State) (n : Nat) (f : EngineCmd → EngineCmd) : (s.updEngine n f).imageRecords = s.imageRecords := by
  unfold State.updEngine; split <;> rfl
@[simp] theorem State.updEngine_commands (s : State) (n : Nat) (f : EngineCmd → EngineCmd) : (s.updEngine n f).commands = s.commands := by
  unfold State.updEngine; split <;> rfl
@[simp] theorem State.updEngine_nextCommand (s : State) (n : Nat) (f : EngineCmd → EngineCmd) : (s.updEngine n f).nextCommand = s.nextCommand := by
  unfold State.updEngine; split <;> rfl
@[simp] theorem State.updEngine_nextEngine (s : State) (n : Nat) (f : EngineCmd → EngineCmd) : (s.updEngine n f).nextEngine = s.nextEngine := by
  unfold State.updEngine; split <;> rfl
@[simp] theorem State.updEngine_queues (s : State) (n : Nat) (f : EngineCmd → EngineCmd) : (s.updEngine n f).queues = s.queues := by
  unfold State.updEngine; split <;> rfl
@[simp] theorem State.updEngine_heldOps (s : State) (n : Nat) (f : EngineCmd → EngineCmd) : (s.updEngine n f).heldOps = s.heldOps := by
  unfold State.updEngine; split <;> rfl
@[simp] theorem State.updEngine_regions (s : State) (n : Nat) (f : EngineCmd → EngineCmd) : (s.updEngine n f).regions = s.regions := by
  unfold State.updEngine; split <;> rfl
@[simp] theorem State.updEngine_residency (s : State) (n : Nat) (f : EngineCmd → EngineCmd) : (s.updEngine n f).residency = s.residency := by
  unfold State.updEngine; split <;> rfl
@[simp] theorem State.updEngine_frames (s : State) (n : Nat) (f : EngineCmd → EngineCmd) : (s.updEngine n f).frames = s.frames := by
  unfold State.updEngine; split <;> rfl
@[simp] theorem State.updEngine_pool (s : State) (n : Nat) (f : EngineCmd → EngineCmd) : (s.updEngine n f).pool = s.pool := by
  unfold State.updEngine; split <;> rfl
@[simp] theorem State.updEngine_asids (s : State) (n : Nat) (f : EngineCmd → EngineCmd) : (s.updEngine n f).asids = s.asids := by
  unfold State.updEngine; split <;> rfl
@[simp] theorem State.updEngine_turnPath (s : State) (n : Nat) (f : EngineCmd → EngineCmd) : (s.updEngine n f).turnPath = s.turnPath := by
  unfold State.updEngine; split <;> rfl
@[simp] theorem State.updEngine_turnSince (s : State) (n : Nat) (f : EngineCmd → EngineCmd) : (s.updEngine n f).turnSince = s.turnSince := by
  unfold State.updEngine; split <;> rfl
@[simp] theorem State.updEngine_bases (s : State) (n : Nat) (f : EngineCmd → EngineCmd) : (s.updEngine n f).bases = s.bases := by
  unfold State.updEngine; split <;> rfl
@[simp] theorem State.updEngine_tblQueue (s : State) (n : Nat) (f : EngineCmd → EngineCmd) : (s.updEngine n f).tblQueue = s.tblQueue := by
  unfold State.updEngine; split <;> rfl
@[simp] theorem State.updEngine_tblCount (s : State) (n : Nat) (f : EngineCmd → EngineCmd) : (s.updEngine n f).tblCount = s.tblCount := by
  unfold State.updEngine; split <;> rfl
@[simp] theorem State.updEngine_tblError (s : State) (n : Nat) (f : EngineCmd → EngineCmd) : (s.updEngine n f).tblError = s.tblError := by
  unfold State.updEngine; split <;> rfl
@[simp] theorem State.updEngine_tblIndex (s : State) (n : Nat) (f : EngineCmd → EngineCmd) : (s.updEngine n f).tblIndex = s.tblIndex := by
  unfold State.updEngine; split <;> rfl
@[simp] theorem State.updEngine_ready (s : State) (n : Nat) (f : EngineCmd → EngineCmd) : (s.updEngine n f).ready = s.ready := by
  unfold State.updEngine; split <;> rfl
@[simp] theorem State.updEngine_counters (s : State) (n : Nat) (f : EngineCmd → EngineCmd) : (s.updEngine n f).counters = s.counters := by
  unfold State.updEngine; split <;> rfl
@[simp] theorem State.updEngine_traces (s : State) (n : Nat) (f : EngineCmd → EngineCmd) : (s.updEngine n f).traces = s.traces := by
  unfold State.updEngine; split <;> rfl
@[simp] theorem State.updEngine_bootStatus (s : State) (n : Nat) (f : EngineCmd → EngineCmd) : (s.updEngine n f).bootStatus = s.bootStatus := by
  unfold State.updEngine; split <;> rfl
@[simp] theorem State.updEngine_devid (s : State) (n : Nat) (f : EngineCmd → EngineCmd) : (s.updEngine n f).devid = s.devid := by
  unfold State.updEngine; split <;> rfl
@[simp] theorem State.updEngine_govlim (s : State) (n : Nat) (f : EngineCmd → EngineCmd) : (s.updEngine n f).govlim = s.govlim := by
  unfold State.updEngine; split <;> rfl
@[simp] theorem State.updEngine_govCurrent (s : State) (n : Nat) (f : EngineCmd → EngineCmd) : (s.updEngine n f).govCurrent = s.govCurrent := by
  unfold State.updEngine; split <;> rfl
@[simp] theorem State.updEngine_govHeld (s : State) (n : Nat) (f : EngineCmd → EngineCmd) : (s.updEngine n f).govHeld = s.govHeld := by
  unfold State.updEngine; split <;> rfl
@[simp] theorem State.updEngine_routes (s : State) (n : Nat) (f : EngineCmd → EngineCmd) : (s.updEngine n f).routes = s.routes := by
  unfold State.updEngine; split <;> rfl
@[simp] theorem State.updEngine_inbound (s : State) (n : Nat) (f : EngineCmd → EngineCmd) : (s.updEngine n f).inbound = s.inbound := by
  unfold State.updEngine; split <;> rfl
@[simp] theorem State.updEngine_rails (s : State) (n : Nat) (f : EngineCmd → EngineCmd) : (s.updEngine n f).rails = s.rails := by
  unfold State.updEngine; split <;> rfl
@[simp] theorem State.updEngine_rootUp (s : State) (n : Nat) (f : EngineCmd → EngineCmd) : (s.updEngine n f).rootUp = s.rootUp := by
  unfold State.updEngine; split <;> rfl
@[simp] theorem State.updEngine_hostUp (s : State) (n : Nat) (f : EngineCmd → EngineCmd) : (s.updEngine n f).hostUp = s.hostUp := by
  unfold State.updEngine; split <;> rfl
@[simp] theorem State.updEngine_cxlCache (s : State) (n : Nat) (f : EngineCmd → EngineCmd) : (s.updEngine n f).cxlCache = s.cxlCache := by
  unfold State.updEngine; split <;> rfl
@[simp] theorem State.updEngine_tested (s : State) (n : Nat) (f : EngineCmd → EngineCmd) : (s.updEngine n f).tested = s.tested := by
  unfold State.updEngine; split <;> rfl
@[simp] theorem State.updEngine_healthy (s : State) (n : Nat) (f : EngineCmd → EngineCmd) : (s.updEngine n f).healthy = s.healthy := by
  unfold State.updEngine; split <;> rfl
@[simp] theorem State.updEngine_rounds (s : State) (n : Nat) (f : EngineCmd → EngineCmd) : (s.updEngine n f).rounds = s.rounds := by
  unfold State.updEngine; split <;> rfl
@[simp] theorem State.updEngine_mailbox (s : State) (n : Nat) (f : EngineCmd → EngineCmd) : (s.updEngine n f).mailbox = s.mailbox := by
  unfold State.updEngine; split <;> rfl
@[simp] theorem State.updEngine_mr (s : State) (n : Nat) (f : EngineCmd → EngineCmd) : (s.updEngine n f).mr = s.mr := by
  unfold State.updEngine; split <;> rfl
@[simp] theorem State.updEngine_securityDie (s : State) (n : Nat) (f : EngineCmd → EngineCmd) : (s.updEngine n f).securityDie = s.securityDie := by
  unfold State.updEngine; split <;> rfl
@[simp] theorem State.updEngine_spdm (s : State) (n : Nat) (f : EngineCmd → EngineCmd) : (s.updEngine n f).spdm = s.spdm := by
  unfold State.updEngine; split <;> rfl
@[simp] theorem State.updEngine_ideKeys (s : State) (n : Nat) (f : EngineCmd → EngineCmd) : (s.updEngine n f).ideKeys = s.ideKeys := by
  unfold State.updEngine; split <;> rfl
@[simp] theorem State.updEngine_debugWork (s : State) (n : Nat) (f : EngineCmd → EngineCmd) : (s.updEngine n f).debugWork = s.debugWork := by
  unfold State.updEngine; split <;> rfl
@[simp] theorem State.updEngine_govHolds (s : State) (n : Nat) (f : EngineCmd → EngineCmd) : (s.updEngine n f).govHolds = s.govHolds := by
  unfold State.updEngine; split <;> rfl
@[simp] theorem State.updEngine_govMicro (s : State) (n : Nat) (f : EngineCmd → EngineCmd) : (s.updEngine n f).govMicro = s.govMicro := by
  unfold State.updEngine; split <;> rfl
@[simp] theorem State.updEngine_rideSent (s : State) (n : Nat) (f : EngineCmd → EngineCmd) : (s.updEngine n f).rideSent = s.rideSent := by
  unfold State.updEngine; split <;> rfl
@[simp] theorem State.updEngine_rideSeen (s : State) (n : Nat) (f : EngineCmd → EngineCmd) : (s.updEngine n f).rideSeen = s.rideSeen := by
  unfold State.updEngine; split <;> rfl
@[simp] theorem State.updEngine_rideRefused (s : State) (n : Nat) (f : EngineCmd → EngineCmd) : (s.updEngine n f).rideRefused = s.rideRefused := by
  unfold State.updEngine; split <;> rfl

@[simp] theorem State.updCommand_clk (s : State) (n : Nat) (f : Command → Command) : (s.updCommand n f).clk = s.clk := by
  unfold State.updCommand; split <;> rfl
@[simp] theorem State.updCommand_free (s : State) (n : Nat) (f : Command → Command) : (s.updCommand n f).free = s.free := by
  unfold State.updCommand; split <;> rfl
@[simp] theorem State.updCommand_turn (s : State) (n : Nat) (f : Command → Command) : (s.updCommand n f).turn = s.turn := by
  unfold State.updCommand; split <;> rfl
@[simp] theorem State.updCommand_inputs (s : State) (n : Nat) (f : Command → Command) : (s.updCommand n f).inputs = s.inputs := by
  unfold State.updCommand; split <;> rfl
@[simp] theorem State.updCommand_outputs (s : State) (n : Nat) (f : Command → Command) : (s.updCommand n f).outputs = s.outputs := by
  unfold State.updCommand; split <;> rfl
@[simp] theorem State.updCommand_ctxs (s : State) (n : Nat) (f : Command → Command) : (s.updCommand n f).ctxs = s.ctxs := by
  unfold State.updCommand; split <;> rfl
@[simp] theorem State.updCommand_cores (s : State) (n : Nat) (f : Command → Command) : (s.updCommand n f).cores = s.cores := by
  unfold State.updCommand; split <;> rfl
@[simp] theorem State.updCommand_clusters (s : State) (n : Nat) (f : Command → Command) : (s.updCommand n f).clusters = s.clusters := by
  unfold State.updCommand; split <;> rfl
@[simp] theorem State.updCommand_groups (s : State) (n : Nat) (f : Command → Command) : (s.updCommand n f).groups = s.groups := by
  unfold State.updCommand; split <;> rfl
@[simp] theorem State.updCommand_nextGroup (s : State) (n : Nat) (f : Command → Command) : (s.updCommand n f).nextGroup = s.nextGroup := by
  unfold State.updCommand; split <;> rfl
@[simp] theorem State.updCommand_dies (s : State) (n : Nat) (f : Command → Command) : (s.updCommand n f).dies = s.dies := by
  unfold State.updCommand; split <;> rfl
@[simp] theorem State.updCommand_mem (s : State) (n : Nat) (f : Command → Command) : (s.updCommand n f).mem = s.mem := by
  unfold State.updCommand; split <;> rfl
@[simp] theorem State.updCommand_poisoned (s : State) (n : Nat) (f : Command → Command) : (s.updCommand n f).poisoned = s.poisoned := by
  unfold State.updCommand; split <;> rfl
@[simp] theorem State.updCommand_stamps (s : State) (n : Nat) (f : Command → Command) : (s.updCommand n f).stamps = s.stamps := by
  unfold State.updCommand; split <;> rfl
@[simp] theorem State.updCommand_partials (s : State) (n : Nat) (f : Command → Command) : (s.updCommand n f).partials = s.partials := by
  unfold State.updCommand; split <;> rfl
@[simp] theorem State.updCommand_modified (s : State) (n : Nat) (f : Command → Command) : (s.updCommand n f).modified = s.modified := by
  unfold State.updCommand; split <;> rfl
@[simp] theorem State.updCommand_doorbells (s : State) (n : Nat) (f : Command → Command) : (s.updCommand n f).doorbells = s.doorbells := by
  unfold State.updCommand; split <;> rfl
@[simp] theorem State.updCommand_imageRecords (s : State) (n : Nat) (f : Command → Command) : (s.updCommand n f).imageRecords = s.imageRecords := by
  unfold State.updCommand; split <;> rfl
@[simp] theorem State.updCommand_nextCommand (s : State) (n : Nat) (f : Command → Command) : (s.updCommand n f).nextCommand = s.nextCommand := by
  unfold State.updCommand; split <;> rfl
@[simp] theorem State.updCommand_engine (s : State) (n : Nat) (f : Command → Command) : (s.updCommand n f).engine = s.engine := by
  unfold State.updCommand; split <;> rfl
@[simp] theorem State.updCommand_nextEngine (s : State) (n : Nat) (f : Command → Command) : (s.updCommand n f).nextEngine = s.nextEngine := by
  unfold State.updCommand; split <;> rfl
@[simp] theorem State.updCommand_queues (s : State) (n : Nat) (f : Command → Command) : (s.updCommand n f).queues = s.queues := by
  unfold State.updCommand; split <;> rfl
@[simp] theorem State.updCommand_heldOps (s : State) (n : Nat) (f : Command → Command) : (s.updCommand n f).heldOps = s.heldOps := by
  unfold State.updCommand; split <;> rfl
@[simp] theorem State.updCommand_regions (s : State) (n : Nat) (f : Command → Command) : (s.updCommand n f).regions = s.regions := by
  unfold State.updCommand; split <;> rfl
@[simp] theorem State.updCommand_residency (s : State) (n : Nat) (f : Command → Command) : (s.updCommand n f).residency = s.residency := by
  unfold State.updCommand; split <;> rfl
@[simp] theorem State.updCommand_frames (s : State) (n : Nat) (f : Command → Command) : (s.updCommand n f).frames = s.frames := by
  unfold State.updCommand; split <;> rfl
@[simp] theorem State.updCommand_pool (s : State) (n : Nat) (f : Command → Command) : (s.updCommand n f).pool = s.pool := by
  unfold State.updCommand; split <;> rfl
@[simp] theorem State.updCommand_asids (s : State) (n : Nat) (f : Command → Command) : (s.updCommand n f).asids = s.asids := by
  unfold State.updCommand; split <;> rfl
@[simp] theorem State.updCommand_turnPath (s : State) (n : Nat) (f : Command → Command) : (s.updCommand n f).turnPath = s.turnPath := by
  unfold State.updCommand; split <;> rfl
@[simp] theorem State.updCommand_turnSince (s : State) (n : Nat) (f : Command → Command) : (s.updCommand n f).turnSince = s.turnSince := by
  unfold State.updCommand; split <;> rfl
@[simp] theorem State.updCommand_bases (s : State) (n : Nat) (f : Command → Command) : (s.updCommand n f).bases = s.bases := by
  unfold State.updCommand; split <;> rfl
@[simp] theorem State.updCommand_tblQueue (s : State) (n : Nat) (f : Command → Command) : (s.updCommand n f).tblQueue = s.tblQueue := by
  unfold State.updCommand; split <;> rfl
@[simp] theorem State.updCommand_tblCount (s : State) (n : Nat) (f : Command → Command) : (s.updCommand n f).tblCount = s.tblCount := by
  unfold State.updCommand; split <;> rfl
@[simp] theorem State.updCommand_tblError (s : State) (n : Nat) (f : Command → Command) : (s.updCommand n f).tblError = s.tblError := by
  unfold State.updCommand; split <;> rfl
@[simp] theorem State.updCommand_tblIndex (s : State) (n : Nat) (f : Command → Command) : (s.updCommand n f).tblIndex = s.tblIndex := by
  unfold State.updCommand; split <;> rfl
@[simp] theorem State.updCommand_ready (s : State) (n : Nat) (f : Command → Command) : (s.updCommand n f).ready = s.ready := by
  unfold State.updCommand; split <;> rfl
@[simp] theorem State.updCommand_counters (s : State) (n : Nat) (f : Command → Command) : (s.updCommand n f).counters = s.counters := by
  unfold State.updCommand; split <;> rfl
@[simp] theorem State.updCommand_traces (s : State) (n : Nat) (f : Command → Command) : (s.updCommand n f).traces = s.traces := by
  unfold State.updCommand; split <;> rfl
@[simp] theorem State.updCommand_bootStatus (s : State) (n : Nat) (f : Command → Command) : (s.updCommand n f).bootStatus = s.bootStatus := by
  unfold State.updCommand; split <;> rfl
@[simp] theorem State.updCommand_devid (s : State) (n : Nat) (f : Command → Command) : (s.updCommand n f).devid = s.devid := by
  unfold State.updCommand; split <;> rfl
@[simp] theorem State.updCommand_govlim (s : State) (n : Nat) (f : Command → Command) : (s.updCommand n f).govlim = s.govlim := by
  unfold State.updCommand; split <;> rfl
@[simp] theorem State.updCommand_govCurrent (s : State) (n : Nat) (f : Command → Command) : (s.updCommand n f).govCurrent = s.govCurrent := by
  unfold State.updCommand; split <;> rfl
@[simp] theorem State.updCommand_govHeld (s : State) (n : Nat) (f : Command → Command) : (s.updCommand n f).govHeld = s.govHeld := by
  unfold State.updCommand; split <;> rfl
@[simp] theorem State.updCommand_routes (s : State) (n : Nat) (f : Command → Command) : (s.updCommand n f).routes = s.routes := by
  unfold State.updCommand; split <;> rfl
@[simp] theorem State.updCommand_inbound (s : State) (n : Nat) (f : Command → Command) : (s.updCommand n f).inbound = s.inbound := by
  unfold State.updCommand; split <;> rfl
@[simp] theorem State.updCommand_rails (s : State) (n : Nat) (f : Command → Command) : (s.updCommand n f).rails = s.rails := by
  unfold State.updCommand; split <;> rfl
@[simp] theorem State.updCommand_rootUp (s : State) (n : Nat) (f : Command → Command) : (s.updCommand n f).rootUp = s.rootUp := by
  unfold State.updCommand; split <;> rfl
@[simp] theorem State.updCommand_hostUp (s : State) (n : Nat) (f : Command → Command) : (s.updCommand n f).hostUp = s.hostUp := by
  unfold State.updCommand; split <;> rfl
@[simp] theorem State.updCommand_cxlCache (s : State) (n : Nat) (f : Command → Command) : (s.updCommand n f).cxlCache = s.cxlCache := by
  unfold State.updCommand; split <;> rfl
@[simp] theorem State.updCommand_tested (s : State) (n : Nat) (f : Command → Command) : (s.updCommand n f).tested = s.tested := by
  unfold State.updCommand; split <;> rfl
@[simp] theorem State.updCommand_healthy (s : State) (n : Nat) (f : Command → Command) : (s.updCommand n f).healthy = s.healthy := by
  unfold State.updCommand; split <;> rfl
@[simp] theorem State.updCommand_rounds (s : State) (n : Nat) (f : Command → Command) : (s.updCommand n f).rounds = s.rounds := by
  unfold State.updCommand; split <;> rfl
@[simp] theorem State.updCommand_mailbox (s : State) (n : Nat) (f : Command → Command) : (s.updCommand n f).mailbox = s.mailbox := by
  unfold State.updCommand; split <;> rfl
@[simp] theorem State.updCommand_mr (s : State) (n : Nat) (f : Command → Command) : (s.updCommand n f).mr = s.mr := by
  unfold State.updCommand; split <;> rfl
@[simp] theorem State.updCommand_securityDie (s : State) (n : Nat) (f : Command → Command) : (s.updCommand n f).securityDie = s.securityDie := by
  unfold State.updCommand; split <;> rfl
@[simp] theorem State.updCommand_spdm (s : State) (n : Nat) (f : Command → Command) : (s.updCommand n f).spdm = s.spdm := by
  unfold State.updCommand; split <;> rfl
@[simp] theorem State.updCommand_ideKeys (s : State) (n : Nat) (f : Command → Command) : (s.updCommand n f).ideKeys = s.ideKeys := by
  unfold State.updCommand; split <;> rfl
@[simp] theorem State.updCommand_debugWork (s : State) (n : Nat) (f : Command → Command) : (s.updCommand n f).debugWork = s.debugWork := by
  unfold State.updCommand; split <;> rfl
@[simp] theorem State.updCommand_govHolds (s : State) (n : Nat) (f : Command → Command) : (s.updCommand n f).govHolds = s.govHolds := by
  unfold State.updCommand; split <;> rfl
@[simp] theorem State.updCommand_govMicro (s : State) (n : Nat) (f : Command → Command) : (s.updCommand n f).govMicro = s.govMicro := by
  unfold State.updCommand; split <;> rfl
@[simp] theorem State.updCommand_rideSent (s : State) (n : Nat) (f : Command → Command) : (s.updCommand n f).rideSent = s.rideSent := by
  unfold State.updCommand; split <;> rfl
@[simp] theorem State.updCommand_rideSeen (s : State) (n : Nat) (f : Command → Command) : (s.updCommand n f).rideSeen = s.rideSeen := by
  unfold State.updCommand; split <;> rfl
@[simp] theorem State.updCommand_rideRefused (s : State) (n : Nat) (f : Command → Command) : (s.updCommand n f).rideRefused = s.rideRefused := by
  unfold State.updCommand; split <;> rfl

end Sys2Proof.Machine
end

