-- ==== Sys2Proof/Laws/Map.lean ====
section
/-! SUPPORT. Reads after writes of the sparse maps, and of the contexts, cores, clusters, dies, regions and queue holds that
stand in them. -/

namespace Sys2Proof.Machine

variable {α : Type}

/-- The entry just set is read back. -/
@[simp] theorem mapGet?_mapSet_same (m : SMap α) (n : Nat) (b : α) : mapGet? (mapSet m n b) n = some b := by
  induction m with
  | nil => simp [mapSet, mapGet?]
  | cons p m ih =>
    obtain ⟨k, a⟩ := p
    simp only [mapSet]
    split
    · simp [mapGet?]
    · split
      · simp [mapGet?]
      · simp [mapGet?, *]

/-- Another entry is read as before. -/
theorem mapGet?_mapSet_other (m : SMap α) {n j : Nat} (b : α) (h : j ≠ n) : mapGet? (mapSet m n b) j = mapGet? m j := by
  induction m with
  | nil => simp [mapSet, mapGet?, h]
  | cons p m ih =>
    obtain ⟨k, a⟩ := p
    simp only [mapSet]
    split
    · subst k; simp [mapGet?, h]
    · split
      · simp only [mapGet?, if_neg h]
      · simp only [mapGet?, ih]

@[simp] theorem mapGet_mapSet_same (m : SMap α) (d : α) (n : Nat) (b : α) : mapGet (mapSet m n b) d n = b := by
  simp [mapGet]

theorem mapGet_mapSet_other (m : SMap α) (d : α) {n j : Nat} (b : α) (h : j ≠ n) :
    mapGet (mapSet m n b) d j = mapGet m d j := by
  simp [mapGet, mapGet?_mapSet_other m b h]

/-- The entry just erased is gone. -/
@[simp] theorem mapGet?_mapErase_same (m : SMap α) (n : Nat) : mapGet? (mapErase m n) n = none := by
  induction m with
  | nil => rfl
  | cons p m ih =>
    obtain ⟨k, a⟩ := p
    by_cases hk : k = n
    · simpa [mapErase, hk] using ih
    · have : n ≠ k := fun h => hk h.symm
      simpa [mapErase, hk, mapGet?, this] using ih

/-- Another entry than the one erased is read as before. -/
theorem mapGet?_mapErase_other (m : SMap α) {n j : Nat} (h : j ≠ n) : mapGet? (mapErase m n) j = mapGet? m j := by
  induction m with
  | nil => rfl
  | cons p m ih =>
    obtain ⟨k, a⟩ := p
    by_cases hk : k = n
    · subst k; simpa [mapErase, mapGet?, h] using ih
    · by_cases hj : j = k
      · subst j; simp [mapErase, mapGet?, hk]
      · simpa [mapErase, mapGet?, hk, hj] using ih

@[simp] theorem State.ctx_setCtx_same (s : State) (k : Nat) (c : Ctx) : (s.setCtx k c).ctx k = c := by
  simp [State.ctx, State.setCtx]
theorem State.ctx_setCtx_other (s : State) {k j : Nat} (c : Ctx) (h : j ≠ k) : (s.setCtx k c).ctx j = s.ctx j := by
  simp [State.ctx, State.setCtx, mapGet_mapSet_other _ _ c h]
@[simp] theorem State.ctx_updCtx_same (s : State) (k : Nat) (f : Ctx → Ctx) : (s.updCtx k f).ctx k = f (s.ctx k) := by
  simp [State.updCtx]
theorem State.ctx_updCtx_other (s : State) {k j : Nat} (f : Ctx → Ctx) (h : j ≠ k) : (s.updCtx k f).ctx j = s.ctx j := by
  simp [State.updCtx, State.ctx_setCtx_other s _ h]
theorem State.ctx_updCtx (s : State) (k j : Nat) (f : Ctx → Ctx) :
    (s.updCtx k f).ctx j = if j = k then f (s.ctx k) else s.ctx j := by
  split
  · subst j; simp
  · exact State.ctx_updCtx_other s f ‹_›

@[simp] theorem State.core_setCore_same (s : State) (n : Nat) (c : Core) : (s.setCore n c).core n = c := by
  simp [State.core, State.setCore]
theorem State.core_setCore_other (s : State) {n j : Nat} (c : Core) (h : j ≠ n) : (s.setCore n c).core j = s.core j := by
  simp [State.core, State.setCore, mapGet_mapSet_other _ _ c h]
@[simp] theorem State.core_updCore_same (s : State) (n : Nat) (f : Core → Core) : (s.updCore n f).core n = f (s.core n) := by
  simp [State.updCore]
theorem State.core_updCore_other (s : State) {n j : Nat} (f : Core → Core) (h : j ≠ n) : (s.updCore n f).core j = s.core j := by
  simp [State.updCore, State.core_setCore_other s _ h]
theorem State.core_updCore (s : State) (n j : Nat) (f : Core → Core) :
    (s.updCore n f).core j = if j = n then f (s.core n) else s.core j := by
  split
  · subst j; simp
  · exact State.core_updCore_other s f ‹_›

@[simp] theorem State.core_updCtx (s : State) (k n : Nat) (f : Ctx → Ctx) : (s.updCtx k f).core n = s.core n := rfl
@[simp] theorem State.core_setCtx (s : State) (k n : Nat) (c : Ctx) : (s.setCtx k c).core n = s.core n := rfl
@[simp] theorem State.ctx_updCore (s : State) (n k : Nat) (f : Core → Core) : (s.updCore n f).ctx k = s.ctx k := rfl
@[simp] theorem State.ctx_setCore (s : State) (n k : Nat) (c : Core) : (s.setCore n c).ctx k = s.ctx k := rfl
@[simp] theorem State.cluster_updCtx (s : State) (k n : Nat) (f : Ctx → Ctx) : (s.updCtx k f).cluster n = s.cluster n := rfl
@[simp] theorem State.cluster_updCore (s : State) (k n : Nat) (f : Core → Core) : (s.updCore k f).cluster n = s.cluster n := rfl
@[simp] theorem State.group?_updCtx (s : State) (k g : Nat) (f : Ctx → Ctx) : (s.updCtx k f).group? g = s.group? g := rfl
@[simp] theorem State.group?_updCore (s : State) (n g : Nat) (f : Core → Core) : (s.updCore n f).group? g = s.group? g := rfl
@[simp] theorem State.region_updCtx (s : State) (k r : Nat) (f : Ctx → Ctx) : (s.updCtx k f).region r = s.region r := rfl
@[simp] theorem State.region_updCore (s : State) (n r : Nat) (f : Core → Core) : (s.updCore n f).region r = s.region r := rfl
@[simp] theorem State.byteAt_updCtx (s : State) (k a : Nat) (f : Ctx → Ctx) : (s.updCtx k f).byteAt a = s.byteAt a := rfl
@[simp] theorem State.byteAt_updCore (s : State) (n a : Nat) (f : Core → Core) : (s.updCore n f).byteAt a = s.byteAt a := rfl

@[simp] theorem State.cluster_updCluster_same (s : State) (n : Nat) (f : Cluster → Cluster) :
    (s.updCluster n f).cluster n = f (s.cluster n) := by simp [State.cluster, State.updCluster]
theorem State.cluster_updCluster_other (s : State) {n j : Nat} (f : Cluster → Cluster) (h : j ≠ n) :
    (s.updCluster n f).cluster j = s.cluster j := by
  simp [State.cluster, State.updCluster, mapGet_mapSet_other _ _ _ h]
@[simp] theorem State.die_updDie_same (s : State) (n : Nat) (f : Die → Die) : (s.updDie n f).die n = f (s.die n) := by
  simp [State.die, State.updDie]
@[simp] theorem State.region_updRegion_same (s : State) (r : Nat) (f : Region → Region) :
    (s.updRegion r f).region r = f (s.region r) := by simp [State.region, State.updRegion]
theorem State.region_updRegion_other (s : State) {r j : Nat} (f : Region → Region) (h : j ≠ r) :
    (s.updRegion r f).region j = s.region j := by
  simp [State.region, State.updRegion, mapGet_mapSet_other _ _ _ h]
@[simp] theorem State.hold_updHold_same (s : State) (q : Nat) (f : QueueHold → QueueHold) :
    (s.updHold q f).hold q = f (s.hold q) := by simp [State.hold, State.updHold]

end Sys2Proof.Machine
end

