-- ==== Sys2Proof/Laws/Issue.lean ====
section
/-! SUPPORT. The issue of a bundle with one operation: what its issue alone changes, when it takes effect, and that it reads its
operands as they stood before the bundle. -/

namespace Sys2Proof.Machine

/-! ## Frames -/

theorem OnlyAt.refl (s : State) (k n : Nat) : OnlyAt s s k n := ⟨fun _ _ => rfl, fun _ _ => rfl, rfl⟩

theorem OnlyAt.trans {s t u : State} {k n : Nat} (h : OnlyAt s t k n) (h' : OnlyAt t u k n) : OnlyAt s u k n where
  ctxs j hj := (h'.ctxs j hj).trans (h.ctxs j hj)
  cores j hj := (h'.cores j hj).trans (h.cores j hj)
  rest := by rw [h'.rest, h.rest]

theorem OnlyAt.updCtx (s : State) (k n : Nat) (f : Ctx → Ctx) : OnlyAt s (s.updCtx k f) k n :=
  ⟨fun _ hj => State.ctx_updCtx_other s f hj, fun _ _ => rfl, rfl⟩

theorem OnlyAt.setCtx (s : State) (k n : Nat) (c : Ctx) : OnlyAt s (s.setCtx k c) k n :=
  ⟨fun _ hj => State.ctx_setCtx_other s c hj, fun _ _ => rfl, rfl⟩

theorem OnlyAt.updCore (s : State) (k n : Nat) (f : Core → Core) : OnlyAt s (s.updCore n f) k n :=
  ⟨fun _ _ => rfl, fun _ hj => State.core_updCore_other s f hj, rfl⟩

/-- Every byte reads as before where only a context and a core change. -/
theorem OnlyAt.byteAt {s t : State} {k n : Nat} (h : OnlyAt s t k n) (a : Nat) : t.byteAt a = s.byteAt a := by
  rw [h.rest]; rfl

/-! ## Counting -/

/-- Counting an event changes one context's counters and nothing else. -/
theorem State.event_eq (s : State) (k evt n : Nat) :
    s.event k evt n = s ∨ s.event k evt n = s.updCtx k fun c => { c with pmc := (c.countEvent evt n).pmc } := by
  unfold State.event
  split
  · exact .inl rfl
  · refine .inr ?_
    congr 1
    funext c
    unfold Ctx.countEvent
    split <;> rfl

theorem OnlyAt.event (s : State) (k n evt m : Nat) : OnlyAt s (s.event k evt m) k n := by
  rcases s.event_eq k evt m with h | h <;> rw [h]
  · exact .refl s k n
  · exact .updCtx s k n _

/-- A context but for its counters. -/
def Ctx.noPmc (c : Ctx) : Ctx := { c with pmc := Vector.replicate 16 0 }

theorem State.event_noPmc (s : State) (k evt n : Nat) : ((s.event k evt n).ctx k).noPmc = (s.ctx k).noPmc := by
  rcases s.event_eq k evt n with h | h <;> rw [h]
  simp [Ctx.noPmc]

theorem Ctx.eq_of_noPmc {c d : Ctx} (h : c.noPmc = d.noPmc) : c = { d with pmc := c.pmc } := by
  cases c; cases d; simp only [Ctx.noPmc, Ctx.mk.injEq] at h ⊢; simp_all

@[simp] theorem State.core_event (s : State) (k evt n j : Nat) : (s.event k evt n).core j = s.core j := by
  rcases s.event_eq k evt n with h | h <;> rw [h] <;> rfl

/-! ## The start of a bundle's effects -/

theorem startIssue_only (e : Env) (s : State) (ops : List SlotOp) : OnlyAt s (startIssue e s ops) e.k e.core := by
  unfold startIssue
  exact ((((((OnlyAt.updCtx ..).trans (.updCore ..)).trans (.event ..)).trans (.event ..)).trans (.event ..)).trans (.event ..))

theorem startIssue_ctx (e : Env) (s : State) (ops : List SlotOp) :
    ∃ pmc, (startIssue e s ops).ctx e.k = (s.ctx e.k).issued e pmc := by
  refine ⟨_, Ctx.eq_of_noPmc (d := (s.ctx e.k).issued e (Vector.replicate 16 0)) ?_⟩
  unfold startIssue
  simp only [State.event_noPmc]
  simp [Ctx.noPmc, Ctx.issued]

theorem startIssue_core (e : Env) (s : State) (o : SlotOp) :
    (startIssue e s [o]).core e.core = (s.core e.core).issued e o.slot o.occ 1 := by
  unfold startIssue
  simp [Core.issued]

/-! ## Reads are those of before the bundle -/

/-- What a read of registers, masks, flags, latches and CSRs depends on is the same in two states; the counters may differ. -/
structure SameReads (s t : State) (k : Nat) : Prop where
  rest : t = { s with ctxs := t.ctxs, cores := t.cores }
  ctx : ∃ e pmc, t.ctx k = (s.ctx k).issued e pmc
  lat : ∀ n, (t.core n).lat = (s.core n).lat

theorem startIssue_lat (e : Env) (s : State) (ops : List SlotOp) (n : Nat) :
    ((startIssue e s ops).core n).lat = (s.core n).lat := by
  unfold startIssue
  simp only [State.core_event, State.core_updCore]
  split
  · subst n; simp
  · rfl

theorem startIssue_sameReads (e : Env) (s : State) (ops : List SlotOp) : SameReads s (startIssue e s ops) e.k :=
  ⟨(startIssue_only e s ops).rest, ⟨e, startIssue_ctx e s ops⟩, startIssue_lat e s ops⟩

namespace SameReads
variable {s t : State} {k : Nat}

theorem free (h : SameReads s t k) : t.free = s.free := by rw [h.rest]
theorem openBool (h : SameReads s t k) (tag : Nat) : t.openBool tag = s.openBool tag := by
  unfold State.openBool; rw [h.free]
theorem openWord (h : SameReads s t k) (tag : Nat) : t.openWord tag = s.openWord tag := by
  unfold State.openWord; rw [h.free]
theorem pickOf {α : Type} (h : SameReads s t k) (tag : Nat) (old : α) (news : List α) :
    t.pickOf tag old news = s.pickOf tag old news := by
  unfold State.pickOf; simp only [h.openBool]
theorem mixRows (h : SameReads s t k) (tag : Nat) (m : W64) (a b : Row) : t.mixRows tag m a b = s.mixRows tag m a b := by
  unfold State.mixRows; simp only [h.openBool]
theorem mixAll (h : SameReads s t k) (tag : Nat) (base : Row) (news : List (W64 × Row)) :
    t.mixAll tag base news = s.mixAll tag base news := by
  unfold State.mixAll; simp only [h.mixRows]
theorem wordAt (h : SameReads s t k) (key n : Nat) : t.wordAt key n = s.wordAt key n := by
  rw [h.rest]; rfl

theorem readS (h : SameReads s t k) (n tag r : Nat) : t.readS k n tag r = s.readS k n tag r := by
  obtain ⟨e, pmc, hc⟩ := h.ctx
  unfold State.readS; simp only [h.pickOf, hc]; rfl
theorem readLatchS (h : SameReads s t k) (n tag l : Nat) : t.readLatchS k n tag l = s.readLatchS k n tag l := by
  obtain ⟨e, pmc, hc⟩ := h.ctx
  unfold State.readLatchS; simp only [h.pickOf, hc, h.lat]; rfl
theorem readK (h : SameReads s t k) (n tag r : Nat) : t.readK k n tag r = s.readK k n tag r := by
  obtain ⟨e, pmc, hc⟩ := h.ctx
  unfold State.readK; simp only [h.pickOf, hc]; rfl
theorem readFlags (h : SameReads s t k) (n tag : Nat) : t.readFlags k n tag = s.readFlags k n tag := by
  obtain ⟨e, pmc, hc⟩ := h.ctx
  unfold State.readFlags; simp only [h.pickOf, hc]; rfl
theorem regionOf (h : SameReads s t k) : t.regionOf k = s.regionOf k := by
  obtain ⟨e, pmc, hc⟩ := h.ctx
  unfold State.regionOf State.groupOf State.group?; rw [hc, h.rest]; rfl
theorem groupOf (h : SameReads s t k) : t.groupOf k = s.groupOf k := by
  obtain ⟨e, pmc, hc⟩ := h.ctx
  unfold State.groupOf State.group?; rw [hc, h.rest]; rfl
theorem region (h : SameReads s t k) (r : Nat) : t.region r = s.region r := by rw [h.rest]; rfl

theorem effFrom (h : SameReads s t k) (bit fuel r : Nat) : t.effFrom bit fuel r = s.effFrom bit fuel r := by
  induction fuel generalizing r with
  | zero => rfl
  | succ n ih => unfold State.effFrom; simp only [h.region, ih]

/-- A CSR that is no performance counter reads the same. -/
theorem csrRead (h : SameReads s t k) (n : Nat) (hn : n < 0x080 ∨ 0x090 ≤ n) : t.csrRead k n = s.csrRead k n := by
  obtain ⟨e, pmc, hc⟩ := h.ctx
  have hp : (decide (0x080 ≤ n) && decide (n ≤ 0x08F)) = false := by
    simp only [Bool.and_eq_false_iff, decide_eq_false_iff_not]; omega
  have hs : t.slotHolding (s.ptbase (s.regionOf k)) = s.slotHolding (s.ptbase (s.regionOf k)) := by rw [h.rest]; rfl
  have hb : t.ptbase (s.regionOf k) = s.ptbase (s.regionOf k) := by
    unfold State.ptbase State.eff; simp only [h.region, h.effFrom]
  unfold State.csrRead
  simp only [hp, hc, h.regionOf, hb, hs]
  rw [show t.clk = s.clk by rw [h.rest]]
  simp only [Ctx.issued, Bool.false_eq_true, if_false, Ctx.tstatus]
  split
  · rfl
  · split
    · rfl
    · split
      · rfl
      · split
        · rfl
        · split <;> rfl

end SameReads

theorem Ctx.csrWrite_issued (c : Ctx) (e : Env) (pmc : Vector W64 16) (n : Nat) (x : W64) (hn : n < 0x080 ∨ 0x090 ≤ n) :
    (c.issued e pmc).csrWrite n x = (c.csrWrite n x).issued e pmc := by
  have hp : (decide (0x080 ≤ n) && decide (n ≤ 0x08F)) = false := by
    simp only [Bool.and_eq_false_iff, decide_eq_false_iff_not]; omega
  unfold Ctx.csrWrite
  simp only [hp, Bool.false_eq_true, if_false]
  split
  · rfl
  · split
    · rfl
    · split
      · rfl
      · split <;> rfl

namespace SameReads
variable {s t : State} {k : Nat}

theorem statusSoon (h : SameReads s t k) (c tag : Nat) : t.statusSoon k c tag = s.statusSoon k c tag := by
  obtain ⟨e, pmc, hc⟩ := h.ctx
  unfold State.statusSoon; simp only [h.openWord, hc]; rfl

theorem readCsr (h : SameReads s t k) (c tag n : Nat) (hn : n < 0x080 ∨ 0x090 ≤ n) :
    t.readCsr k c tag n = s.readCsr k c tag n := by
  obtain ⟨e, pmc, hc⟩ := h.ctx
  have key : ∀ x : W64, (t.updCtx k fun c => c.csrWrite n x).csrRead k n = (s.updCtx k fun c => c.csrWrite n x).csrRead k n := by
    intro x
    have hs : SameReads (s.updCtx k fun c => c.csrWrite n x) (t.updCtx k fun c => c.csrWrite n x) k := by
      refine ⟨?_, ⟨e, pmc, ?_⟩, fun j => ?_⟩
      · unfold State.updCtx State.setCtx; rw [h.rest]
      · simp only [State.ctx_updCtx_same, hc, Ctx.csrWrite_issued _ e pmc n x hn]
      · simp only [State.core_updCtx, h.lat]
    exact hs.csrRead n hn
  unfold State.readCsr
  simp only [h.pickOf, h.csrRead n hn, h.statusSoon, key, hc, Ctx.issued]

theorem readLmask (h : SameReads s t k) (c tag : Nat) : t.readLmask k c tag = s.readLmask k c tag :=
  h.readCsr c tag 1 (by omega)

theorem asyncRows (h : SameReads s t k) (c v row : Nat) : t.asyncRows k c v row = s.asyncRows k c v row := by
  obtain ⟨e, pmc, hc⟩ := h.ctx
  have hg : t.group? = s.group? := by funext g; rw [h.rest]; rfl
  unfold State.asyncRows State.accessRow State.tileRow
  rw [hc, show t.engine = s.engine by rw [h.rest]]
  simp only [h.wordAt, hg]
  rfl

theorem readVrow (h : SameReads s t k) (c tag v row : Nat) : t.readVrow k c tag v row = s.readVrow k c tag v row := by
  obtain ⟨e, pmc, hc⟩ := h.ctx
  unfold State.readVrow
  simp only [h.mixAll, h.asyncRows, hc]
  rfl

theorem readLatchV (h : SameReads s t k) (c tag l row : Nat) : t.readLatchV k c tag l row = s.readLatchV k c tag l row := by
  obtain ⟨e, pmc, hc⟩ := h.ctx
  unfold State.readLatchV
  simp only [h.mixAll, h.lat, hc]
  rfl

theorem sourceRow (h : SameReads s t k) (c tag : Nat) (src : VSource) (row : Nat) :
    Machine.sourceRow t k c tag src row = Machine.sourceRow s k c tag src row := by
  unfold Machine.sourceRow
  cases src <;> simp only [h.readVrow, h.readLatchV]

theorem scalarOperand {e : Env} (h : SameReads s t e.k) (slot place : Nat) (sel : BitVec 6) :
    Machine.scalarOperand t e slot place sel = Machine.scalarOperand s e slot place sel := by
  obtain ⟨e', pmc, hc⟩ := h.ctx
  unfold Machine.scalarOperand
  simp only [h.readS, h.readLatchS, hc]
  rfl

theorem vectorOperand {e : Env} (h : SameReads s t e.k) (slot place type : Nat) (sel : BitVec 6) :
    Machine.vectorOperand t e slot place type sel = Machine.vectorOperand s e slot place type sel := by
  unfold Machine.vectorOperand
  simp only [h.readS]

theorem laneMask {e : Env} (h : SameReads s t e.k) (slot : Nat) (ks : BitVec 3) :
    Machine.laneMask t e slot ks = Machine.laneMask s e slot ks := by
  unfold Machine.laneMask
  simp only [h.readLmask, h.readK]

theorem predicate {e : Env} (h : SameReads s t e.k) (slot : Nat) (pf : BitVec 4) (pn : Bool) :
    Machine.predicate t e slot pf pn = Machine.predicate s e slot pf pn := by
  unfold Machine.predicate
  simp only [h.readFlags]

end SameReads

/-! ## A bundle of one operation issues -/

theorem slotFree_any {s : State} {e : Env} {slot : Nat} (p : Nat → Bool)
    (h : ∀ x ∈ (s.core e.core).occupied, x.slot = slot → x.free ≤ e.t) :
    ((s.core e.core).occupied.any fun x => x.slot = slot && decide (e.t < x.free) && p x.ctx) = false := by
  simp only [List.any_eq_false, Bool.and_eq_true, decide_eq_true_eq, not_and]
  intro x hx ⟨h1, h2⟩
  exact absurd (h x hx h1) (by omega)

theorem none_orElse {α : Type} (x : Option α) : ((none : Option α) <|> x) = x := rfl

theorem heldByOther_single {s : State} {e : Env} {o : SlotOp}
    (h : ∀ x ∈ (s.core e.core).occupied, x.slot = o.slot → x.free ≤ e.t) : heldByOther e s [o] = false := by
  simp only [heldByOther, List.any_cons, List.any_nil, Bool.or_false]
  exact slotFree_any (fun c => c ≠ e.k) h

theorem occupiedSlot_single {s : State} {e : Env} {o : SlotOp}
    (h : ∀ x ∈ (s.core e.core).occupied, x.slot = o.slot → x.free ≤ e.t) : occupiedSlot e s [o] = none := by
  simp only [occupiedSlot, List.find?_cons, List.find?_nil, slotFree_any (fun c => c = e.k) h, Option.map_none]

theorem privilegeTrap_single {s : State} {e : Env} {o : SlotOp} (h : o.privileged = true → s.supervisor e.k = true) :
    privilegeTrap e s [o] = none := by
  unfold privilegeTrap
  split
  · rfl
  · have : o.privileged = false := by
      cases hb : o.privileged
      · rfl
      · exact absurd (h hb) ‹_›
    simp [this]

/-- The scan of one operation whose predicate is true finds what the operation finds. -/
theorem scanBundle_active {s : State} {e : Env} {o : SlotOp} (hr : Ready s e o.slot o.pf o.pn) (st : State) :
    scanBundle e s st [o] =
      ({ state := o.effect e st, check := o.check e st, block := o.block e st, hold := o.hold e st, trap := o.trap e st
         ends := o.endsOverrun e st, writes := (o.writes e st).map fun x => (o.slot, x), collision := none },
       privilegeTrap e s [o] <|> o.trap e st) := by
  have hact : o.active e s = true := hr.active
  simp only [scanBundle, List.foldl_cons, List.foldl_nil, scanSlot, hact, Bool.not_true, Bool.false_eq_true, if_false,
    scheduleTrap, occupiedSlot_single hr.slotFree, List.find?_nil, Option.map_none, lowerOf, none_orElse, Bool.false_or,
    List.nil_append]

/-- The scan of one operation whose predicate is false finds nothing and changes nothing. -/
theorem scanBundle_inactive {s : State} {e : Env} {o : SlotOp} (hr : ReadyInactive s e o.slot o.pf o.pn) (st : State) :
    scanBundle e s st [o] =
      ({ state := st, check := none, block := none, hold := none, trap := none, ends := false, writes := []
         collision := none }, none) := by
  have hact : o.active e s = false := hr.inactive
  have hpriv : privilegeTrap e s [o] = none := by
    unfold privilegeTrap
    split <;> simp [hact]
  simp only [scanBundle, List.foldl_cons, List.foldl_nil, scanSlot, hact, Bool.not_false, if_true,
    scheduleTrap, occupiedSlot_single hr.slotFree, List.find?_nil, Option.map_none, none_orElse, hpriv]

/-- A bundle whose one operation has a false predicate issues, and has no effect but its issue (R44). -/
theorem issueOps_inactive {s : State} {e : Env} {o : SlotOp} (hr : ReadyInactive s e o.slot o.pf o.pn) :
    issueOps [o] s = startIssue e s [o] := by
  have hact : o.active e s = false := hr.inactive
  unfold issueOps
  rw [hr.env]
  simp only [issueIn, heldByOther_single hr.slotFree, Bool.false_eq_true, if_false, scanBundle_inactive hr]
  simp [afterEffects, hact]

/-- A bundle of one operation that passes every condition has its effect, on the state in which it has left the issue stage, and
then what follows its bundle. -/
theorem issueOps_passes {s : State} {e : Env} {o : SlotOp} (hr : Ready s e o.slot o.pf o.pn) (hp : Passes o e s) :
    issueOps [o] s = o.after e (o.effect e (startIssue e s [o])) := by
  have hact : o.active e s = true := hr.active
  have hov : ((s.ctx e.k).overrun.isSome && o.endsOverrun e (startIssue e s [o])) = false := by
    rcases hp.overrun with h | h <;> simp [h]
  unfold issueOps
  rw [hr.env]
  simp only [issueIn, heldByOther_single hr.slotFree, Bool.false_eq_true, if_false, scanBundle_active hr, hp.check, hp.block,
    hp.hold, hp.trap, privilegeTrap_single hp.privilege, none_orElse, Option.isSome_none, Bool.and_false, Bool.or_false,
    Bool.false_or, hov, List.find?_cons, hact, Bool.and_true, List.find?_nil, afterEffects, List.foldl_cons, List.foldl_nil,
    if_true]
  by_cases h9 : o.slot = 9
  · simp [h9, hp.meet h9]
  · simp [h9]

/-- A check of step 2 of R31 traps before anything else. -/
theorem issueOps_check {s : State} {e : Env} {o : SlotOp} {t : Trap} (hr : Ready s e o.slot o.pf o.pn)
    (ho : (s.ctx e.k).overrun = none) (h : o.check e (startIssue e s [o]) = some t) :
    issueOps [o] s = s.takeTrap e.k e.t e.pc e.next t := by
  unfold issueOps
  rw [hr.env]
  simp only [issueIn, heldByOther_single hr.slotFree, Bool.false_eq_true, if_false, scanBundle_active hr, h, ho,
    Option.isSome_none, Bool.false_and]

/-- A block condition blocks the context where no check traps and no overrun begins. -/
theorem issueOps_block {s : State} {e : Env} {o : SlotOp} {b : BlockCause} {record : State → State}
    (hr : Ready s e o.slot o.pf o.pn) (ho : (s.ctx e.k).overrun = none)
    (hc : o.check e (startIssue e s [o]) = none) (h : o.block e (startIssue e s [o]) = some (b, record))
    (hb : o.overrun e s = none) : issueOps [o] s = (record s).blockCtx e.k e.t b := by
  have hact : o.active e s = true := hr.active
  have hi : issueOverrun e [o] s = none := by
    unfold issueOverrun
    by_cases h8 : o.slot = 8 <;> simp [h8, hact, hb]
  unfold issueOps
  rw [hr.env]
  simp only [issueIn, heldByOther_single hr.slotFree, Bool.false_eq_true, if_false, scanBundle_active hr, hc, h, ho,
    Option.isSome_none, Bool.false_and, hi, Option.getD_none]

/-- A hold holds the bundle where nothing before it applies. -/
theorem issueOps_hold {s : State} {e : Env} {o : SlotOp} {d : Hold} (hr : Ready s e o.slot o.pf o.pn)
    (ho : (s.ctx e.k).overrun = none) (hc : o.check e (startIssue e s [o]) = none)
    (hb : o.block e (startIssue e s [o]) = none) (h : o.hold e (startIssue e s [o]) = some d) :
    issueOps [o] s = s.holdBundle e d := by
  unfold issueOps
  rw [hr.env]
  simp only [issueIn, heldByOther_single hr.slotFree, Bool.false_eq_true, if_false, scanBundle_active hr, hc, hb, h, ho,
    Option.isSome_none, Bool.false_and]

/-- A trap of step 4 of R31 is taken where nothing before it applies. -/
theorem issueOps_trap {s : State} {e : Env} {o : SlotOp} {t : Trap} (hr : Ready s e o.slot o.pf o.pn)
    (ho : (s.ctx e.k).overrun = none) (hp : o.privileged = true → s.supervisor e.k = true)
    (hc : o.check e (startIssue e s [o]) = none) (hb : o.block e (startIssue e s [o]) = none)
    (hh : o.hold e (startIssue e s [o]) = none) (h : o.trap e (startIssue e s [o]) = some t) :
    issueOps [o] s = s.takeTrap e.k e.t e.pc e.next t := by
  unfold issueOps
  rw [hr.env]
  simp only [issueIn, heldByOther_single hr.slotFree, Bool.false_eq_true, if_false, scanBundle_active hr, hc, hb, hh, h, ho,
    privilegeTrap_single hp, none_orElse, Option.isSome_none, Bool.false_and]

/-- A privileged form in user state takes PRIVILEGE where nothing before it applies (R87). -/
theorem issueOps_privilege {s : State} {e : Env} {o : SlotOp} (hr : Ready s e o.slot o.pf o.pn)
    (ho : (s.ctx e.k).overrun = none) (hp : o.privileged = true) (hu : s.supervisor e.k = false)
    (hc : o.check e (startIssue e s [o]) = none) (hb : o.block e (startIssue e s [o]) = none)
    (hh : o.hold e (startIssue e s [o]) = none) :
    issueOps [o] s =
      s.takeTrap e.k e.t e.pc e.next (slotTrap o.slot .privilege (BitVec.ofNat 64 (o.slot + o.uf * 256))) := by
  have hact : o.active e s = true := hr.active
  have hpriv : privilegeTrap e s [o] = some (slotTrap o.slot .privilege (BitVec.ofNat 64 (o.slot + o.uf * 256))) := by
    simp [privilegeTrap, hu, hp, hact]
  have hsome : ∀ (a : Trap) (b : Option Trap), (some a <|> b) = some a := fun _ _ => rfl
  unfold issueOps
  rw [hr.env]
  simp only [issueIn, heldByOther_single hr.slotFree, Bool.false_eq_true, if_false, scanBundle_active hr, hc, hb, hh, ho,
    hpriv, hsome, Option.isSome_none, Bool.false_and]

/-! ## Results put in flight -/

theorem State.addPending_only (s : State) (k n : Nat) (p : Pending) : OnlyAt s (s.addPending k p) k n := OnlyAt.updCtx s k n _

theorem SameRows.refl (a : List RowTask) : SameRows a a := rfl
theorem SameRows.trans {a b c : List RowTask} (h : SameRows a b) (h' : SameRows b c) : SameRows a c := Eq.trans h h'

theorem State.addPending_ctx (s : State) (k : Nat) (p : Pending) :
    ∃ rows, SameRows rows (s.ctx k).rows ∧
      (s.addPending k p).ctx k = { s.ctx k with pending := Machine.addPending (s.ctx k).pending p, rows := rows } := by
  refine ⟨_, ?_, by unfold State.addPending; rw [State.ctx_updCtx_same]⟩
  unfold SameRows
  rw [List.map_map]
  rfl

theorem State.addPending_core (s : State) (k n : Nat) (p : Pending) : (s.addPending k p).core n = s.core n := rfl

/-- The issue of a bundle of one operation, with one result after another put in flight: what it leaves. -/
theorem results_fold (s : State) (e : Env) (o : SlotOp) (lands : List (Nat × Landing)) :
    Results s (lands.foldl (fun s x => s.addPending e.k (resultOf e o.slot x)) (startIssue e s [o])) e o.slot o.occ 1 lands := by
  have go : ∀ (lands : List (Nat × Landing)) (t : State) (ps : List Pending),
      OnlyAt s t e.k e.core →
      (∃ pmc rows, SameRows rows (s.ctx e.k).rows ∧
        t.ctx e.k = { (s.ctx e.k).issued e pmc with pending := ps, rows := rows }) →
      t.core e.core = (s.core e.core).issued e o.slot o.occ 1 →
      OnlyAt s (lands.foldl (fun s x => s.addPending e.k (resultOf e o.slot x)) t) e.k e.core ∧
      (∃ pmc rows, SameRows rows (s.ctx e.k).rows ∧
        (lands.foldl (fun s x => s.addPending e.k (resultOf e o.slot x)) t).ctx e.k =
          { (s.ctx e.k).issued e pmc with pending := joined ps e o.slot lands, rows := rows }) ∧
      (lands.foldl (fun s x => s.addPending e.k (resultOf e o.slot x)) t).core e.core =
        (s.core e.core).issued e o.slot o.occ 1 := by
    intro lands
    induction lands with
    | nil => intro t ps h1 h2 h3; exact ⟨h1, h2, h3⟩
    | cons x lands ih =>
      intro t ps h1 h2 h3
      obtain ⟨pmc, rows, hr, hc⟩ := h2
      obtain ⟨rows', hr', hc'⟩ := State.addPending_ctx t e.k (resultOf e o.slot x)
      refine ih _ (Machine.addPending ps (resultOf e o.slot x)) (h1.trans (State.addPending_only ..)) ⟨pmc, rows', ?_, ?_⟩ ?_
      · rw [hc] at hr'; exact hr'.trans hr
      · rw [hc', hc]
      · rw [State.addPending_core, h3]
  obtain ⟨pmc, hpmc⟩ := startIssue_ctx e s [o]
  obtain ⟨h1, h2, h3⟩ := go lands (startIssue e s [o]) (s.ctx e.k).pending (startIssue_only e s [o])
    ⟨pmc, (s.ctx e.k).rows, rfl, by rw [hpmc]; rfl⟩ (startIssue_core e s o)
  exact ⟨h1, h2, h3⟩

end Sys2Proof.Machine
end

