-- ==== Sys2Proof/Laws/Memory.lean ====
section
/-! SUPPORT. Memory: the canonical form is kept by every operation of Machine/Memory.lean, reads after writes, and equal
contents are equal lists. -/

namespace Sys2Proof.Machine

theorem Memory.wfFrom_mono (m : Memory) {lo lo' : Nat} (h : m.wfFrom lo = true) (hl : lo' ≤ lo) : m.wfFrom lo' = true := by
  cases m with
  | nil => rfl
  | cons p m =>
    obtain ⟨k, b⟩ := p
    simp only [Memory.wfFrom, Bool.and_eq_true, decide_eq_true_eq] at h ⊢
    exact ⟨⟨by omega, h.1.2⟩, h.2⟩

/-- Below the first cell everything reads 0. -/
theorem memGet_below (m : Memory) {lo a : Nat} (h : m.wfFrom lo = true) (ha : a < lo) : memGet m a = 0 := by
  cases m with
  | nil => rfl
  | cons p m =>
    obtain ⟨k, b⟩ := p
    simp only [Memory.wfFrom, Bool.and_eq_true, decide_eq_true_eq] at h
    simp only [memGet]
    rw [if_neg (by omega), if_pos (by omega)]

theorem memPut_wfFrom (m : Memory) (lo a : Nat) (b : Byte) (h : m.wfFrom lo = true) (ha : lo ≤ a) :
    (memPut m a b).wfFrom lo = true := by
  induction m generalizing lo with
  | nil =>
    simp only [memPut]
    split
    · rfl
    · simp only [Memory.wfFrom, Bool.and_eq_true, decide_eq_true_eq]
      exact ⟨⟨ha, ‹_›⟩, trivial⟩
  | cons p m ih =>
    obtain ⟨k, c⟩ := p
    have h' := h
    simp only [Memory.wfFrom, Bool.and_eq_true, decide_eq_true_eq] at h
    simp only [memPut]
    split
    · subst a
      split
      · exact Memory.wfFrom_mono m h.2 (by omega)
      · simp only [Memory.wfFrom, Bool.and_eq_true, decide_eq_true_eq]
        exact ⟨⟨ha, ‹_›⟩, h.2⟩
    · split
      · split
        · exact h'
        · simp only [Memory.wfFrom, Bool.and_eq_true, decide_eq_true_eq]
          exact ⟨⟨ha, ‹_›⟩, ⟨by omega, h.1.2⟩, h.2⟩
      · simp only [Memory.wfFrom, Bool.and_eq_true, decide_eq_true_eq]
        exact ⟨h.1, ih _ h.2 (by omega)⟩

/-- A write keeps the canonical form. -/
theorem memPut_wf (m : Memory) (a : Nat) (b : Byte) (h : m.wf = true) : (memPut m a b).wf = true :=
  memPut_wfFrom m 0 a b h (Nat.zero_le a)

/-- The byte just written is read back. -/
theorem memGet_memPut_same (m : Memory) (a : Nat) (b : Byte) (h : m.wf = true) : memGet (memPut m a b) a = b := by
  have go : ∀ (m : Memory) (lo : Nat), m.wfFrom lo = true → memGet (memPut m a b) a = b := by
    intro m
    induction m with
    | nil =>
      intro lo _
      simp only [memPut]
      split
      · simp [memGet, *]
      · simp [memGet]
    | cons p m ih =>
      obtain ⟨k, c⟩ := p
      intro lo h
      simp only [Memory.wfFrom, Bool.and_eq_true, decide_eq_true_eq] at h
      simp only [memPut]
      split
      · subst a
        split
        · subst b; exact memGet_below m h.2 (by omega)
        · simp [memGet]
      · split
        · split
          · subst b; simp [memGet, *]
          · simp [memGet]
        · simp only [memGet]
          rw [if_neg ‹_›, if_neg ‹_›]
          exact ih _ h.2
  exact go m 0 h

/-- Another byte is read as before. -/
theorem memGet_memPut_other (m : Memory) {a j : Nat} (b : Byte) (h : m.wf = true) (hj : j ≠ a) :
    memGet (memPut m a b) j = memGet m j := by
  have go : ∀ (m : Memory) (lo : Nat), m.wfFrom lo = true → memGet (memPut m a b) j = memGet m j := by
    intro m
    induction m with
    | nil =>
      intro lo _
      simp only [memPut]
      split
      · rfl
      · simp [memGet, hj]
    | cons p m ih =>
      obtain ⟨k, c⟩ := p
      intro lo h
      simp only [Memory.wfFrom, Bool.and_eq_true, decide_eq_true_eq] at h
      simp only [memPut]
      split
      · subst a
        split
        · simp only [memGet, if_neg hj]
          split
          · exact memGet_below m h.2 (by omega)
          · rfl
        · simp [memGet, hj]
      · split
        · split
          · rfl
          · simp only [memGet, if_neg hj]
            split
            · rw [if_neg (by omega), if_pos (by omega)]
            · rfl
        · simp only [memGet]
          split
          · rfl
          · split
            · rfl
            · exact ih _ h.2
  exact go m 0 h

theorem memPutBytes_wf (bs : List Byte) (m : Memory) (a : Nat) (h : m.wf = true) : (memPutBytes m a bs).wf = true := by
  induction bs generalizing m a with
  | nil => exact h
  | cons b bs ih => exact ih _ _ (memPut_wf m a b h)

theorem memRestore_wf (l : List (Nat × Byte)) (m : Memory) (lo : Nat) (h : m.wf = true) : (memRestore m lo l).wf = true := by
  induction l generalizing m with
  | nil => exact h
  | cons p l ih => obtain ⟨o, b⟩ := p; exact ih _ (memPut_wf m _ b h)

theorem memFilter_wfFrom (m : Memory) (p : Host.Cell → Bool) (lo : Nat) (h : m.wfFrom lo = true) :
    Memory.wfFrom (m.filter p) lo = true := by
  induction m generalizing lo with
  | nil => rfl
  | cons q m ih =>
    obtain ⟨k, b⟩ := q
    simp only [Memory.wfFrom, Bool.and_eq_true, decide_eq_true_eq] at h
    simp only [List.filter]
    split
    · simp only [Memory.wfFrom, Bool.and_eq_true, decide_eq_true_eq]
      exact ⟨h.1, ih _ h.2⟩
    · exact Memory.wfFrom_mono _ (ih _ h.2) (by omega)

theorem memClear_wf (m : Memory) (lo n : Nat) (h : m.wf = true) : (memClear m lo n).wf = true :=
  memFilter_wfFrom m _ 0 h

/-- Bytes outside a run of bytes written are read as before. -/
theorem memGet_memPutBytes_outside (bs : List Byte) (m : Memory) (a j : Nat) (h : m.wf = true)
    (hj : j < a ∨ a + bs.length ≤ j) : memGet (memPutBytes m a bs) j = memGet m j := by
  induction bs generalizing m a with
  | nil => rfl
  | cons b bs ih =>
    simp only [List.length_cons] at hj
    simp only [memPutBytes]
    rw [ih _ _ (memPut_wf m a b h) (by omega), memGet_memPut_other m b h (by omega)]

/-- Byte i of a run of bytes written. -/
theorem memGet_memPutBytes_inside (bs : List Byte) (m : Memory) (a i : Nat) (h : m.wf = true) (hi : i < bs.length) :
    memGet (memPutBytes m a bs) (a + i) = bs[i] := by
  induction bs generalizing m a i with
  | nil => simp at hi
  | cons b bs ih =>
    simp only [memPutBytes]
    cases i with
    | zero =>
      rw [memGet_memPutBytes_outside bs _ _ _ (memPut_wf m a b h) (by omega)]
      simp [memGet_memPut_same m a b h]
    | succ i =>
      have := ih (memPut m a b) (a + 1) i (memPut_wf m a b h) (by simpa using hi)
      rw [show a + 1 + i = a + (i + 1) by omega] at this
      simpa using this

/-- Two memories in canonical form that read alike everywhere are the same list. -/
theorem memory_ext (m n : Memory) (hm : m.wf = true) (hn : n.wf = true) (h : ∀ a, memGet m a = memGet n a) : m = n := by
  have go : ∀ (m n : Memory) (lo : Nat), m.wfFrom lo = true → n.wfFrom lo = true → (∀ a, memGet m a = memGet n a) → m = n := by
    intro m
    induction m with
    | nil =>
      intro n lo _ hn h
      cases n with
      | nil => rfl
      | cons q n =>
        obtain ⟨j, c⟩ := q
        simp only [Memory.wfFrom, Bool.and_eq_true, decide_eq_true_eq] at hn
        have := h j
        simp [memGet] at this
        exact absurd this.symm hn.1.2
    | cons p m ih =>
      obtain ⟨k, b⟩ := p
      intro n lo hm hn h
      have hm' := hm
      simp only [Memory.wfFrom, Bool.and_eq_true, decide_eq_true_eq] at hm
      cases n with
      | nil =>
        have := h k
        simp [memGet] at this
        exact absurd this hm.1.2
      | cons q n =>
        obtain ⟨j, c⟩ := q
        have hn' := hn
        simp only [Memory.wfFrom, Bool.and_eq_true, decide_eq_true_eq] at hn
        rcases Nat.lt_trichotomy k j with hk | hk | hk
        · have := h k
          rw [memGet_below ((j, c) :: n) (lo := j) (by simp only [Memory.wfFrom, Bool.and_eq_true, decide_eq_true_eq]; exact ⟨⟨Nat.le_refl _, hn.1.2⟩, hn.2⟩) hk] at this
          simp [memGet] at this
          exact absurd this hm.1.2
        · subst hk
          have hb := h k
          simp [memGet] at hb
          subst hb
          congr 1
          refine ih n (k + 1) hm.2 hn.2 fun a => ?_
          rcases Nat.lt_or_ge a (k + 1) with ha | ha
          · rw [memGet_below m hm.2 ha, memGet_below n hn.2 ha]
          · have := h a
            simp only [memGet] at this
            rw [if_neg (by omega), if_neg (by omega), if_neg (by omega), if_neg (by omega)] at this
            exact this
        · have := h j
          rw [memGet_below ((k, b) :: m) (lo := k) (by simp only [Memory.wfFrom, Bool.and_eq_true, decide_eq_true_eq]; exact ⟨⟨Nat.le_refl _, hm.1.2⟩, hm.2⟩) hk] at this
          simp [memGet] at this
          exact absurd this.symm hn.1.2
  exact go m n 0 hm hn h

/-- The reset memory is in canonical form. -/
theorem reset_mem_wf : Memory.wf State.reset.mem = true := rfl

/-- A byte written by address keeps the canonical form. -/
theorem State.pokeByte_wf (s : State) (key : Nat) (b : Byte) (h : Memory.wf s.mem = true) :
    Memory.wf (s.pokeByte key b).mem = true := by
  unfold State.pokeByte
  split
  · exact memPut_wf _ _ _ (by simpa using h)
  · split
    · exact memPut_wf _ _ _ h
    · exact memPut_wf _ _ _ h

theorem State.pokeBytes_wf (bs : List Byte) (s : State) (key : Nat) (h : Memory.wf s.mem = true) :
    Memory.wf (s.pokeBytes key bs).mem = true := by
  induction bs generalizing s key with
  | nil => exact h
  | cons b bs ih => exact ih _ _ (State.pokeByte_wf s key b h)

end Sys2Proof.Machine
end

