-- ==== Sys2Proof/Laws/PerInstr.lean ====
section
/-! SUPPORT. Per-instruction laws. EncodingFits: the encoding of an instruction is a field of one of the ten slots, no wider than the
slot (R39 Table 1); deeds of the device and the packets have none. -/

namespace Sys2Proof.Laws

/-- The encoding of i, if it has one, fits its slot. -/
def EncodingFits.Statement (i : Instr) : Prop :=
  match encode i with
  | some (slot, c) => slot < 10 ∧ c < 2 ^ slotWidth slot
  | none => True

theorem EncodingFits.ofS (u : SlotS) (uf : Nat) (f : FieldS) (h : uf < 256) :
    u.index < 10 ∧ bitsS uf f < 2 ^ slotWidth u.index := by
  cases u <;> exact ⟨by decide, bitsS_lt f h⟩
theorem EncodingFits.ofV (u : SlotV) (uf : Nat) (f : FieldV) (h : uf < 256) :
    u.index < 10 ∧ bitsV uf f < 2 ^ slotWidth u.index := by
  cases u <;> exact ⟨by decide, bitsV_lt f h⟩
theorem EncodingFits.ofM (u : SlotM) (uf : Nat) (f : FieldM) (h : uf < 256) :
    u.index < 10 ∧ bitsM uf f < 2 ^ slotWidth u.index := by
  cases u <;> exact ⟨by decide, bitsM_lt f h⟩

theorem EncodingFits.add (u : SlotS) (f : FieldS) : EncodingFits.Statement (.add u f) := EncodingFits.ofS u 0x01 f (by decide)
theorem EncodingFits.sub (u : SlotS) (f : FieldS) : EncodingFits.Statement (.sub u f) := EncodingFits.ofS u 0x02 f (by decide)
theorem EncodingFits.addw (u : SlotS) (f : FieldS) : EncodingFits.Statement (.addw u f) := EncodingFits.ofS u 0x03 f (by decide)
theorem EncodingFits.subw (u : SlotS) (f : FieldS) : EncodingFits.Statement (.subw u f) := EncodingFits.ofS u 0x04 f (by decide)
theorem EncodingFits.and (u : SlotS) (f : FieldS) : EncodingFits.Statement (.and u f) := EncodingFits.ofS u 0x05 f (by decide)
theorem EncodingFits.or (u : SlotS) (f : FieldS) : EncodingFits.Statement (.or u f) := EncodingFits.ofS u 0x06 f (by decide)
theorem EncodingFits.xor (u : SlotS) (f : FieldS) : EncodingFits.Statement (.xor u f) := EncodingFits.ofS u 0x07 f (by decide)
theorem EncodingFits.andn (u : SlotS) (f : FieldS) : EncodingFits.Statement (.andn u f) := EncodingFits.ofS u 0x08 f (by decide)
theorem EncodingFits.orn (u : SlotS) (f : FieldS) : EncodingFits.Statement (.orn u f) := EncodingFits.ofS u 0x09 f (by decide)
theorem EncodingFits.xnor (u : SlotS) (f : FieldS) : EncodingFits.Statement (.xnor u f) := EncodingFits.ofS u 0x0A f (by decide)
theorem EncodingFits.shl (u : SlotS) (f : FieldS) : EncodingFits.Statement (.shl u f) := EncodingFits.ofS u 0x0B f (by decide)
theorem EncodingFits.shr (u : SlotS) (f : FieldS) : EncodingFits.Statement (.shr u f) := EncodingFits.ofS u 0x0C f (by decide)
theorem EncodingFits.sar (u : SlotS) (f : FieldS) : EncodingFits.Statement (.sar u f) := EncodingFits.ofS u 0x0D f (by decide)
theorem EncodingFits.rotl (u : SlotS) (f : FieldS) : EncodingFits.Statement (.rotl u f) := EncodingFits.ofS u 0x0E f (by decide)
theorem EncodingFits.rotr (u : SlotS) (f : FieldS) : EncodingFits.Statement (.rotr u f) := EncodingFits.ofS u 0x0F f (by decide)
theorem EncodingFits.mul (u : SlotS) (f : FieldS) : EncodingFits.Statement (.mul u f) := EncodingFits.ofS u 0x10 f (by decide)
theorem EncodingFits.mulh (u : SlotS) (f : FieldS) : EncodingFits.Statement (.mulh u f) := EncodingFits.ofS u 0x11 f (by decide)
theorem EncodingFits.mulhu (u : SlotS) (f : FieldS) : EncodingFits.Statement (.mulhu u f) := EncodingFits.ofS u 0x12 f (by decide)
theorem EncodingFits.mulw (u : SlotS) (f : FieldS) : EncodingFits.Statement (.mulw u f) := EncodingFits.ofS u 0x13 f (by decide)
theorem EncodingFits.div (u : SlotS) (f : FieldS) : EncodingFits.Statement (.div u f) := EncodingFits.ofS u 0x14 f (by decide)
theorem EncodingFits.divu (u : SlotS) (f : FieldS) : EncodingFits.Statement (.divu u f) := EncodingFits.ofS u 0x15 f (by decide)
theorem EncodingFits.rem (u : SlotS) (f : FieldS) : EncodingFits.Statement (.rem u f) := EncodingFits.ofS u 0x16 f (by decide)
theorem EncodingFits.remu (u : SlotS) (f : FieldS) : EncodingFits.Statement (.remu u f) := EncodingFits.ofS u 0x17 f (by decide)
theorem EncodingFits.divw (u : SlotS) (f : FieldS) : EncodingFits.Statement (.divw u f) := EncodingFits.ofS u 0x18 f (by decide)
theorem EncodingFits.remw (u : SlotS) (f : FieldS) : EncodingFits.Statement (.remw u f) := EncodingFits.ofS u 0x19 f (by decide)
theorem EncodingFits.min (u : SlotS) (f : FieldS) : EncodingFits.Statement (.min u f) := EncodingFits.ofS u 0x1A f (by decide)
theorem EncodingFits.max (u : SlotS) (f : FieldS) : EncodingFits.Statement (.max u f) := EncodingFits.ofS u 0x1B f (by decide)
theorem EncodingFits.minu (u : SlotS) (f : FieldS) : EncodingFits.Statement (.minu u f) := EncodingFits.ofS u 0x1C f (by decide)
theorem EncodingFits.maxu (u : SlotS) (f : FieldS) : EncodingFits.Statement (.maxu u f) := EncodingFits.ofS u 0x1D f (by decide)
theorem EncodingFits.clz (u : SlotS) (f : FieldS) : EncodingFits.Statement (.clz u f) := EncodingFits.ofS u 0x1E f (by decide)
theorem EncodingFits.ctz (u : SlotS) (f : FieldS) : EncodingFits.Statement (.ctz u f) := EncodingFits.ofS u 0x1F f (by decide)
theorem EncodingFits.popc (u : SlotS) (f : FieldS) : EncodingFits.Statement (.popc u f) := EncodingFits.ofS u 0x20 f (by decide)
theorem EncodingFits.bswap (u : SlotS) (f : FieldS) : EncodingFits.Statement (.bswap u f) := EncodingFits.ofS u 0x21 f (by decide)
theorem EncodingFits.sext (u : SlotS) (f : FieldS) : EncodingFits.Statement (.sext u f) := EncodingFits.ofS u 0x22 f (by decide)
theorem EncodingFits.zext (u : SlotS) (f : FieldS) : EncodingFits.Statement (.zext u f) := EncodingFits.ofS u 0x23 f (by decide)
theorem EncodingFits.mov (u : SlotS) (f : FieldS) : EncodingFits.Statement (.mov u f) := EncodingFits.ofS u 0x24 f (by decide)
theorem EncodingFits.pack (u : SlotS) (f : FieldS) : EncodingFits.Statement (.pack u f) := EncodingFits.ofS u 0x25 f (by decide)
theorem EncodingFits.sel (u : SlotS) (f : FieldS) : EncodingFits.Statement (.sel u f) := EncodingFits.ofS u 0x26 f (by decide)
theorem EncodingFits.cmp (u : SlotS) (f : FieldS) : EncodingFits.Statement (.cmp u f) := EncodingFits.ofS u 0x27 f (by decide)
theorem EncodingFits.lea (u : SlotS) (f : FieldS) : EncodingFits.Statement (.lea u f) := EncodingFits.ofS u 0x28 f (by decide)
theorem EncodingFits.flset (u : SlotS) (f : FieldS) : EncodingFits.Statement (.flset u f) := EncodingFits.ofS u 0x29 f (by decide)
theorem EncodingFits.flget (u : SlotS) (f : FieldS) : EncodingFits.Statement (.flget u f) := EncodingFits.ofS u 0x2A f (by decide)
theorem EncodingFits.ident (u : SlotS) (f : FieldS) : EncodingFits.Statement (.ident u f) := EncodingFits.ofS u 0x2B f (by decide)
theorem EncodingFits.vget (u : SlotS) (f : FieldS) : EncodingFits.Statement (.vget u f) := EncodingFits.ofS u 0x2C f (by decide)
theorem EncodingFits.kget (u : SlotS) (f : FieldS) : EncodingFits.Statement (.kget u f) := EncodingFits.ofS u 0x2D f (by decide)
theorem EncodingFits.kset (u : SlotS) (f : FieldS) : EncodingFits.Statement (.kset u f) := EncodingFits.ofS u 0x2E f (by decide)
theorem EncodingFits.vadd (u : SlotV) (f : FieldV) : EncodingFits.Statement (.vadd u f) := EncodingFits.ofV u 0x01 f (by decide)
theorem EncodingFits.vsub (u : SlotV) (f : FieldV) : EncodingFits.Statement (.vsub u f) := EncodingFits.ofV u 0x02 f (by decide)
theorem EncodingFits.vmul (u : SlotV) (f : FieldV) : EncodingFits.Statement (.vmul u f) := EncodingFits.ofV u 0x03 f (by decide)
theorem EncodingFits.vmulh (u : SlotV) (f : FieldV) : EncodingFits.Statement (.vmulh u f) := EncodingFits.ofV u 0x04 f (by decide)
theorem EncodingFits.vfma (u : SlotV) (f : FieldV) : EncodingFits.Statement (.vfma u f) := EncodingFits.ofV u 0x05 f (by decide)
theorem EncodingFits.vfms (u : SlotV) (f : FieldV) : EncodingFits.Statement (.vfms u f) := EncodingFits.ofV u 0x06 f (by decide)
theorem EncodingFits.vfnma (u : SlotV) (f : FieldV) : EncodingFits.Statement (.vfnma u f) := EncodingFits.ofV u 0x07 f (by decide)
theorem EncodingFits.vdiv (u : SlotV) (f : FieldV) : EncodingFits.Statement (.vdiv u f) := EncodingFits.ofV u 0x08 f (by decide)
theorem EncodingFits.vrem (u : SlotV) (f : FieldV) : EncodingFits.Statement (.vrem u f) := EncodingFits.ofV u 0x09 f (by decide)
theorem EncodingFits.vmin (u : SlotV) (f : FieldV) : EncodingFits.Statement (.vmin u f) := EncodingFits.ofV u 0x0A f (by decide)
theorem EncodingFits.vmax (u : SlotV) (f : FieldV) : EncodingFits.Statement (.vmax u f) := EncodingFits.ofV u 0x0B f (by decide)
theorem EncodingFits.vabs (u : SlotV) (f : FieldV) : EncodingFits.Statement (.vabs u f) := EncodingFits.ofV u 0x0C f (by decide)
theorem EncodingFits.vneg (u : SlotV) (f : FieldV) : EncodingFits.Statement (.vneg u f) := EncodingFits.ofV u 0x0D f (by decide)
theorem EncodingFits.vsadd (u : SlotV) (f : FieldV) : EncodingFits.Statement (.vsadd u f) := EncodingFits.ofV u 0x0E f (by decide)
theorem EncodingFits.vssub (u : SlotV) (f : FieldV) : EncodingFits.Statement (.vssub u f) := EncodingFits.ofV u 0x0F f (by decide)
theorem EncodingFits.vand (u : SlotV) (f : FieldV) : EncodingFits.Statement (.vand u f) := EncodingFits.ofV u 0x10 f (by decide)
theorem EncodingFits.vor (u : SlotV) (f : FieldV) : EncodingFits.Statement (.vor u f) := EncodingFits.ofV u 0x11 f (by decide)
theorem EncodingFits.vxor (u : SlotV) (f : FieldV) : EncodingFits.Statement (.vxor u f) := EncodingFits.ofV u 0x12 f (by decide)
theorem EncodingFits.vandn (u : SlotV) (f : FieldV) : EncodingFits.Statement (.vandn u f) := EncodingFits.ofV u 0x13 f (by decide)
theorem EncodingFits.vnot (u : SlotV) (f : FieldV) : EncodingFits.Statement (.vnot u f) := EncodingFits.ofV u 0x14 f (by decide)
theorem EncodingFits.vshl (u : SlotV) (f : FieldV) : EncodingFits.Statement (.vshl u f) := EncodingFits.ofV u 0x15 f (by decide)
theorem EncodingFits.vshr (u : SlotV) (f : FieldV) : EncodingFits.Statement (.vshr u f) := EncodingFits.ofV u 0x16 f (by decide)
theorem EncodingFits.vsar (u : SlotV) (f : FieldV) : EncodingFits.Statement (.vsar u f) := EncodingFits.ofV u 0x17 f (by decide)
theorem EncodingFits.vcmp (u : SlotV) (f : FieldV) : EncodingFits.Statement (.vcmp u f) := EncodingFits.ofV u 0x18 f (by decide)
theorem EncodingFits.vsel (u : SlotV) (f : FieldV) : EncodingFits.Statement (.vsel u f) := EncodingFits.ofV u 0x19 f (by decide)
theorem EncodingFits.vcvt (u : SlotV) (f : FieldV) : EncodingFits.Statement (.vcvt u f) := EncodingFits.ofV u 0x1A f (by decide)
theorem EncodingFits.vpack (u : SlotV) (f : FieldV) : EncodingFits.Statement (.vpack u f) := EncodingFits.ofV u 0x1B f (by decide)
theorem EncodingFits.vunpk (u : SlotV) (f : FieldV) : EncodingFits.Statement (.vunpk u f) := EncodingFits.ofV u 0x1C f (by decide)
theorem EncodingFits.vdot4 (u : SlotV) (f : FieldV) : EncodingFits.Statement (.vdot4 u f) := EncodingFits.ofV u 0x1D f (by decide)
theorem EncodingFits.vdot2 (u : SlotV) (f : FieldV) : EncodingFits.Statement (.vdot2 u f) := EncodingFits.ofV u 0x1E f (by decide)
theorem EncodingFits.vclz (u : SlotV) (f : FieldV) : EncodingFits.Statement (.vclz u f) := EncodingFits.ofV u 0x1F f (by decide)
theorem EncodingFits.vpopc (u : SlotV) (f : FieldV) : EncodingFits.Statement (.vpopc u f) := EncodingFits.ofV u 0x20 f (by decide)
theorem EncodingFits.vrotr (u : SlotV) (f : FieldV) : EncodingFits.Statement (.vrotr u f) := EncodingFits.ofV u 0x28 f (by decide)
theorem EncodingFits.vbcr (u : SlotV) (f : FieldV) : EncodingFits.Statement (.vbcr u f) := EncodingFits.ofV u 0x29 f (by decide)
theorem EncodingFits.vredr (u : SlotV) (f : FieldV) : EncodingFits.Statement (.vredr u f) := EncodingFits.ofV u 0x2A f (by decide)
theorem EncodingFits.vscanr (u : SlotV) (f : FieldV) : EncodingFits.Statement (.vscanr u f) := EncodingFits.ofV u 0x2B f (by decide)
theorem EncodingFits.vshuf (u : SlotV) (f : FieldV) : EncodingFits.Statement (.vshuf u f) := EncodingFits.ofV u 0x2C f (by decide)
theorem EncodingFits.vvote (u : SlotV) (f : FieldV) : EncodingFits.Statement (.vvote u f) := EncodingFits.ofV u 0x2D f (by decide)
theorem EncodingFits.vrotc (u : SlotV) (f : FieldV) : EncodingFits.Statement (.vrotc u f) := EncodingFits.ofV u 0x30 f (by decide)
theorem EncodingFits.vbcc (u : SlotV) (f : FieldV) : EncodingFits.Statement (.vbcc u f) := EncodingFits.ofV u 0x31 f (by decide)
theorem EncodingFits.vredc (u : SlotV) (f : FieldV) : EncodingFits.Statement (.vredc u f) := EncodingFits.ofV u 0x32 f (by decide)
theorem EncodingFits.vscanc (u : SlotV) (f : FieldV) : EncodingFits.Statement (.vscanc u f) := EncodingFits.ofV u 0x33 f (by decide)
theorem EncodingFits.vmov (u : SlotV) (f : FieldV) : EncodingFits.Statement (.vmov u f) := EncodingFits.ofV u 0x38 f (by decide)
theorem EncodingFits.vput (u : SlotV) (f : FieldV) : EncodingFits.Statement (.vput u f) := EncodingFits.ofV u 0x39 f (by decide)
theorem EncodingFits.viota (u : SlotV) (f : FieldV) : EncodingFits.Statement (.viota u f) := EncodingFits.ofV u 0x3A f (by decide)
theorem EncodingFits.vkmov (u : SlotV) (f : FieldV) : EncodingFits.Statement (.vkmov u f) := EncodingFits.ofV u 0x3B f (by decide)
theorem EncodingFits.rcp (f : FieldF) : EncodingFits.Statement (.rcp f) := ⟨by decide, bitsF_lt f (uf := 0x01) (by decide)⟩
theorem EncodingFits.rsq (f : FieldF) : EncodingFits.Statement (.rsq f) := ⟨by decide, bitsF_lt f (uf := 0x02) (by decide)⟩
theorem EncodingFits.sqrt (f : FieldF) : EncodingFits.Statement (.sqrt f) := ⟨by decide, bitsF_lt f (uf := 0x03) (by decide)⟩
theorem EncodingFits.exp2 (f : FieldF) : EncodingFits.Statement (.exp2 f) := ⟨by decide, bitsF_lt f (uf := 0x04) (by decide)⟩
theorem EncodingFits.log2 (f : FieldF) : EncodingFits.Statement (.log2 f) := ⟨by decide, bitsF_lt f (uf := 0x05) (by decide)⟩
theorem EncodingFits.sinp (f : FieldF) : EncodingFits.Statement (.sinp f) := ⟨by decide, bitsF_lt f (uf := 0x06) (by decide)⟩
theorem EncodingFits.cosp (f : FieldF) : EncodingFits.Statement (.cosp f) := ⟨by decide, bitsF_lt f (uf := 0x07) (by decide)⟩
theorem EncodingFits.tanh (f : FieldF) : EncodingFits.Statement (.tanh f) := ⟨by decide, bitsF_lt f (uf := 0x08) (by decide)⟩
theorem EncodingFits.sigm (f : FieldF) : EncodingFits.Statement (.sigm f) := ⟨by decide, bitsF_lt f (uf := 0x09) (by decide)⟩
theorem EncodingFits.bnet (f : FieldF) : EncodingFits.Statement (.bnet f) := ⟨by decide, bitsF_lt f (uf := 0x10) (by decide)⟩
theorem EncodingFits.pdep (f : FieldF) : EncodingFits.Statement (.pdep f) := ⟨by decide, bitsF_lt f (uf := 0x11) (by decide)⟩
theorem EncodingFits.pext (f : FieldF) : EncodingFits.Statement (.pext f) := ⟨by decide, bitsF_lt f (uf := 0x12) (by decide)⟩
theorem EncodingFits.bperm (f : FieldF) : EncodingFits.Statement (.bperm f) := ⟨by decide, bitsF_lt f (uf := 0x13) (by decide)⟩
theorem EncodingFits.gfmm (f : FieldF) : EncodingFits.Statement (.gfmm f) := ⟨by decide, bitsF_lt f (uf := 0x14) (by decide)⟩
theorem EncodingFits.keccak (f : FieldF) : EncodingFits.Statement (.keccak f) := ⟨by decide, bitsF_lt f (uf := 0x15) (by decide)⟩
theorem EncodingFits.crcc (f : FieldF) : EncodingFits.Statement (.crcc f) := ⟨by decide, bitsF_lt f (uf := 0x16) (by decide)⟩
theorem EncodingFits.ld (u : SlotM) (f : FieldM) : EncodingFits.Statement (.ld u f) := EncodingFits.ofM u 0x01 f (by decide)
theorem EncodingFits.st (u : SlotM) (f : FieldM) : EncodingFits.Statement (.st u f) := EncodingFits.ofM u 0x02 f (by decide)
theorem EncodingFits.vld (u : SlotM) (f : FieldM) : EncodingFits.Statement (.vld u f) := EncodingFits.ofM u 0x03 f (by decide)
theorem EncodingFits.vst (u : SlotM) (f : FieldM) : EncodingFits.Statement (.vst u f) := EncodingFits.ofM u 0x04 f (by decide)
theorem EncodingFits.vgat (u : SlotM) (f : FieldM) : EncodingFits.Statement (.vgat u f) := EncodingFits.ofM u 0x05 f (by decide)
theorem EncodingFits.vsct (u : SlotM) (f : FieldM) : EncodingFits.Statement (.vsct u f) := EncodingFits.ofM u 0x06 f (by decide)
theorem EncodingFits.lds (u : SlotM) (f : FieldM) : EncodingFits.Statement (.lds u f) := EncodingFits.ofM u 0x07 f (by decide)
theorem EncodingFits.sts (u : SlotM) (f : FieldM) : EncodingFits.Statement (.sts u f) := EncodingFits.ofM u 0x08 f (by decide)
theorem EncodingFits.vlds (u : SlotM) (f : FieldM) : EncodingFits.Statement (.vlds u f) := EncodingFits.ofM u 0x09 f (by decide)
theorem EncodingFits.vsts (u : SlotM) (f : FieldM) : EncodingFits.Statement (.vsts u f) := EncodingFits.ofM u 0x0A f (by decide)
theorem EncodingFits.vgats (u : SlotM) (f : FieldM) : EncodingFits.Statement (.vgats u f) := EncodingFits.ofM u 0x0B f (by decide)
theorem EncodingFits.vscts (u : SlotM) (f : FieldM) : EncodingFits.Statement (.vscts u f) := EncodingFits.ofM u 0x0C f (by decide)
theorem EncodingFits.amo (u : SlotM) (f : FieldM) : EncodingFits.Statement (.amo u f) := EncodingFits.ofM u 0x10 f (by decide)
theorem EncodingFits.vamo (u : SlotM) (f : FieldM) : EncodingFits.Statement (.vamo u f) := EncodingFits.ofM u 0x11 f (by decide)
theorem EncodingFits.red (u : SlotM) (f : FieldM) : EncodingFits.Statement (.red u f) := EncodingFits.ofM u 0x12 f (by decide)
theorem EncodingFits.vred (u : SlotM) (f : FieldM) : EncodingFits.Statement (.vred u f) := EncodingFits.ofM u 0x13 f (by decide)
theorem EncodingFits.popq (u : SlotM) (f : FieldM) : EncodingFits.Statement (.popq u f) := EncodingFits.ofM u 0x14 f (by decide)
theorem EncodingFits.fence (u : SlotM) (f : FieldM) : EncodingFits.Statement (.fence u f) := EncodingFits.ofM u 0x18 f (by decide)
theorem EncodingFits.pref (u : SlotM) (f : FieldM) : EncodingFits.Statement (.pref u f) := EncodingFits.ofM u 0x19 f (by decide)
theorem EncodingFits.waita (u : SlotM) (f : FieldM) : EncodingFits.Statement (.waita u f) := EncodingFits.ofM u 0x1A f (by decide)
theorem EncodingFits.qpush (u : SlotM) (f : FieldM) : EncodingFits.Statement (.qpush u f) := EncodingFits.ofM u 0x1C f (by decide)
theorem EncodingFits.qpop (u : SlotM) (f : FieldM) : EncodingFits.Statement (.qpop u f) := EncodingFits.ofM u 0x1D f (by decide)
theorem EncodingFits.cspush (u : SlotM) (f : FieldM) : EncodingFits.Statement (.cspush u f) := EncodingFits.ofM u 0x20 f (by decide)
theorem EncodingFits.cspop (u : SlotM) (f : FieldM) : EncodingFits.Statement (.cspop u f) := EncodingFits.ofM u 0x21 f (by decide)
theorem EncodingFits.cacheop (u : SlotM) (f : FieldM) : EncodingFits.Statement (.cacheop u f) := EncodingFits.ofM u 0x24 f (by decide)
theorem EncodingFits.br (f : FieldC) : EncodingFits.Statement (.br f) := ⟨by decide, bitsC_lt f (uf := 0x01) (by decide)⟩
theorem EncodingFits.brf (f : FieldC) : EncodingFits.Statement (.brf f) := ⟨by decide, bitsC_lt f (uf := 0x02) (by decide)⟩
theorem EncodingFits.brnf (f : FieldC) : EncodingFits.Statement (.brnf f) := ⟨by decide, bitsC_lt f (uf := 0x03) (by decide)⟩
theorem EncodingFits.jr (f : FieldC) : EncodingFits.Statement (.jr f) := ⟨by decide, bitsC_lt f (uf := 0x04) (by decide)⟩
theorem EncodingFits.call (f : FieldC) : EncodingFits.Statement (.call f) := ⟨by decide, bitsC_lt f (uf := 0x05) (by decide)⟩
theorem EncodingFits.ret (f : FieldC) : EncodingFits.Statement (.ret f) := ⟨by decide, bitsC_lt f (uf := 0x06) (by decide)⟩
theorem EncodingFits.loop (f : FieldC) : EncodingFits.Statement (.loop f) := ⟨by decide, bitsC_lt f (uf := 0x08) (by decide)⟩
theorem EncodingFits.lexit (f : FieldC) : EncodingFits.Statement (.lexit f) := ⟨by decide, bitsC_lt f (uf := 0x09) (by decide)⟩
theorem EncodingFits.ipf (f : FieldC) : EncodingFits.Statement (.ipf f) := ⟨by decide, bitsC_lt f (uf := 0x0A) (by decide)⟩
theorem EncodingFits.pin (f : FieldC) : EncodingFits.Statement (.pin f) := ⟨by decide, bitsC_lt f (uf := 0x0B) (by decide)⟩
theorem EncodingFits.unpin (f : FieldC) : EncodingFits.Statement (.unpin f) := ⟨by decide, bitsC_lt f (uf := 0x0C) (by decide)⟩
theorem EncodingFits.wait (f : FieldC) : EncodingFits.Statement (.wait f) := ⟨by decide, bitsC_lt f (uf := 0x10) (by decide)⟩
theorem EncodingFits.yield (f : FieldC) : EncodingFits.Statement (.yield f) := ⟨by decide, bitsC_lt f (uf := 0x11) (by decide)⟩
theorem EncodingFits.bar (f : FieldC) : EncodingFits.Statement (.bar f) := ⟨by decide, bitsC_lt f (uf := 0x12) (by decide)⟩
theorem EncodingFits.chkt (f : FieldC) : EncodingFits.Statement (.chkt f) := ⟨by decide, bitsC_lt f (uf := 0x14) (by decide)⟩
theorem EncodingFits.trap (f : FieldC) : EncodingFits.Statement (.trap f) := ⟨by decide, bitsC_lt f (uf := 0x15) (by decide)⟩
theorem EncodingFits.svc (f : FieldC) : EncodingFits.Statement (.svc f) := ⟨by decide, bitsC_lt f (uf := 0x16) (by decide)⟩
theorem EncodingFits.eret (f : FieldC) : EncodingFits.Statement (.eret f) := ⟨by decide, bitsC_lt f (uf := 0x17) (by decide)⟩
theorem EncodingFits.exit (f : FieldC) : EncodingFits.Statement (.exit f) := ⟨by decide, bitsC_lt f (uf := 0x18) (by decide)⟩
theorem EncodingFits.cont (f : FieldC) : EncodingFits.Statement (.cont f) := ⟨by decide, bitsC_lt f (uf := 0x19) (by decide)⟩
theorem EncodingFits.phbeg (f : FieldC) : EncodingFits.Statement (.phbeg f) := ⟨by decide, bitsC_lt f (uf := 0x1A) (by decide)⟩
theorem EncodingFits.phsw (f : FieldC) : EncodingFits.Statement (.phsw f) := ⟨by decide, bitsC_lt f (uf := 0x1B) (by decide)⟩
theorem EncodingFits.csrr (f : FieldC) : EncodingFits.Statement (.csrr f) := ⟨by decide, bitsC_lt f (uf := 0x20) (by decide)⟩
theorem EncodingFits.csrw (f : FieldC) : EncodingFits.Statement (.csrw f) := ⟨by decide, bitsC_lt f (uf := 0x21) (by decide)⟩
theorem EncodingFits.csrs (f : FieldC) : EncodingFits.Statement (.csrs f) := ⟨by decide, bitsC_lt f (uf := 0x22) (by decide)⟩
theorem EncodingFits.csrc (f : FieldC) : EncodingFits.Statement (.csrc f) := ⟨by decide, bitsC_lt f (uf := 0x23) (by decide)⟩
theorem EncodingFits.dload (f : FieldC) : EncodingFits.Statement (.dload f) := ⟨by decide, bitsC_lt f (uf := 0x24) (by decide)⟩
theorem EncodingFits.ddrop (f : FieldC) : EncodingFits.Statement (.ddrop f) := ⟨by decide, bitsC_lt f (uf := 0x25) (by decide)⟩
theorem EncodingFits.tlbinv (f : FieldC) : EncodingFits.Statement (.tlbinv f) := ⟨by decide, bitsC_lt f (uf := 0x26) (by decide)⟩
theorem EncodingFits.bankmode (f : FieldC) : EncodingFits.Statement (.bankmode f) := ⟨by decide, bitsC_lt f (uf := 0x27) (by decide)⟩
theorem EncodingFits.ctxsave (f : FieldC) : EncodingFits.Statement (.ctxsave f) := ⟨by decide, bitsC_lt f (uf := 0x28) (by decide)⟩
theorem EncodingFits.ctxrest (f : FieldC) : EncodingFits.Statement (.ctxrest f) := ⟨by decide, bitsC_lt f (uf := 0x29) (by decide)⟩
theorem EncodingFits.halt (f : FieldC) : EncodingFits.Statement (.halt f) := ⟨by decide, bitsC_lt f (uf := 0x2A) (by decide)⟩
theorem EncodingFits.mma (f : FieldE) : EncodingFits.Statement (.mma f) := ⟨by decide, bitsE_lt f (uf := 0x01) (by decide)⟩
theorem EncodingFits.mmaz (f : FieldE) : EncodingFits.Statement (.mmaz f) := ⟨by decide, bitsE_lt f (uf := 0x02) (by decide)⟩
theorem EncodingFits.mmas (f : FieldE) : EncodingFits.Statement (.mmas f) := ⟨by decide, bitsE_lt f (uf := 0x03) (by decide)⟩
theorem EncodingFits.mmaa (f : FieldE) : EncodingFits.Statement (.mmaa f) := ⟨by decide, bitsE_lt f (uf := 0x04) (by decide)⟩
theorem EncodingFits.mmai (f : FieldE) : EncodingFits.Statement (.mmai f) := ⟨by decide, bitsE_lt f (uf := 0x05) (by decide)⟩
theorem EncodingFits.lsl (f : FieldE) : EncodingFits.Statement (.lsl f) := ⟨by decide, bitsE_lt f (uf := 0x08) (by decide)⟩
theorem EncodingFits.tzero (f : FieldE) : EncodingFits.Statement (.tzero f) := ⟨by decide, bitsE_lt f (uf := 0x09) (by decide)⟩
theorem EncodingFits.txp (f : FieldE) : EncodingFits.Statement (.txp f) := ⟨by decide, bitsE_lt f (uf := 0x0A) (by decide)⟩
theorem EncodingFits.tcvt (f : FieldE) : EncodingFits.Statement (.tcvt f) := ⟨by decide, bitsE_lt f (uf := 0x0B) (by decide)⟩
theorem EncodingFits.t2v (f : FieldE) : EncodingFits.Statement (.t2v f) := ⟨by decide, bitsE_lt f (uf := 0x0C) (by decide)⟩
theorem EncodingFits.v2t (f : FieldE) : EncodingFits.Statement (.v2t f) := ⟨by decide, bitsE_lt f (uf := 0x0D) (by decide)⟩
theorem EncodingFits.tcopy (f : FieldE) : EncodingFits.Statement (.tcopy f) := ⟨by decide, bitsE_lt f (uf := 0x10) (by decide)⟩
theorem EncodingFits.tgath (f : FieldE) : EncodingFits.Statement (.tgath f) := ⟨by decide, bitsE_lt f (uf := 0x11) (by decide)⟩
theorem EncodingFits.tload (f : FieldE) : EncodingFits.Statement (.tload f) := ⟨by decide, bitsE_lt f (uf := 0x12) (by decide)⟩
theorem EncodingFits.tstore (f : FieldE) : EncodingFits.Statement (.tstore f) := ⟨by decide, bitsE_lt f (uf := 0x13) (by decide)⟩
theorem EncodingFits.uclaim (f : FieldC) : EncodingFits.Statement (.uclaim f) := ⟨by decide, bitsC_lt f (uf := 0x20) (by decide)⟩
theorem EncodingFits.uret (f : FieldC) : EncodingFits.Statement (.uret f) := ⟨by decide, bitsC_lt f (uf := 0x21) (by decide)⟩
theorem EncodingFits.ulaunch (f : FieldC) : EncodingFits.Statement (.ulaunch f) := ⟨by decide, bitsC_lt f (uf := 0x21) (by decide)⟩
theorem EncodingFits.userve (f : FieldC) : EncodingFits.Statement (.userve f) := ⟨by decide, bitsC_lt f (uf := 0x21) (by decide)⟩
theorem EncodingFits.idle (a : Nat) (b : Nat) : EncodingFits.Statement (.idle a b) := trivial
theorem EncodingFits.evContextSelect (a : Nat) : EncodingFits.Statement (.evContextSelect a) := trivial
theorem EncodingFits.evFairnessSwitch (a : Nat) : EncodingFits.Statement (.evFairnessSwitch a) := trivial
theorem EncodingFits.evForcedSwitch (a : Nat) : EncodingFits.Statement (.evForcedSwitch a) := trivial
theorem EncodingFits.evTrapEntry (a : Nat) : EncodingFits.Statement (.evTrapEntry a) := trivial
theorem EncodingFits.evDebugStop (a : Nat) : EncodingFits.Statement (.evDebugStop a) := trivial
theorem EncodingFits.evContextDone (a : Nat) : EncodingFits.Statement (.evContextDone a) := trivial
theorem EncodingFits.evGroupEnd (a : Nat) : EncodingFits.Statement (.evGroupEnd a) := trivial
theorem EncodingFits.evGroupPlace (a : Nat) : EncodingFits.Statement (.evGroupPlace a) := trivial
theorem EncodingFits.evSteal (a : Nat) : EncodingFits.Statement (.evSteal a) := trivial
theorem EncodingFits.evPreempt (a : Nat) : EncodingFits.Statement (.evPreempt a) := trivial
theorem EncodingFits.evResumption (a : Nat) (b : Nat) : EncodingFits.Statement (.evResumption a b) := trivial
theorem EncodingFits.evPendingAccessComplete (a : Nat) (b : Nat) : EncodingFits.Statement (.evPendingAccessComplete a b) := trivial
theorem EncodingFits.evTurnEnd (a : Nat) : EncodingFits.Statement (.evTurnEnd a) := trivial
theorem EncodingFits.evDictionaryRefill (a : RefillEvent) : EncodingFits.Statement (.evDictionaryRefill a) := trivial
theorem EncodingFits.evWalkComplete (a : Nat) : EncodingFits.Statement (.evWalkComplete a) := trivial
theorem EncodingFits.evDlqArrival (a : Nat) (b : Nat) : EncodingFits.Statement (.evDlqArrival a b) := trivial
theorem EncodingFits.evStorePerformed (a : Nat) : EncodingFits.Statement (.evStorePerformed a) := trivial
theorem EncodingFits.evVectorAccessComplete (a : Nat) (b : Nat) : EncodingFits.Statement (.evVectorAccessComplete a b) := trivial
theorem EncodingFits.evAccessFailure (a b : Nat) (c : AccessFault) : EncodingFits.Statement (.evAccessFailure a b c) := trivial
theorem EncodingFits.evWatchFire (a : Nat) (b : Nat) : EncodingFits.Statement (.evWatchFire a b) := trivial
theorem EncodingFits.evTlbinvComplete (a : Nat) : EncodingFits.Statement (.evTlbinvComplete a) := trivial
theorem EncodingFits.evBankSwitchComplete (a : Nat) : EncodingFits.Statement (.evBankSwitchComplete a) := trivial
theorem EncodingFits.evCacheopComplete (a : Nat) : EncodingFits.Statement (.evCacheopComplete a) := trivial
theorem EncodingFits.evCtxImageComplete (a : Nat) : EncodingFits.Statement (.evCtxImageComplete a) := trivial
theorem EncodingFits.evLtsAdvance (a : Nat) (b : Nat) : EncodingFits.Statement (.evLtsAdvance a b) := trivial
theorem EncodingFits.evBackInvalidation (a : Nat) (b : Option (List (BitVec 8))) : EncodingFits.Statement (.evBackInvalidation a b) := trivial
theorem EncodingFits.evOverrunRollback (a : Nat) : EncodingFits.Statement (.evOverrunRollback a) := trivial
theorem EncodingFits.evPhaseCancel (a : Nat) : EncodingFits.Statement (.evPhaseCancel a) := trivial
theorem EncodingFits.evPhaseRefetchComplete (a : Nat) : EncodingFits.Statement (.evPhaseRefetchComplete a) := trivial
theorem EncodingFits.evContainedFault (a : Nat) : EncodingFits.Statement (.evContainedFault a) := trivial
theorem EncodingFits.evRendezvousTimeout (a : Nat) (b : Nat) : EncodingFits.Statement (.evRendezvousTimeout a b) := trivial
theorem EncodingFits.evDivergedStateEnd (a : Nat) (b : Nat) : EncodingFits.Statement (.evDivergedStateEnd a b) := trivial
theorem EncodingFits.evCanopyStart (a : Nat) : EncodingFits.Statement (.evCanopyStart a) := trivial
theorem EncodingFits.evCanopyComplete (a : Nat) (b : Nat) : EncodingFits.Statement (.evCanopyComplete a b) := trivial
theorem EncodingFits.evCanopyFault (a : Nat) : EncodingFits.Statement (.evCanopyFault a) := trivial
theorem EncodingFits.evCopyStart (a : Nat) : EncodingFits.Statement (.evCopyStart a) := trivial
theorem EncodingFits.evCopyComplete (a : Nat) (b : Nat) : EncodingFits.Statement (.evCopyComplete a b) := trivial
theorem EncodingFits.evCopyFault (a : Nat) (b : Bool) : EncodingFits.Statement (.evCopyFault a b) := trivial
theorem EncodingFits.evGovernorSample (a : Nat) : EncodingFits.Statement (.evGovernorSample a) := trivial
theorem EncodingFits.evNotify (a : Nat) (b : BitVec 64) : EncodingFits.Statement (.evNotify a b) := trivial
theorem EncodingFits.evQueueResume (a : Nat) : EncodingFits.Statement (.evQueueResume a) := trivial
theorem EncodingFits.evQueueEnable (a : Nat) : EncodingFits.Statement (.evQueueEnable a) := trivial
theorem EncodingFits.evQueueDisable (a : Nat) : EncodingFits.Statement (.evQueueDisable a) := trivial
theorem EncodingFits.evInvoke (a : Nat) : EncodingFits.Statement (.evInvoke a) := trivial
theorem EncodingFits.evDispatch (a : Nat) : EncodingFits.Statement (.evDispatch a) := trivial
theorem EncodingFits.evCopyPacket (a : Nat) (b : Nat) : EncodingFits.Statement (.evCopyPacket a b) := trivial
theorem EncodingFits.evSignalPacket (a : Nat) : EncodingFits.Statement (.evSignalPacket a) := trivial
theorem EncodingFits.evWaitPacket (a : Nat) : EncodingFits.Statement (.evWaitPacket a) := trivial
theorem EncodingFits.evBarrierAnd (a : Nat) : EncodingFits.Statement (.evBarrierAnd a) := trivial
theorem EncodingFits.evContinue (a : Nat) : EncodingFits.Statement (.evContinue a) := trivial
theorem EncodingFits.evAdapterHint (a : Nat) : EncodingFits.Statement (.evAdapterHint a) := trivial
theorem EncodingFits.evQueueUnblock (a : Nat) : EncodingFits.Statement (.evQueueUnblock a) := trivial
theorem EncodingFits.evWaitTimeout (a : Nat) : EncodingFits.Statement (.evWaitTimeout a) := trivial
theorem EncodingFits.evCommandComplete (a : Nat) : EncodingFits.Statement (.evCommandComplete a) := trivial
theorem EncodingFits.evFaultResume (a : Nat) (b : Nat) : EncodingFits.Statement (.evFaultResume a b) := trivial
theorem EncodingFits.evFaultCancel (a : Nat) (b : Nat) : EncodingFits.Statement (.evFaultCancel a b) := trivial
theorem EncodingFits.evFaultRelease (a : Nat) (b : Nat) : EncodingFits.Statement (.evFaultRelease a b) := trivial
theorem EncodingFits.evTrcbaseWrite (a : Nat) (b : BitVec 64) : EncodingFits.Statement (.evTrcbaseWrite a b) := trivial
theorem EncodingFits.evDebugHalt (a : Nat) (b : BitVec 64) : EncodingFits.Statement (.evDebugHalt a b) := trivial
theorem EncodingFits.evDebugRelease (a : Nat) (b : BitVec 64) : EncodingFits.Statement (.evDebugRelease a b) := trivial
theorem EncodingFits.evDump (a : Nat) (b : BitVec 64) : EncodingFits.Statement (.evDump a b) := trivial
theorem EncodingFits.evLoad (a : Nat) (b : BitVec 64) : EncodingFits.Statement (.evLoad a b) := trivial
theorem EncodingFits.evStopq (a : Nat) (b : BitVec 64) : EncodingFits.Statement (.evStopq a b) := trivial
theorem EncodingFits.evGoq (a : Nat) (b : BitVec 64) : EncodingFits.Statement (.evGoq a b) := trivial
theorem EncodingFits.evStepq (a : Nat) (b : BitVec 64) : EncodingFits.Statement (.evStepq a b) := trivial
theorem EncodingFits.evTraceSample (a : Nat) : EncodingFits.Statement (.evTraceSample a) := trivial
theorem EncodingFits.evTblcmd (a : BitVec 64) : EncodingFits.Statement (.evTblcmd a) := trivial
theorem EncodingFits.evTableUpdate : EncodingFits.Statement (.evTableUpdate) := trivial
theorem EncodingFits.evMailboxExtend (a : Nat) (b : List (BitVec 8)) : EncodingFits.Statement (.evMailboxExtend a b) := trivial
theorem EncodingFits.evRegisterWrite (a : Nat) (b : BitVec 64) : EncodingFits.Statement (.evRegisterWrite a b) := trivial
theorem EncodingFits.evGetVersion (a : SpdmRequest) : EncodingFits.Statement (.evGetVersion a) := trivial
theorem EncodingFits.evGetCapabilities (a : SpdmRequest) : EncodingFits.Statement (.evGetCapabilities a) := trivial
theorem EncodingFits.evNegotiateAlgorithms (a : SpdmRequest) : EncodingFits.Statement (.evNegotiateAlgorithms a) := trivial
theorem EncodingFits.evGetDigests (a : SpdmRequest) : EncodingFits.Statement (.evGetDigests a) := trivial
theorem EncodingFits.evGetCertificate (a : SpdmRequest) : EncodingFits.Statement (.evGetCertificate a) := trivial
theorem EncodingFits.evChallenge (a : SpdmRequest) : EncodingFits.Statement (.evChallenge a) := trivial
theorem EncodingFits.evGetMeasurements (a : SpdmRequest) : EncodingFits.Statement (.evGetMeasurements a) := trivial
theorem EncodingFits.evKeyExchange (a : SpdmRequest) : EncodingFits.Statement (.evKeyExchange a) := trivial
theorem EncodingFits.evFinish (a : SpdmRequest) : EncodingFits.Statement (.evFinish a) := trivial
theorem EncodingFits.evEndSession (a : SpdmRequest) : EncodingFits.Statement (.evEndSession a) := trivial
theorem EncodingFits.evIdeKm (a : SpdmRequest) : EncodingFits.Statement (.evIdeKm a) := trivial
theorem EncodingFits.evUnsupportedRequest (a : SpdmRequest) : EncodingFits.Statement (.evUnsupportedRequest a) := trivial
theorem EncodingFits.evPackageReset : EncodingFits.Statement (.evPackageReset) := trivial
theorem EncodingFits.evSecurityFailover : EncodingFits.Statement (.evSecurityFailover) := trivial
theorem EncodingFits.evReadySet (a : Nat) (b : Nat) : EncodingFits.Statement (.evReadySet a b) := trivial
theorem EncodingFits.evClusterFail (a : Nat) : EncodingFits.Statement (.evClusterFail a) := trivial
theorem EncodingFits.evDieLost (a : Nat) : EncodingFits.Statement (.evDieLost a) := trivial
theorem EncodingFits.evRootPortLinkDown (a : Nat) : EncodingFits.Statement (.evRootPortLinkDown a) := trivial
theorem EncodingFits.evLinkRecoveryTimeout (a : Nat) : EncodingFits.Statement (.evLinkRecoveryTimeout a) := trivial
theorem EncodingFits.evLinkRetrain (a : Nat) : EncodingFits.Statement (.evLinkRetrain a) := trivial
theorem EncodingFits.evPoolRegionLostReport (a : Nat) : EncodingFits.Statement (.evPoolRegionLostReport a) := trivial
theorem EncodingFits.evHostLinkDown : EncodingFits.Statement (.evHostLinkDown) := trivial
theorem EncodingFits.evHostHdmAccess (a : HostAccess) : EncodingFits.Statement (.evHostHdmAccess a) := trivial
theorem EncodingFits.evRideFlit (a : RideFlit) : EncodingFits.Statement (.evRideFlit a) := trivial
theorem EncodingFits.evRideRailLost (a : Nat) (b : AbsorbedFailure) : EncodingFits.Statement (.evRideRailLost a b) := trivial
theorem EncodingFits.evInstructionCacheFill (a : Nat) : EncodingFits.Statement (.evInstructionCacheFill a) := trivial
theorem EncodingFits.evRidePortReturn (a : Nat) : EncodingFits.Statement (.evRidePortReturn a) := trivial
theorem EncodingFits.evHostLinkRetrain : EncodingFits.Statement (.evHostLinkRetrain) := trivial
theorem EncodingFits.evUnitFail (a : Nat) (b : Nat) : EncodingFits.Statement (.evUnitFail a b) := trivial

end Sys2Proof.Laws
end

