-- ==== Sys2Proof/Laws/Scalar.lean ====
section
/-! SUPPORT. What the shared S-class operation does: its results in flight, and nothing else. -/

namespace Sys2Proof.Machine

/-- The results that an S-class operation puts in flight (R103). -/
def ScalarResult.lands (u : SlotS) (lat : Nat) (r : ScalarResult) (e : Env) : List (Nat × Landing) :=
  (e.t + lat, .latchS u.index r.value) ::
    ((match r.dest with | some w => [(e.t + lat + 1, w)] | none => [])
      ++ if r.status = 0 then [] else [(e.t + lat + 1, .status u.index r.status)])

/-- The effect of an S-class operation is its results put in flight, one after another. -/
theorem scalarEffect_eq (u : SlotS) (lat : Nat) (r : ScalarResult) (e : Env) (s : State) :
    scalarEffect u lat r e s = (r.lands u lat e).foldl (fun s x => s.addPending e.k (resultOf e u.index x)) s := by
  unfold scalarEffect ScalarResult.lands
  cases r.dest <;> by_cases hs : r.status = 0 <;> simp only [hs, if_true, if_false] <;> rfl

/-- An S-class operation that stands ready issues, and its results join those in flight. -/
theorem scalarOp_results {s : State} {e : Env} (u : SlotS) (f : FieldS) (uf lat occ : Nat) (res : Env → State → ScalarResult)
    (hr : Ready s e u.index f.pf f.pn) :
    Results s (issueOps [scalarOp u f uf lat occ res] s) e u.index occ 1
      ((res e (startIssue e s [scalarOp u f uf lat occ res])).lands u lat e) := by
  have hp : Passes (scalarOp u f uf lat occ res) e s :=
    ⟨fun h => absurd h Bool.false_ne_true, rfl, rfl, rfl, rfl, .inr rfl, fun _ => rfl⟩
  rw [issueOps_passes (o := scalarOp u f uf lat occ res) hr hp]
  have := results_fold s e (scalarOp u f uf lat occ res) ((res e (startIssue e s [scalarOp u f uf lat occ res])).lands u lat e)
  show Results s (scalarEffect u lat (res e (startIssue e s [scalarOp u f uf lat occ res])) e _) _ _ _ _ _
  rw [scalarEffect_eq]
  exact this

/-- The sources of an S-class operation read what they read before its bundle issued. -/
theorem opaS_start (u : SlotS) (f : FieldS) (e : Env) (s : State) (ops : List SlotOp) :
    opaS u f e (startIssue e s ops) = scalarOperand s e u.index 0 f.opa :=
  (startIssue_sameReads e s ops).scalarOperand _ _ _
theorem opbS_start (u : SlotS) (f : FieldS) (e : Env) (s : State) (ops : List SlotOp) :
    opbS u f e (startIssue e s ops) = scalarOperand s e u.index 1 f.opb :=
  (startIssue_sameReads e s ops).scalarOperand _ _ _

end Sys2Proof.Machine
end

