-- ==== Sys2Proof/Laws/Vector.lean ====
section
/-! SUPPORT. What the shared vector operations do: their results in flight, the rows they go on to read, and nothing else. -/

namespace Sys2Proof.Machine

/-- What a row result puts in flight, one after another. -/
def rowResults (slot issued lat row dst : Nat) (ws : Bool) (contested : W64) (latchRow : Row) (m : W64) (value : Row) (st : Status) :
    List Pending :=
  (if slot < 16 then [{ due := issued + lat, issued := issued, slot := slot % 16, contested := 0
                        what := .latchV (vectorLatch slot) row latchRow }] else [])
    ++ (if ws then [] else [{ due := issued + lat + 1, issued := issued, slot := slot % 16, contested := contested
                              what := .vrow dst row m value }])
    ++ (if st = 0 then [] else [{ due := issued + lat + 1, issued := issued, slot := slot % 16, contested := 0
                                  what := .status (slot % 16) st }])

theorem putRow_eq (k slot issued lat row dst : Nat) (ws : Bool) (contested : W64) (latchRow : Row) (m : W64) (value : Row) (st : Status)
    (s : State) :
    putRow k slot issued lat row dst ws contested latchRow m value st s =
      (rowResults slot issued lat row dst ws contested latchRow m value st).foldl (fun s p => s.addPending k p) s := by
  unfold putRow rowResults
  by_cases h1 : slot < 16 <;> cases ws <;> by_cases h3 : st = 0 <;>
    simp only [h1, h3, if_true, if_false, Bool.false_eq_true] <;> rfl

/-- Results put in flight one after another change the pending results and the notes on rows, and nothing else. -/
theorem addPending_fold (ps : List Pending) (s : State) (k n : Nat) :
    OnlyAt s (ps.foldl (fun s p => s.addPending k p) s) k n ∧
    (∀ j, (ps.foldl (fun s p => s.addPending k p) s).core j = s.core j) ∧
    ∃ rows, SameRows rows (s.ctx k).rows ∧
      (ps.foldl (fun s p => s.addPending k p) s).ctx k =
        { s.ctx k with pending := ps.foldl Machine.addPending (s.ctx k).pending, rows := rows } := by
  induction ps generalizing s with
  | nil => exact ⟨.refl s k n, fun _ => rfl, _, .refl _, rfl⟩
  | cons p ps ih =>
    obtain ⟨h1, h2, rows, h3, h4⟩ := ih (s.addPending k p)
    obtain ⟨rows', h5, h6⟩ := State.addPending_ctx s k p
    refine ⟨(State.addPending_only s k n p).trans h1, fun j => (h2 j).trans rfl, rows, ?_, ?_⟩
    · rw [h6] at h3; exact h3.trans h5
    · simp only [List.foldl_cons]; rw [h4, h6]

end Sys2Proof.Machine
end

