-- ==== Sys2Proof/Tests/Slice0.lean ====
section
/-! SUPPORT. Tests: well-formedness refuses, words decode to the instructions they stand for, single steps give what the spec's
tables and worked examples say; and for every obligation with hypotheses a concrete state and operands that meet them. -/

set_option maxRecDepth 100000

namespace Sys2Proof.Tests

set_option Elab.async false

open Sys2Proof Sys2Proof.Machine

/-! ## Terms to build tests from -/

def fS : FieldS := { ws := false, dst := 0, opa := 0, opb := 0, pf := 0, pn := false, aux := 0 }
def fV : FieldV :=
  { ws := false, dst := 0, opa := 0, opb := 0, opc := 0, pf := 0, pn := false, ks := 0, rb := 0, rn := 0, et := 0, aux := 0 }
def fF : FieldF := { ws := false, dst := 0, opa := 0, opb := 0, pf := 0, pn := false, aux := 0 }
def fM : FieldM :=
  { ws := false, dst := 0, opa := 0, opb := 0, pf := 0, pn := false, sc := 0, sz := 0, ks := 0, aux := 0 }
def fC : FieldC := { ws := false, dst := 0, opa := 0, pf := 0, pn := false, aux := 0 }
def fE : FieldE := { beats := 0, td := 0, ta := 0, sl := 0, ops := 0, pf := 0, pn := false, aux := 0 }
/-- The verdict on a compute core outside a PRIV dictionary. -/
def wf (i : Instr) : Bool := wellFormed .compute false i

/-! ## Well-formedness: one ill-formed term for each check, beside a well-formed one (R43, R82, R395) -/

theorem test_wf_scalar : wf (.add .sa { fS with opa := 33, opb := 47 }) ∧ ¬ wf (.add .sa { fS with aux := 1 }) ∧
    ¬ wf (.add .sb { fS with opa := 34 }) ∧ ¬ wf (.add .sb { fS with opb := 48 }) ∧ ¬ wf (.add .sa { fS with ws := true, dst := 1 }) ∧
    ¬ wf (.clz .sa { fS with opb := 1 }) ∧ ¬ wf (.sext .sa { fS with aux := 64 }) ∧ ¬ wf (.pack .sa { fS with aux := 64 }) ∧
    ¬ wf (.sel .sa { fS with aux := 16 }) ∧ ¬ wf (.lea .sa { fS with aux := 8 }) ∧ ¬ wf (.flget .sa { fS with opa := 1 }) ∧
    ¬ wf (.ident .sa { fS with aux := 10 }) ∧ ¬ wf (.kget .sa { fS with aux := 8 }) := by decide
theorem test_wf_scalar_special : wf (.cmp .sa { fS with dst := 15, aux := 0x17 }) ∧ ¬ wf (.cmp .sa { fS with dst := 16 }) ∧
    ¬ wf (.cmp .sa { fS with aux := 8 }) ∧ ¬ wf (.flset .sa { fS with dst := 1 }) ∧ ¬ wf (.kset .sa { fS with dst := 8 }) ∧
    wf (.vget .sa { fS with opa := 34 }) ∧ ¬ wf (.vget .sa { fS with opa := 32 }) ∧ ¬ wf (.vget .sa { fS with aux := 2 }) := by decide
theorem test_wf_vector : wf (.vadd .va { fV with rb := 15, et := 7 }) ∧ ¬ wf (.vadd .va { fV with rb := 15, rn := 1 }) ∧
    ¬ wf (.vadd .va { fV with opc := 1 }) ∧ ¬ wf (.vadd .va { fV with opa := 32 }) ∧ ¬ wf (.vadd .va { fV with aux := 1 }) ∧
    ¬ wf (.vshl .va { fV with et := 2 }) ∧ ¬ wf (.vfma .va { fV with et := 0 }) ∧ ¬ wf (.vneg .va { fV with opb := 1 }) ∧
    ¬ wf (.vcmp .va { fV with dst := 8 }) ∧ ¬ wf (.vcmp .va { fV with aux := 6 }) ∧ wf (.vcmp .va { fV with aux := 6, et := 2 }) ∧
    ¬ wf (.vcmp .va { fV with aux := 32 }) ∧ ¬ wf (.vcvt .va { fV with et := 3, aux := 0 }) ∧ ¬ wf (.vpack .va { fV with et := 2 }) ∧
    ¬ wf (.vpack .va { fV with et := 3, aux := 2 }) ∧ ¬ wf (.vdot4 .va { fV with et := 3 }) ∧ ¬ wf (.vdot2 .va { fV with et := 7 }) := by
  decide
theorem test_wf_vector_axes : wf (.vrotc .va { fV with rn := 15 }) ∧ ¬ wf (.vrotc .va { fV with rn := 14 }) ∧
    ¬ wf (.vvote .va { fV with aux := 3 }) ∧ ¬ wf (.vvote .va { fV with aux := 28 }) ∧ ¬ wf (.vput .va { fV with rn := 1 }) ∧
    ¬ wf (.vkmov .va { fV with aux := 3 }) ∧ ¬ wf (.vkmov .va { fV with opa := 1 }) ∧ ¬ wf (.vredr .va { fV with aux := 6 }) := by
  decide
theorem test_wf_function : wf (.rcp { fF with opa := 3 }) ∧ ¬ wf (.rcp { fF with opb := 1 }) ∧ ¬ wf (.rcp { fF with aux := 1 }) ∧
    ¬ wf (.rcp { fF with aux := 0x100, dst := 16 }) ∧ ¬ wf (.rcp { fF with aux := 0x1F1 }) ∧
    wellFormed .understory false (.pdep fF) ∧ ¬ wf (.pdep fF) ∧ wellFormed .security false (.keccak { fF with aux := 0x100 }) ∧
    ¬ wellFormed .security false (.keccak fF) ∧ ¬ wellFormed .security false (.gfmm { fF with aux := 4 }) ∧
    ¬ wf (.bnet { fF with opb := 1 }) := by decide
theorem test_wf_memory : wf (.ld .ma { fM with sz := 3, aux := 0x41, sc := 4 }) ∧ ¬ wf (.ld .ma { fM with sz := 4 }) ∧
    ¬ wf (.ld .ma { fM with aux := 0x40 }) ∧ ¬ wf (.ld .ma { fM with dst := 1 }) ∧ ¬ wf (.st .ma { fM with aux := 0x40, sc := 2 }) ∧
    ¬ wf (.vld .ma { fM with sz := 2 }) ∧ ¬ wf (.vld .ma { fM with aux := 1, sz := 3 }) ∧ ¬ wf (.vlds .ma { fM with aux := 0xF1 }) ∧
    wf (.vlds .ma { fM with aux := 0xF0 }) ∧ ¬ wf (.amo .ma { fM with sc := 2, sz := 3, aux := 10 }) ∧
    ¬ wf (.amo .ma { fM with sc := 2, sz := 3, dst := 1 }) ∧ ¬ wf (.red .ma { fM with sc := 2, sz := 3, aux := 8 }) ∧
    ¬ wf (.vamo .ma { fM with sc := 4, sz := 2, aux := 1 }) ∧ ¬ wf (.vred .ma { fM with sc := 1, sz := 2, aux := 0x80 }) := by decide
theorem test_wf_memory_rest : wf (.fence .ma { fM with sc := 4, aux := 0xC0 }) ∧ ¬ wf (.fence .ma { fM with sc := 4 }) ∧
    ¬ wf (.popq .ma { fM with sc := 1 }) ∧ ¬ wf (.pref .ma { fM with aux := 2 }) ∧ ¬ wf (.waita .ma { fM with sz := 3, sc := 2 }) ∧
    ¬ wf (.waita .ma { fM with sz := 3, sc := 2, aux := 0x21 }) ∧ ¬ wf (.cacheop .ma { fM with aux := 4 }) ∧
    ¬ wf (.qpush .ma { fM with sz := 2 }) ∧ ¬ wf (.qpop .ma { fM with sz := 3, aux := 1 }) ∧ ¬ wf (.cspop .ma { fM with sz := 3 }) ∧
    ¬ wf (.vred .ma { fM with sc := 2, sz := 2, ws := true }) ∧ ¬ wf (.lds .ma { fM with sc := 1 }) ∧
    ¬ wf (.sts .ma { fM with aux := 1 }) ∧ ¬ wf (.vst .ma { fM with sz := 2, opb := 1 }) := by decide
theorem test_wf_control : wf (.br { fC with opa := 40 }) ∧ ¬ wf (.br { fC with dst := 1 }) ∧ ¬ wf (.exit { fC with opa := 1 }) ∧
    ¬ wf (.bar { fC with aux := 16 }) ∧ ¬ wf (.phbeg { fC with dst := 31 }) ∧ ¬ wf (.chkt { fC with aux := 0x3F }) ∧
    ¬ wf (.chkt { fC with aux := 0x0FC0 }) ∧ ¬ wf (.csrr { fC with aux := 0x006 }) ∧ ¬ wf (.csrr { fC with aux := 0x103 }) ∧
    wellFormed .compute true (.csrr { fC with aux := 0x103 }) ∧ ¬ wellFormed .compute true (.csrr { fC with aux := 0x200 }) ∧
    ¬ wf (.csrw { fC with aux := 0x070 }) ∧ ¬ wf (.dload { fC with aux := 6 }) ∧ ¬ wf (.bankmode { fC with aux := 3 }) ∧
    ¬ wf (.eret fC) ∧ wellFormed .compute true (.eret fC) := by decide
theorem test_wf_engine : wf (.mma { fE with sl := 5 }) ∧ ¬ wf (.mma { fE with sl := 6 }) ∧ ¬ wf (.mma { fE with ops := 34 }) ∧
    ¬ wf (.lsl { fE with td := 1 }) ∧ ¬ wf (.tzero { fE with ops := 1 }) ∧ ¬ wf (.txp { fE with sl := 1 }) ∧
    ¬ wf (.tcvt { fE with aux := 32 }) ∧ ¬ wf (.t2v { fE with td := 1 }) ∧ ¬ wf (.v2t { fE with beats := 15 }) ∧
    wf (.v2t { fE with beats := 16 }) ∧ ¬ wf (.tcopy { fE with td := 16 }) ∧ ¬ wf (.tload { fE with ta := 16 }) ∧
    ¬ wf (.tstore { fE with td := 16 }) := by decide
theorem test_wf_idle : wf (.idle 1 0) ∧ wf (.idle 256 0) ∧ ¬ wf (.idle 0 0) ∧ ¬ wf (.idle 257 0) := by decide

/-! ## Words of the spec's tables and examples decode to the instructions they stand for -/

/-- R104 Table 7 and 09 Table 12: mul s5, s3, s4. 04 worked example: divw s3, s1, s2; cmp.eq f2, s2, ones; sel s5, s6, s7, f2. -/
theorem test_decode_scalar :
    decodeContainer 0 0x0000001014310000 = some (.mul .sa { fS with dst := 5, opa := 3, opb := 4 }) ∧
    decodeContainer 0 0x000000180C108000 = some (.divw .sa { fS with dst := 3, opa := 1, opb := 2 }) ∧
    decodeContainer 1 0x00000027082B8000 = some (.cmp .sb { fS with dst := 2, opa := 2, opb := 46 }) ∧
    decodeContainer 1 0x000000261461C002 = some (.sel .sb { fS with dst := 5, opa := 6, opb := 7, aux := 2 }) := by decide
/-- R133 example: vcmp.lt.f32 k2, v1, zero rows=0:3. -/
theorem test_decode_vector : decodeContainer 2 0x0018103600000682 =
    some (.vcmp .va { fV with dst := 2, opa := 1, opb := 44, rn := 3, et := 2, aux := 2 }) := by decide
/-- 12 Table 12, 10 example, R304, R310 and 21 Table 2. -/
theorem test_decode_memory :
    decodeContainer 6 0x00001A00B3009804 = some (.waita .ma { fM with opa := 11, opb := 12, sc := 2, sz := 3, aux := 4 }) ∧
    decodeContainer 6 0x00000B1AC0801000 = some (.vgats .ma { fM with dst := 6, opa := 44, opb := 2, sz := 2 }) ∧
    decodeContainer 6 0x00000218AA00D880 = some (.st .ma { fM with dst := 6, opa := 10, opb := 40, sc := 3, sz := 3, aux := 0x80 }) ∧
    decodeContainer 7 0x00000100CB011840 = some (.ld .mb { fM with opa := 12, opb := 44, sc := 4, sz := 3, aux := 0x40 }) ∧
    decodeContainer 6 0x000010143 = none ∧
    decodeContainer 6 0x00001014310098C9 =
      some (.amo .ma { fM with dst := 5, opa := 3, opb := 4, sc := 2, sz := 3, aux := 0xC9 }) ∧
    decodeContainer 6 0x000018000000C080 = some (.fence .ma { fM with sc := 3, aux := 0x80 }) ∧
    decodeContainer 6 0x0000145400000000 = some (.popq .ma { fM with dst := 21 }) := by decide
/-- 09 Table 12, R311 example and 21 Table 2. -/
theorem test_decode_control :
    decodeContainer 8 0x0000001600000007 = some (.svc { fC with aux := 7 }) ∧
    decodeContainer 8 0x0000002054000103 = some (.csrr { fC with dst := 21, aux := 0x103 }) ∧
    decodeContainer 8 0x0000001700000001 = some (.eret { fC with aux := 1 }) ∧
    decodeContainer 8 0x0000001202800008 = some (.bar { fC with opa := 40, aux := 8 }) ∧
    decodeContainer 8 0x000000057E900000 = some (.call { fC with dst := 31, opa := 41 }) := by decide
/-- R210 example, 08 Table 6 and 12 Table 12. -/
theorem test_decode_engine :
    decodeContainer 9 0x0004042808C00023 = some (.mmaa { fE with beats := 4, td := 5, sl := 1, ops := 6, aux := 0x23 }) ∧
    decodeContainer 9 0x0001080800C00002 = some (.mma { fE with beats := 8, td := 1, ops := 6, aux := 2 }) ∧
    decodeContainer 9 0x0001081808C00002 = some (.mma { fE with beats := 8, td := 3, sl := 1, ops := 6, aux := 2 }) ∧
    decodeContainer 9 0x0010011801400003 = some (.tcopy { fE with beats := 1, td := 3, ops := 10, aux := 3 }) := by decide
/-- The F layout of R41 Table 2 with UF 01 (R168): rcp s2, s1, and the same in vector mode over rows 3 to 5. -/
theorem test_decode_function :
    decodeContainer 5 0x0000000108100000 = some (.rcp { fF with dst := 2, opa := 1 }) ∧
    decodeContainer 5 0x0000000108100132 = some (.rcp { fF with dst := 2, opa := 1, aux := 0x132 }) ∧
    decodeContainer 5 0x0000010108100000 = none := by decide
/-- Bits above the class width and reserved unit functions decode to nothing (R76, R86); each encoding gives its word back. -/
theorem test_decode_rejects : decodeContainer 0 0x0000010000000000 = none ∧ decodeContainer 0 0x0000002F00000000 = none ∧
    decodeContainer 8 0 = none ∧ encode (.mul .sa { fS with dst := 5, opa := 3, opb := 4 }) = some (0, 0x1014310000) ∧
    encode (.mmaa { fE with beats := 4, td := 5, sl := 1, ops := 6, aux := 0x23 }) = some (9, 0x04042808C00023) := by decide

/-! ## Values that the spec works out -/

/-- R192 Table 7: conversions into the 8-bit float and the 4-bit integer. -/
theorem test_conversions :
    (([0x3E99999A, 0x43FA0000, 0x3A83126F, 0x3A6BEDFA, 0x80000000, 0x7F800000, 0x7FC00000] : List Nat).map fun x =>
      fmtConvert 0x507C8 (floatDecode .binary32 x)) = [0x2A, 0x7E, 0x01, 0x00, 0x80, 0x7E, 0x7F] ∧
    fmtConvert 0x80804 (floatDecode .binary32 0x40600000) = 0xC ∧ fmtConvert 0x80804 (floatDecode .binary32 0xC1133333) = 0 := by
  decide
/-- R179: the check value of CRC-32C and of CRC-32, over the bytes of 123456789. -/
theorem test_crc : crcBytes 0x82F63B78 9 0xFFFFFFFF 0x393837363534333231 ^^^ 0xFFFFFFFF = 0xE3069283 ∧
    crcBytes 0xEDB88320 9 0xFFFFFFFF 0x393837363534333231 ^^^ 0xFFFFFFFF = 0xCBF43926 := by decide
/-- R178: gmul(0x57, 0x83, 0x11B) = 0xC1. -/
theorem test_gmul : gfMul 0x11B 0x57 0x83 = 0xC1 := by decide
/-- R146 examples: vcvt.f16.n16 of 65,535, and vcvt.i16.bf16 of 0xC700 and of 0x4700. -/
theorem test_vcvt : (laneCvt 5 4 0 0x0000FFFF) = (0x7C00, Status.of ||| Status.nx) ∧
    (laneCvt 3 6 0 0x0000C700) = (0x8000, 0) ∧ (laneCvt 3 6 0 0x00004700) = (0x7FFF, Status.nv) := by decide
/-- 14 Table 7: the fault record of the worked example. -/
theorem test_fault_record :
    ({ FaultRecord.blank 1 with
        cause := 8, res := true, queue := 0x25, seq := 0x412, addr := 0x7F0000021000, pos := 0x1400, engine := 0x42A
        ref := 0x7F1000000100 / 64 } : FaultRecord).bytes =
      toBytes 8 0x0000041200252108 ++ toBytes 8 0x00007F0000021000 ++ toBytes 8 0x2150000000001400 ++
        toBytes 8 0x000001FC40000004 := by decide

/-! ## A small machine: core 0 issues a bundle of context 0 of group 0 -/

/-- A running context. -/
def ctx0 : Ctx :=
  { Ctx.launch with
    phase := .running, group := some 0, pc := 0x1000, dictHandle := 0, tvec := 0x2000, tepc := 0x3000, tnpc := 0x4000
    s := ((((Vector.replicate 32 0).set 1 6).set 2 7).set 3 0xFFFFFFFF80000000).set 4 (BitVec.allOnes 64) }
/-- A group of two contexts with two banks of scratchpad, two FIFO banks, two barriers, two queues and two latches. -/
def group0 : Group :=
  { command := 0, region := 0, g := 3, gcount := 8, decl := { n := 2, b := 2, q := 2, barriers := 2, queues := 2, latches := 2 }
    dictObj := 0, bas := Vector.replicate 16 0, cluster := some 0, contexts := [0, 1], banks := [3, 4, 5, 6]
    barriers := [Barrier.clear, Barrier.clear]
    queues := List.replicate 2 { entries := [], allowance := List.replicate 16 64, returned := List.replicate 16 0 }
    streams := List.replicate 2 { items := [], length := none }
    latches := [RendezvousLatch.clear, RendezvousLatch.clear], records := List.replicate 6 LatchRecord.empty
    contReserved := true, fault := none, preempting := false, saved := none, kept := false, placedAt := 0 }
/-- The cluster: banks 3 and 4 in SCRATCH mode, 5 and 6 in FIFO mode, and the first GiB mapped to itself. -/
def cluster0 : Cluster :=
  { Cluster.initial with
    modes := ((((Vector.replicate 16 .cache).set 3 .scratch).set 4 .scratch).set 5 .fifo).set 6 .fifo
    tlb := [{ vpn := 0, size := 30, asid := 0, pte := 0x1F }] }
/-- A region with the first GiB mapped. -/
def region0 : Region :=
  { Region.invalid with
    flags := 0x7, ovr := 0xFF, ptbase := 0x10000, aslot := some 0, cshare := 4096, qcnt := 100, pcnt := 100, quantum := 10 }
/-- The core that issues, at cycle 100, with one operation in its bundle. -/
def core0 (i : Instr) : Core :=
  { Core.initial with
    lt := 100, running := some 0, nextIssue := 100
    bundle := some { pc := 0x1000, length := 3, safe := false, immw := false, imms := [], ops := [i] }
    handles := [some { object := 0, asid := 0, counts := List.replicate 6 3, pinPages := List.replicate 6 0,
                       arrays := List.replicate 6 128, priv := true, bound := 0, loaded := true }] }
/-- The READY bits of the first word that every memory stack, port and Understory core has passed its test, but no compute die (R439). -/
def units : W64 := 0x01FFFFFFFFFFFF00
/-- The machine with a context, a group, a core and a neighbour context at chosen values. -/
def machine (c : Ctx) (g : Group) (x : Core) (mate : Ctx) : State :=
  { State.reset with
    ready := State.reset.ready.set 0 units
    ctxs := [(0, c), (1, mate)], cores := [(0, x)], clusters := [(0, cluster0)], groups := [(0, g)], nextGroup := 1
    regions := [(0, region0)], asids := [(0, { ptbase := 0x10000, generation := 1, lastUse := 0 })] }
/-- The machine with one operation in its bundle. -/
def at0 (c : Ctx) (i : Instr) : State := machine c group0 (core0 i) Ctx.launch
/-- What the bundle knows of its issue. -/
def env0 : Env :=
  { k := 0, core := 0, t := 100, pc := 0x1000, next := 0x1003, imms := [], immw := false, dlq := [], firstAccess := 0, busy := false, inPhase := false, passed := false
    divergence := none }
/-- The same, taken from the state. -/
def envOf (s : State) : Env := (issueEnv s).getD env0
/-- Whether a bundle of one operation stands ready, as a test. -/
def readyTest (s : State) (slot : Nat) (pn : Bool) : Bool :=
  decide (issueEnv s = some (envOf s)) && (s.core (envOf s).core).occupied.isEmpty && predicate s (envOf s) slot 0 pn
theorem ready (s : State) (slot : Nat) (h : readyTest s slot false = true) : Ready s (envOf s) slot 0 false := by
  simp only [readyTest, Bool.and_eq_true, decide_eq_true_eq, List.isEmpty_iff] at h
  exact ⟨h.1.1, by rw [h.1.2]; simp, h.2⟩
theorem alone (c : Ctx) (t : Nat) (h : c.pending = []) : Spec.Alone c t := by intro p hp; rw [h] at hp; cases hp
/-- A next state's test. -/
def next (o : Host.Outcome State Fault Refusal) (p : State → Bool) : Bool := match o with | .next t => p t | _ => false

/-! ## Single steps -/

/-- R104: add of 6 and 7 lands in the latch at t + 1 and in s5 at t + 2. -/
theorem test_add : next (exec (.add .sa { fS with dst := 5, opa := 1, opb := 2 }) (at0 ctx0 (.add .sa { fS with dst := 5, opa := 1, opb := 2 })))
    (fun t => (t.ctx 0).pending.map (fun p => (p.due, p.what)) = [(101, .latchS 0 13), (102, .scalar 5 13)]) := by decide
/-- 04 worked example: divw of the int32 minimum by −1 gives 0xFFFF_FFFF_8000_0000 at t + 20, and IOV. -/
theorem test_divw :
    next (exec (.divw .sa { fS with dst := 3, opa := 3, opb := 4 }) (at0 ctx0 (.divw .sa { fS with dst := 3, opa := 3, opb := 4 })))
      (fun t => (t.ctx 0).pending.map (fun p => (p.due, p.what)) =
        [(120, .latchS 0 0xFFFFFFFF80000000), (121, .scalar 3 0xFFFFFFFF80000000), (121, .status 0 0x40)]) := by decide
/-- R242, R64: svc #7 starts a trap whose drain ends in the handler, with TVAL 7. -/
theorem test_svc : next (exec (.svc { fC with aux := 7 }) (at0 ctx0 (.svc { fC with aux := 7 })))
    (fun t => match (t.ctx 0).drain with
      | .trap w pc n => w.cause = .svc && w.tval = 7 && pc = 0x1000 && n = 0x1003
      | _ => false) := by decide
/-- R243: eret.next goes to TNPC and the next bundle issues at t + 3. -/
theorem test_eret : next (exec (.eret { fC with aux := 1 }) (at0 { ctx0 with user := false, nesting := 1 } (.eret { fC with aux := 1 })))
    (fun t => (t.ctx 0).pc = 0x4000 && (t.ctx 0).nesting = 0 && (t.core 0).nextIssue = 103) := by decide
/-- R283: a st of s2 to address 6 joins the accesses and changes no byte yet. -/
theorem test_st : next (exec (.st .ma { fM with dst := 2, opa := 1, sz := 0 }) (at0 ctx0 (.st .ma { fM with dst := 2, opa := 1, sz := 0 })))
    (fun t => (t.ctx 0).accesses.length = 1 && t.mem = []) := by decide
/-- R284: a sts of s2 to scratchpad address 6 writes byte 6 of local bank 0, which is bank 3, at t. -/
theorem test_sts : next (exec (.sts .ma { fM with dst := 2, opa := 1, sz := 0 }) (at0 ctx0 (.sts .ma { fM with dst := 2, opa := 1, sz := 0 })))
    (fun t => t.mem = [(bankKey 0 3 6, 7)]) := by decide
/-- The first instruction after reset runs: decoded from the bytes at the PC, it issues and the PC moves on. -/
theorem test_first_step : next (step (State.reset.withFetchWord 40 0x0000001014310000))
    (fun t => (t.ctx 0).pc = 15 && (t.ctx 0).pending.length = 2) := by decide
/-- R409: with nothing to do a step advances TSC. -/
theorem test_clock : next (step State.reset) (fun t => t.clk = 1) := by decide

/-! ## Hypotheses that can be met: for each obligation that has some, a concrete state and operands that meet them together, with one
for each clause where there are several -/

theorem wit_ScalarOperationResults :
    (∃ u f lat fn, Spec.twoOperand (.add .sa fS) = some (u, f, lat, fn) ∧
      Ready (at0 ctx0 (.add .sa fS)) (envOf (at0 ctx0 (.add .sa fS))) u.index f.pf f.pn) ∧
    ∃ u f lat rel, Spec.oneOperand (.clz .sb fS) = some (u, f, lat, rel) ∧
      Ready (at0 ctx0 (.clz .sb fS)) (envOf (at0 ctx0 (.clz .sb fS))) u.index f.pf f.pn :=
  ⟨⟨_, _, _, _, rfl, ready _ 0 (by decide)⟩, ⟨_, _, _, _, rfl, ready _ 1 (by decide)⟩⟩
theorem wit_DivisionNeverTraps :
    ∃ u f w signed quo, Spec.division (.divw .sa { fS with opa := 3, opb := 4 }) = some (u, f, w, signed, quo) ∧
      let s := at0 ctx0 (.divw .sa { fS with opa := 3, opb := 4 })
      Ready s (envOf s) u.index f.pf f.pn ∧ (scalarOperand s (envOf s) 0 0 f.opa).truncate 32 = (0x80000000 : W32) ∧
        (scalarOperand s (envOf s) 0 1 f.opb).truncate 32 = (0xFFFFFFFF : W32) ∧ scalarOperand s (envOf s) 0 1 0 = 0 :=
  ⟨_, _, _, _, _, rfl, ready _ 0 (by decide), by decide, by decide, by decide⟩
theorem wit_CompareFlagAndMaskResults :
    Ready (at0 ctx0 (.cmp .sa { fS with aux := 0x17 })) (envOf (at0 ctx0 (.cmp .sa { fS with aux := 0x17 }))) 0 0 false ∧
      ((0x17 : BitVec 9).toNat % 16 < 8) ∧ Ready (at0 ctx0 (.sel .sb fS)) (envOf (at0 ctx0 (.sel .sb fS))) 1 0 false :=
  ⟨ready _ 0 (by decide), by decide, ready _ 1 (by decide)⟩
theorem wit_LanewiseResults :
    (∃ v occ pf pn form f, Spec.vectorOperation (.vadd .va fV) = some (v, occ, pf, pn) ∧
      vectorForm (patEntry (patWords (at0 ctx0 (.vadd .va fV)) 0 100 (.vadd .va fV))) (.vadd .va fV) = some form ∧
      form.kind = .lanes f ∧ Ready (at0 ctx0 (.vadd .va fV)) (envOf (at0 ctx0 (.vadd .va fV))) v.slot pf pn) ∧
    ∃ form f, vectorForm (patEntry []) (.vadd .vc fV) = some form ∧ form.kind = .lanes f ∧ 4 < 16 :=
  ⟨⟨_, _, _, _, _, _, rfl, rfl, rfl, ready _ 2 (by decide)⟩, _, _, rfl, rfl, by decide⟩
theorem wit_IntegerVectorArithmetic :
    ∃ u f lat fn, Spec.subElementOperation (.vmulh .vb { fV with et := 7 }) = some (u, f, lat, fn) ∧ etFloat f.et.toNat = false ∧
      Ready (at0 ctx0 (.vmulh .vb { fV with et := 7 })) (envOf (at0 ctx0 (.vmulh .vb { fV with et := 7 }))) u.index f.pf f.pn :=
  ⟨_, _, _, _, rfl, by decide, ready _ 3 (by decide)⟩
theorem wit_IntegerVectorArithmetic_lanes :
    ∃ v occ pf pn typeA typeC lat step rel, Spec.vectorOperation (.vdiv .vc { fV with et := 3 }) = some (v, occ, pf, pn) ∧
      let s := at0 ctx0 (.vdiv .vc { fV with et := 3 })
      Spec.laneValue (patEntry (patWords s (envOf s).k (envOf s).t (.vdiv .vc { fV with et := 3 }))) (.vdiv .vc { fV with et := 3 }) =
        some (typeA, typeC, lat, step, rel) ∧ Ready s (envOf s) v.slot pf pn :=
  ⟨_, _, _, _, _, _, _, _, _, rfl, rfl, ready _ 4 (by decide)⟩
theorem wit_VectorMaskResults :
    ∃ v occ pf pn form all f, Spec.vectorOperation (.vcmp .va fV) = some (v, occ, pf, pn) ∧
      vectorForm (patEntry (patWords (at0 ctx0 (.vcmp .va fV)) 0 100 (.vcmp .va fV))) (.vcmp .va fV) = some form ∧
      form.kind = .mask all f ∧ Ready (at0 ctx0 (.vcmp .va fV)) (envOf (at0 ctx0 (.vcmp .va fV))) v.slot pf pn :=
  ⟨_, _, _, _, _, _, _, rfl, rfl, rfl, ready _ 2 (by decide)⟩
theorem wit_VectorMaskResults_rows :
    let s := at0 ctx0 (.vkmov .va { fV with aux := 1 })
    Ready s (envOf s) 2 0 false ∧ (1 : BitVec 6).getLsbD 0 = true ∧
      ∃ form all f, vectorForm (patEntry []) (.vcmp .vc { fV with rn := 15 }) = some form ∧ form.kind = .mask all f ∧ 4 < 16 ∧ 1 ≤ 15 :=
  ⟨ready _ 2 (by decide), by decide, _, _, _, rfl, rfl, by decide, by decide⟩
theorem wit_RowAxisResults :
    (∃ v occ pf pn form f, Spec.vectorOperation (.vrotr .va fV) = some (v, occ, pf, pn) ∧
      vectorForm (patEntry []) (.vrotr .va fV) = some form ∧ form.kind = .rowAxis f ∧
      Ready (at0 ctx0 (.vrotr .va fV)) (envOf (at0 ctx0 (.vrotr .va fV))) v.slot pf pn) ∧
    (∃ u f lat fn, Spec.rowAxisOperation (.vscanr .va fV) = some (u, f, lat, fn) ∧
      Ready (at0 ctx0 (.vscanr .va fV)) (envOf (at0 ctx0 (.vscanr .va fV))) u.index f.pf f.pn) ∧
    (∃ (inp : VecIn) (l : Nat), l < 64 ∧ inp.mask.getLsbD l = true) ∧
    ∃ (inp : VecIn) (l : Nat), l < 64 ∧ inp.mask.getLsbD l = false :=
  ⟨⟨_, _, _, _, _, _, rfl, rfl, rfl, ready _ 2 (by decide)⟩, ⟨_, _, _, _, rfl, ready _ 2 (by decide)⟩,
    ⟨{ frm := 0, mask := BitVec.allOnes 64, kaux := 0 }, 63, by decide⟩, { frm := 0, mask := 0, kaux := 0 }, 0, by decide⟩
theorem wit_SingleVectorResults :
    Ready (at0 ctx0 (.vvote .vc fV)) (envOf (at0 ctx0 (.vvote .vc fV))) 4 0 false := ready _ 4 (by decide)
theorem wit_ColumnAxisIssue :
    ∃ v occ pf pn form f, Spec.vectorOperation (.vrotc .va { fV with rn := 15 }) = some (v, occ, pf, pn) ∧
      vectorForm (patEntry []) (.vrotc .va { fV with rn := 15 }) = some form ∧ form.kind = .column f ∧ v.rn = 15 ∧
      Ready (at0 ctx0 (.vrotc .va { fV with rn := 15 })) (envOf (at0 ctx0 (.vrotc .va { fV with rn := 15 }))) v.slot pf pn :=
  ⟨_, _, _, _, _, _, rfl, rfl, rfl, rfl, ready _ 2 (by decide)⟩
theorem wit_ColumnAxisIssue_columns :
    (∃ u f lat step fn, Spec.columnOperation (.vredc .vb { fV with rn := 15 }) = some (u, f, lat, step, fn) ∧ f.rn = 15 ∧
      Ready (at0 ctx0 (.vredc .vb { fV with rn := 15 })) (envOf (at0 ctx0 (.vredc .vb { fV with rn := 15 }))) u.index f.pf f.pn) ∧
    (∃ form f, vectorForm (patEntry []) (.vscanc .vc { fV with rn := 15 }) = some form ∧ form.kind = .column f ∧ 4 < 16) ∧
    ∃ (inp : VecIn) (as : List Row) (c r : Nat), as.length = 16 ∧ c < 64 ∧ r + 1 < 16 ∧ inp.mask.getLsbD c = true :=
  ⟨⟨_, _, _, _, _, rfl, rfl, ready _ 3 (by decide)⟩, ⟨_, _, rfl, rfl, by decide⟩,
    { frm := 0, mask := BitVec.allOnes 64, kaux := 0 }, List.replicate 16 Row.zero, 63, 14, by decide⟩
theorem wit_FunctionUnitResults :
    (∃ f lat fn, Spec.scalarFunction (.rcp fF) = some (f, lat, fn) ∧ vmF f = false ∧
      Ready (at0 ctx0 (.rcp fF)) (envOf (at0 ctx0 (.rcp fF))) 5 f.pf f.pn) ∧
    ∃ f lat rel, Spec.bitFunction (.pdep fF) = some (f, lat, rel) ∧ vmF f = false ∧
      Ready (at0 ctx0 (.pdep fF)) (envOf (at0 ctx0 (.pdep fF))) 5 f.pf f.pn :=
  ⟨⟨_, _, _, rfl, by decide, ready _ 5 (by decide)⟩, ⟨_, _, _, rfl, by decide, ready _ 5 (by decide)⟩⟩

theorem wit_FunctionUnitResults_keccak :
    let f : FieldF := { fF with aux := 0x100, dst := 1 }
    let s := at0 ctx0 (.keccak f)
    vmF f = true ∧ (fieldsF f).rn = 0 ∧ Ready s (envOf s) 5 f.pf f.pn := ⟨by decide, by decide, ready _ 5 (by decide)⟩

/-! Memory -/

theorem wit_LoadsAndStoresQueue :
    let f : FieldM := { fM with sz := 3, opb := 46, opa := 1 }
    let s := at0 ctx0 (.ld .ma f)
    let e := envOf s
    Ready s e 6 0 false ∧ (s.ctx e.k).overrun = none ∧
      scalarOperand s e 6 0 f.opa + scalarOperand s e 6 1 f.opb = 5 ∧
      s.globalCheck e.k .load 1 5 = .place { key := 5, nc := false } ∧ s.globalCheck e.k .store 1 5 = .place { key := 5, nc := false } ∧
      (s.ctx e.k).dlq.length < 16 ∧ (s.ctx e.k).storeQueue < 32 :=
  ⟨ready _ 6 (by decide), by decide⟩
theorem wit_VectorAccessesQueue :
    ∃ u f store indexed, Spec.vectorAccess (.vst .mb { fM with sz := 2 }) = some (u, f, store, indexed) ∧
      let s := at0 { ctx0 with lmask := 0 } (.vst .mb { fM with sz := 2 })
      Ready s (envOf s) u.index f.pf f.pn ∧ (s.ctx 0).overrun = none ∧
        (∀ row lane, row < 16 → lane < 64 → (laneMask s (envOf s) u.index f.ks).getLsbD lane = true →
          (Spec.globalPlace (s.globalCheck 0 .store 4 0)).isSome = true) ∧
        Spec.globalPlace (s.globalCheck 0 .store 4 0x3FFFFFFC) = some { key := 0x3FFFFFFC, nc := false } :=
  ⟨_, _, _, _, rfl, ready _ 7 (by decide), by decide, fun _ _ _ _ _ => by decide, by decide⟩
theorem wit_AtomicsQueue :
    let f : FieldM := { fM with sz := 3, sc := 2 }
    let s := at0 ctx0 (.amo .ma f)
    let e := envOf s
    Ready s e 6 0 false ∧ Spec.Alone (s.ctx e.k) e.t ∧ (s.ctx e.k).overrun = none ∧
      s.atomicCheck e.k .update 8 true 0 0 = .place { key := 0, nc := false } ∧
      s.atomicCheck e.k .store 8 false 0 0 = .place { key := 0, nc := false } ∧
      Spec.padPlace s e.k 8 0 = some { key := bankKey 0 3 0, nc := false } ∧ s.spadHold e.k 8 6 [[0]] = none ∧
      (s.ctx e.k).dlq.length < 16 ∧ (s.ctx e.k).storeQueue < 32 :=
  ⟨ready _ 6 (by decide), alone _ _ rfl, by decide⟩
theorem wit_VectorAtomicsQueue :
    let f : FieldM := { fM with sz := 2, sc := 1, aux := 1 }
    let s := at0 { ctx0 with lmask := 0 } (.vamo .ma f)
    let e := envOf s
    Ready s e 6 0 false ∧ Spec.Alone (s.ctx e.k) e.t ∧ (s.ctx e.k).overrun = none ∧
      (∀ row lane, row < 16 → lane < 64 → (laneMask s e 6 f.ks).getLsbD lane = true →
        (Spec.padPlace s e.k 4 0).isSome = true ∧
          (Spec.globalPlace (s.atomicCheck e.k .update 4 true 0 0)).isSome = true) ∧
      s.spadHold e.k 4 6 (Spec.activeRows (laneMask s e 6 f.ks) fun _ _ => 0) = none ∧ (s.ctx e.k).storeQueue < 32 :=
  ⟨ready _ 6 (by decide), alone _ _ rfl, by decide, fun _ _ _ _ _ => by decide, by decide⟩
theorem wit_ScratchpadScalarAccesses :
    let f : FieldM := { fM with sz := 0, opa := 1, dst := 2 }
    let s := at0 ctx0 (.sts .ma f)
    let e := envOf s
    Ready s e 6 0 false ∧ Spec.Alone (s.ctx e.k) e.t ∧ (s.ctx e.k).overrun = none ∧
      Spec.padPlace s e.k 1 (scalarOperand s e 6 0 f.opa + scalarOperand s e 6 1 f.opb) = some { key := bankKey 0 3 6, nc := false } ∧
      s.spadHold e.k 1 6 [[6]] = none ∧ (s.ctx e.k).accesses = [] ∧ Memory.wf s.mem = true ∧ planeOf (bankKey 0 3 6) = 40 ∧
      mapGet? s.partials (lineOf (bankKey 0 3 6)) = none ∧ s.poisoned.contains (lineOf (bankKey 0 3 6)) = false :=
  ⟨ready _ 6 (by decide), alone _ _ rfl, by decide⟩
theorem wit_ScratchpadVectorAccesses :
    let f : FieldM := { fM with sz := 2, aux := 0xF0 }
    let s := at0 { ctx0 with lmask := 1 } (.vlds .ma f)
    let e := envOf s
    Ready s e 6 0 false ∧ Spec.Alone (s.ctx e.k) e.t ∧ (s.ctx e.k).overrun = none ∧ (s.ctx e.k).accesses = [] ∧
      ((List.range 64).filter fun l => (laneMask s e 6 f.ks).getLsbD l) = [0] ∧
      Spec.padPlace s e.k 4 0 = some { key := bankKey 0 3 0, nc := false } ∧ planeOf (bankKey 0 3 0) = 40 ∧
      mapGet? s.partials (lineOf (bankKey 0 3 0)) = none ∧ s.poisoned.contains (lineOf (bankKey 0 3 0)) = false ∧
      s.spadHold e.k 4 6 [[0]] = none :=
  ⟨ready _ 6 (by decide), alone _ _ rfl, by decide⟩
theorem wit_FenceWatchAndMaintenance :
    let s := at0 ctx0 (.fence .ma { fM with sc := 3, aux := 0x80 })
    let e := envOf s
    Ready s e 6 0 false ∧ Spec.Alone (s.ctx e.k) e.t ∧ (s.ctx e.k).overrun = none ∧ fenceWaits 2 e.t (s.ctx e.k) = false ∧ s.globalCheck e.k .load 1 0 ≠ .walk ∧
      s.globalCheck e.k .load 1 0x40000000 = .walk ∧ s.globalCheck e.k .load 8 0x40 = .place { key := 0x40, nc := false } ∧
      Spec.padPlace s e.k 8 0x40 = some { key := bankKey 0 3 0x40, nc := false } ∧ s.spadHold e.k 8 6 [[0x40]] = none ∧
      (s.ctx e.k).watches = [] ∧ (s.ctx e.k).accesses = [] ∧ s.supervisor e.k = true ∧ (0xFFFFFFFF : W64).toNat < 2 ^ 32 ∧
      2 ^ 32 ≤ (0x100000000 : W64).toNat :=
  ⟨ready _ 6 (by decide), alone _ _ rfl, by decide⟩
theorem wit_PopqFollowsTheHead (d : DlqEntry) :
    let s (q : List DlqEntry) := at0 { ctx0 with dlq := q } (.popq .ma fM)
    Ready (s []) (envOf (s [])) 6 0 false ∧ ((s []).ctx 0).dlq = [] ∧ ((s []).ctx 0).overrun = none ∧ ((s [d]).ctx 0).dlq = [d] ∧
      readyTest (s [{ id := 0, value := 5, fate := .ready }]) 6 false = true :=
  ⟨ready _ 6 (by decide), rfl, rfl, rfl, by decide⟩
theorem wit_NamedQueueOperations :
    let q (n : BitVec 6) := at0 ctx0 (.qpush .ma { fM with opa := n, sz := 3 })
    let e := envOf (q 45)
    let full : Group := { group0 with queues := [{ entries := [], allowance := List.replicate 16 0, returned := List.replicate 16 0 }] }
    let held : Group := { group0 with queues :=
      [{ entries := [{ value := 5, producer := 1, notify := 3, lts := 0 }], allowance := List.replicate 16 63, returned := List.replicate 16 0 }] }
    Ready (q 45) e 6 0 false ∧ ((q 45).ctx 0).overrun = none ∧ (q 45).groupOf 0 = some group0 ∧
      (scalarOperand (q 45) e 6 0 45).toNat % 16 = 1 ∧ 1 < group0.decl.queues ∧ group0.decl.queues ≤ 2 ∧
      (scalarOperand (q 2) (envOf (q 2)) 6 0 2).toNat % 16 = 7 ∧ (q 45).fifoBank 0 group0.decl.b = true ∧
      ((q 45).namedQueue 0 1).entries = [] ∧ ((q 45).namedQueue 0 1).allowance.getD 0 0 ≠ 0 ∧ (q 45).replayHolds 0 2 1 0 0 = false ∧
      ((machine ctx0 full (core0 (.qpush .ma fM)) Ctx.launch).namedQueue 0 0).allowance.getD 0 0 = 0 ∧
      ((machine ctx0 held (core0 (.qpop .ma fM)) Ctx.launch).namedQueue 0 0).entries.length = 1 ∧
      (machine ctx0 held (core0 (.qpop .ma fM)) Ctx.launch).replayHolds 0 3 0 0 0 = false :=
  ⟨ready _ 6 (by decide), by decide⟩
theorem wit_StreamOperations :
    let s := at0 ctx0 (.cspush .ma { fM with sz := 2, aux := 0 })
    let e := envOf s
    let g : Group := { group0 with streams :=
      [{ items := [.record [1] 0, .record [2] 0, .mark], length := some 1 }, { items := [], length := none }] }
    let s' := machine ctx0 g (core0 (.cspop .ma { fM with sz := 2 })) Ctx.launch
    Ready s e 6 0 false ∧ (s.ctx e.k).overrun = none ∧ s.groupOf e.k = some group0 ∧ 0 < group0.decl.q ∧
      s.fifoBank e.k (group0.decl.b + 0) = true ∧ (s.stream e.k 0).length = none ∧
      64 ≤ s.streamRoom e.k 0 0 ∧ s.replayHolds e.k 4 0 0 0 = false ∧ streamBatch (s.stream e.k 0) = none ∧
      (streamBatch (s'.stream e.k 0)).map (fun x => (x.1.length, x.2.1)) = some (2, true) ∧ s'.replayHolds e.k 5 0 0 0 = false :=
  ⟨ready _ 6 (by decide), by decide⟩

/-! Control -/

theorem wit_BranchesTransferControl :
    let s := at0 { ctx0 with fl := 9 } (.brf { fC with aux := 0x13 })
    Ready s (envOf s) 8 0 false ∧ (s.readFlags 0 100 33).getLsbD 3 = true ∧ (s.readFlags 0 100 33).getLsbD 4 = false :=
  ⟨ready _ 8 (by decide), by decide⟩
theorem wit_LoopsCountDown :
    let f : FieldC := { fC with dst := 1, opa := 40 }
    let s := at0 { ctx0 with loopBuf := some (0x1000, 0x1000, 0x1003) } (.loop f)
    Ready s (envOf s) 8 0 false ∧ (s.ctx 0).pending = [] ∧ loopCounter f (envOf s) s - 1 = 5 ∧
      loopCounter { f with dst := 5 } (envOf s) s - 1 = BitVec.allOnes 64 ∧
      (s.ctx 0).loopBuf =
        some ((envOf s).pc + (scalarOperand s (envOf s) 8 0 f.opa).truncate 57, (envOf s).pc, (envOf s).next) ∧
      loopCounter f env0 (at0 { ctx0 with s := (Vector.replicate 32 0).set 1 1 } (.loop f)) - 1 = 0 ∧
      bodyFits env0 (at0 ctx0 (.loop f)) 0x1000 = true :=
  ⟨ready _ 8 (by decide), by decide⟩
theorem wit_FetchControl : Ready (at0 ctx0 (.pin fC)) (envOf (at0 ctx0 (.pin fC))) 8 0 false := ready _ 8 (by decide)
theorem wit_WaitsAndYields :
    let s := at0 { ctx0 with fl := 3 } (.wait { fC with opa := 1 })
    Ready s (envOf s) 8 0 false ∧ coreOf (envOf s).k = (envOf s).core ∧ (s.ctx 0).overrun = none ∧
      s.readFlags 0 100 33 &&& 6 ≠ 0 ∧ s.readFlags 0 100 33 &&& 6 ≠ 6 :=
  ⟨ready _ 8 (by decide), by decide⟩
theorem wit_TrapInstructionsTrap :
    let s := at0 ctx0 (.chkt { fC with opa := 1, aux := 2 })
    Ready s (envOf s) 8 0 false ∧ (s.ctx 0).overrun = none ∧ (2 : BitVec 15).getLsbD 6 = false ∧ (0x40 : BitVec 15).getLsbD 6 = true ∧
      scalarOperand s (envOf s) 8 0 1 ≠ scalarOperand s (envOf s) 8 1 2 :=
  ⟨ready _ 8 (by decide), by decide⟩
theorem wit_EretReturns :
    let s := at0 ctx0 (.eret fC)
    let u := at0 { ctx0 with user := true } (.eret fC)
    Ready s (envOf s) 8 0 false ∧ coreOf (envOf s).k = (envOf s).core ∧ s.supervisor (envOf s).k = true ∧
      Ready u (envOf u) 8 0 false ∧ coreOf (envOf u).k = (envOf u).core ∧ u.supervisor (envOf u).k = false ∧
      (u.ctx (envOf u).k).overrun = none :=
  ⟨ready _ 8 (by decide), by decide, by decide, ready _ 8 (by decide), by decide⟩
theorem wit_ExitContAndHalt :
    let s := at0 ctx0 (.cont fC)
    let u := machine ctx0 { group0 with contReserved := false } (core0 (.cont fC)) Ctx.launch
    let full : State := { u with dies := [(0, { Die.initial with
      conts := (List.range 256).map fun j => { region := j + 1, number := j, reserved := 1, waiting := 0 } })] }
    Ready s (envOf s) 8 0 false ∧ (s.ctx 0).overrun = none ∧ ((s.groupOf 0).map Group.contReserved).getD true = true ∧
      ((u.groupOf 0).map Group.contReserved).getD true = false ∧ (u.die 0).contFree 0 = true ∧ (full.die 0).contFree 0 = false ∧
      readyTest full 8 false = true ∧ s.supervisor 0 = true :=
  ⟨ready _ 8 (by decide), by decide⟩
theorem wit_BarrierArrivals :
    let bar (b : BitVec 15) (n : BitVec 6) (c : Ctx) (x : Barrier) (banks : List CheckpointBank) : State :=
      machine c { group0 with barriers := [x, Barrier.clear] }
        { core0 (.bar { fC with opa := n, aux := b }) with banks := banks } Ctx.launch
    let two : Ctx := { ctx0 with s := (Vector.replicate 32 0).set 1 2 }
    let s := bar 8 1 two Barrier.clear [CheckpointBank.empty]
    let one := bar 0 1 two { Barrier.clear with count := 2, arrived := 2 } []
    let e := envOf s
    Ready s e 8 0 false ∧ (s.ctx 0).overrun = none ∧ s.groupOf 0 = some { group0 with barriers := [Barrier.clear, Barrier.clear] } ∧
      s.barState 0 0 = .fresh ∧ (scalarOperand s e 8 0 1).toNat = 2 ∧ s.replayHolds 0 1 0 0 0 = false ∧ rowsPending e s = false ∧
      popCount 16 (s.barrier 0 0).arrived.toNat + 1 ≠ 2 ∧ s.barBank e.core = some 0 ∧
      (bar 0 1 two Barrier.clear []).barBank 0 = none ∧ (0 : BitVec 15).getLsbD 3 = false ∧
      popCount 16 (one.barrier 0 0).arrived.toNat + 1 = 2 ∧ (one.barrier 0 0).count = 2 ∧
      (scalarOperand (bar 0 44 two Barrier.clear []) env0 8 0 44).toNat = 0 ∧ group0.decl.n < 3 ∧ group0.decl.barriers ≤ 2 ∧
      (bar 0 1 { two with barrierWait := some { barrier := 0, generation := 1 } } Barrier.clear []).barState 0 0 = .passes :=
  ⟨ready _ 8 (by decide), by decide⟩
theorem wit_BarrierArrivals_completes :
    let wait : BarrierWait := { barrier := 0, generation := 0 }
    let x : Group := { group0 with barriers := [{ Barrier.clear with count := 3, arrived := 6 }, Barrier.clear] }
    let mate : Ctx := { Ctx.launch with phase := .blocked, block := some (.barrier 0 0), barrierWait := some wait, group := some 0 }
    let stored : BufferedStore := { spad := true, size := 4, key := bankKey 0 3 8, va := 8, data := 5, order := 7, nc := false }
    let bank : CheckpointBank := { CheckpointBank.empty with owner := some 1, stores := [stored] }
    let s (m : Ctx) : State := machine ctx0 x { core0 (.bar fC) with banks := [bank] } m
    let ahead : Ctx := { mate with overrun := some 0 }
    let commits := s { ahead with committing := some 5 }
    ((s mate).groupOf 0 = some x ∧ 0 < x.barriers.length ∧ 1 ∈ x.keys ∧ ((s mate).ctx 1).waitsAt 0 0 = true ∧
      ((s mate).overrunBank 1).isNone = true ∧ ((s mate).ctx 1).block = some (.barrier 0 0) ∧ ((s mate).ctx 1).phase = .blocked ∧
      ((s mate).ctx 1).drain = .none) ∧
    (((s ahead).overrunBank 1).isSome = true ∧ ((s ahead).ctx 1).drain ≠ .rollback) ∧
    (2 ∉ x.keys ∧ ((s mate).ctx 0).waitsAt 0 0 = false) ∧
    commits.committers = [(1, 5)] ∧ (commits.ctx 1).overrun = some 0 ∧ commits.overrunBank 1 = some bank ∧ bank.failures = [] ∧
      (commits.ctx 1).barrierWait = some wait ∧ commits.partials = [] ∧ commits.poisoned = [] ∧ stored.spad = true ∧
      planeOf stored.key = 40 ∧ 1 ∉ (commits.clearReadSet 1).conflicts (lineOf stored.key) := by decide +kernel
theorem wit_PhasesOpenAndCommit :
    let p : PhaseRecord :=
      { desc := 0, base := 0, length := 64, opening := 0x1000, bank := none, exposed := false, held := [], opened := 0 }
    let s := at0 { ctx0 with phaseRec := some p } (.phsw fC)
    let b := at0 { ctx0 with pending := [{ due := 105, issued := 99, slot := 0, contested := 0, what := .scalar 1 0 }] } (.phbeg fC)
    Ready s (envOf s) 8 0 false ∧ (s.ctx 0).overrun = none ∧ (s.ctx 0).drain = .none ∧ coreOf (envOf s).k = (envOf s).core ∧
      (envOf s).busy = false ∧ (s.ctx 0).phaseRec = some p ∧ scalarOperand s (envOf s) 8 0 1 ≠ 0 ∧ scalarOperand s (envOf s) 8 0 0 = 0 ∧
      Ready b (envOf b) 8 0 false ∧ (b.ctx 0).overrun = none ∧ (envOf b).busy = true ∧
      ((at0 ctx0 (.phbeg fC)).ctx 0).phaseRec = none ∧ readyTest (at0 ctx0 (.phbeg fC)) 8 false = true ∧
      (envOf (at0 ctx0 (.phbeg fC))).busy = false :=
  ⟨ready _ 8 (by decide), by decide, by decide, by decide, by decide, by decide, by decide, by decide, ready _ 8 (by decide), by decide⟩
theorem wit_CsrAccesses :
    ∃ f new, Spec.csrAccess (.csrw { fC with aux := 0x100 }) = some (f, new) ∧
      let s := at0 ctx0 (.csrw { fC with aux := 0x100 })
      Ready s (envOf s) 8 f.pf f.pn ∧ f.aux.toNat % 4096 = 0x100 ∧ s.supervisor 0 = true ∧ (0x07F : Nat) < 0x080 :=
  ⟨_, _, rfl, ready _ 8 (by decide), by decide⟩
/-- A page table at 0x10000 that maps the first GiB to itself. -/
def tables : Memory :=
  [(0x10000, 0x01), (0x10001, 0x10), (0x10002, 0x01), (0x11000, 0x01), (0x11001, 0x20), (0x11002, 0x01), (0x12000, 0x1F)]
theorem wit_UnderstoryAccesses :
    let s : State := { at0 ctx0 (.ulaunch { fC with aux := 0x203 }) with mem := tables }
    Ready s (envOf s) 8 0 false ∧ s.supervisor 0 = true ∧ (s.ctx 0).accesses = [] ∧ (s.ctx 0).overrun = none ∧
      (0x203 : BitVec 15).toNat % 4096 = 0x203 ∧
      (match (s.launchBlock 0 5 0 256).1 with | .ok bs => decide (bs.length = 256) | .error _ => false) = true ∧
      (match (s.launchBlock 0 5 (2 ^ 40) 256).1 with | .ok _ => false | .error _ => true) = true ∧
      (0x201 : BitVec 15).toNat % 4096 = 0x201 ∧ (0x202 : BitVec 15).toNat % 4096 = 0x202 ∧ (0x208 : BitVec 15).toNat % 4096 = 0x208 :=
  ⟨ready _ 8 (by decide), by decide, by decide, by decide, by decide, by decide +kernel, by decide +kernel, by decide⟩
theorem wit_ResidencyAndBanks :
    let s := at0 ctx0 (.bankmode { fC with opa := 1 })
    Ready s (envOf s) 8 0 false ∧ (s.ctx 0).overrun = none ∧ (0 : BitVec 15).getLsbD 8 = false ∧ (0x100 : BitVec 15).getLsbD 8 = true ∧
      s.dloadHandle 0 (objectOf 0) = some 0 ∧ ((s.core 0).handles[0]?).isSome = true ∧ (s.core 0).refillFault = none ∧
      s.supervisor 0 = true ∧ s.groupOf 0 = some group0 ∧ (s.ctx 0).accesses = [] ∧
      15 < 2 ^ (group0.decl.b + group0.decl.q) ∧ 2 ^ (group0.decl.b + group0.decl.q) ≤ 16 ∧ group0.bankBusy 3 = false :=
  ⟨ready _ 8 (by decide), by decide⟩
theorem wit_ContextImageOperations :
    let s := machine ctx0 group0 (core0 (.ctxsave { fC with aux := 1 })) { ctx0 with phase := .halted, pos := 1 }
    Ready s (envOf s) 8 0 false ∧ (s.ctx 0).overrun = none ∧ s.supervisor 0 = true ∧ s.mate 0 2 = none ∧ s.mate 0 1 = some 1 ∧
      (s.ctx 1).phase = .halted ∧ s.mate 0 0 = some 0 ∧
      (let d := machine ctx0 group0 (core0 (.ctxsave { fC with aux := 1 })) { ctx0 with phase := .done, pos := 1 }
       d.mate 0 1 = some 1 ∧ (d.ctx 1).phase = .done ∧ readyTest d 8 false = true) ∧ ((at0 ctx0 (.ctxrest fC)).ctx 1).phase ≠ .halted ∧
      (0x1000 : W64).toNat % 4096 = 0 ∧ (1 : W64).toNat % 4096 ≠ 0 :=
  ⟨ready _ 8 (by decide), by decide⟩

/-! Engine commands -/

theorem wit_CanopyCommandsEnter :
    let s := at0 ctx0 (.tzero { fE with beats := 1 })
    let full := machine ctx0 group0 { core0 (.tzero fE) with canopyQueue := [0, 1, 2, 3] } Ctx.launch
    let f : FieldE := { fE with td := 1, ops := 5 }
    let member : Ctx := { ctx0 with
      gang := 1, ts := ((Vector.replicate 32 0).set 0 0x00100000).set 1 0x01000700, s := (Vector.replicate 32 0).set 5 0x900 }
    let solo := at0 member (.mma f)
    let joined := at0 { member with rp := true, meetPc := 0x1000 } (.mma f)
    let late := at0 { member with rendezvousTrap := some (timeoutTrap 1 0), meetPc := 0x1000 } (.mma f)
    let first := at0 { member with gang := 0x1002 } (.mma f)
    (∃ f uf, Spec.canopyCommand (.tzero { fE with beats := 1 }) = some (f, uf) ∧ Ready s (envOf s) 9 f.pf f.pn ∧ 6 ≤ uf ∧
      canopyCheck uf f (envOf s) s = none) ∧
      (s.ctx 0).overrun = none ∧ (s.ctx 0).accesses = [] ∧ (s.core 0).canopyQueue.length < 4 ∧
      (full.core 0).canopyQueue.length = 4 ∧ canopyCheck 9 fE (envOf full) full = none ∧
      (canopyCheck 9 { fE with td := 4 } (envOf s) s).isSome = true ∧ canopyCheck 0xD fE (envOf s) s = none ∧
      Spec.canopyCommand (.v2t fE) = some (fE, 0xD) ∧ (envOf joined).passed = true ∧
      canopyCheck 1 f (envOf joined) joined = none ∧ canopyCheck 1 f (envOf solo) solo = none ∧
      gangCount (solo.readCsr 0 100 36 0x004).toNat < 2 ∧ (envOf solo).passed = false ∧ (envOf solo).divergence = none ∧
      readyTest joined 9 false = true ∧ canopyCheck 1 f (envOf late) late = none ∧ (envOf late).passed = false ∧
      (envOf late).divergence = some (timeoutTrap 1 0) ∧ (timeoutTrap 1 0).cause ≠ .formatDiverge ∧ readyTest late 9 false = true ∧
      canopyCheck 1 f (envOf first) first = none ∧ (envOf first).passed = false ∧ (envOf first).divergence = none ∧
      2 ≤ gangCount (first.readCsr 0 100 36 0x004).toNat ∧
      group0.latch (gangLatch (first.readCsr 0 100 36 0x004).toNat) = RendezvousLatch.clear ∧
      first.replayHolds 0 7 (gangLatch (first.readCsr 0 100 36 0x004).toNat) 0 0 = false ∧ readyTest first 9 false = true :=
  ⟨⟨_, _, rfl, ready _ 9 (by decide), by decide, by decide⟩, by decide⟩
theorem wit_CopyCommandsEnter :
    (∃ f uf flag, Spec.copyCommand (.tload { fE with ops := 44 }) = some (f, uf, flag) ∧
      let s := at0 ctx0 (.tload { fE with ops := 44 })
      Ready s (envOf s) 9 f.pf f.pn ∧ (s.ctx 0).overrun = none ∧ (s.ctx 0).accesses = [] ∧ s.groupOf 0 = some group0 ∧
        s.readCsr 0 100 36 0x001 = BitVec.allOnes 64 ∧ 2 * group0.decl.n ≤ 4 ∧ f.td.toNat < 2 * group0.decl.n ∧
        (scalarOperand s (envOf s) 9 0 f.ops).toNat % 64 = 0 ∧ (scalarOperand s (envOf s) 9 0 45).toNat % 64 ≠ 0 ∧
        (s.core 0).copyQueue.length < 4) ∧
      (at0 { ctx0 with lmask := 1 } (.tcopy fE)).readCsr 0 100 36 0x001 ≠ BitVec.allOnes 64 ∧
      ((machine ctx0 group0 { core0 (.tcopy fE) with copyQueue := [0, 1, 2, 3] } Ctx.launch).core 0).copyQueue.length = 4 :=
  ⟨⟨_, _, _, rfl, ready _ 9 (by decide), by decide⟩, by decide⟩
theorem wit_OperationsWithoutEffect :
    (∃ i o, opOf i = some o ∧ Ready (at0 ctx0 i) (envOf (at0 ctx0 i)) o.slot o.pf o.pn ∧ Passes o (envOf (at0 ctx0 i)) (at0 ctx0 i)) ∧
    (∃ i o, opOf i = some o ∧ ReadyInactive (at0 ctx0 i) (envOf (at0 ctx0 i)) o.slot o.pf o.pn) ∧
    issueEnv (at0 ctx0 (.idle 5 0)) = some env0 ∧
    ∃ slot uf pf pn, Spec.privilegedForm (.halt fC) = some (slot, uf, pf, pn) ∧
      let s := at0 { ctx0 with user := true } (.halt fC)
      Ready s (envOf s) slot pf pn ∧ (s.ctx (envOf s).k).overrun = none ∧ s.supervisor (envOf s).k = false :=
  ⟨⟨.add .sa fS, _, rfl, ready _ 0 (by decide), ⟨nofun, rfl, rfl, rfl, rfl, .inl rfl, fun h => absurd h (by decide)⟩⟩,
    ⟨.add .sa { fS with pn := true }, _, rfl, by decide, by decide, by decide⟩, by decide,
    _, _, _, _, rfl, ready _ 8 (by decide), by decide⟩
theorem wit_RegistersReadWhatLanded :
    let p : Pending := { due := 100, issued := 98, slot := 0, contested := 0, what := .scalar 31 7 }
    let s := at0 { ctx0 with pending := [p] } (.add .sa fS)
    31 < 32 ∧ (s.ctx 0).overrun = none ∧ p ∈ (s.ctx 0).pending ∧ p.due ≤ 100 ∧
      (∀ q ∈ (s.ctx 0).pending, ∀ y, q.what = .scalar 31 y → y = 7) ∧
      (∀ q ∈ (s.ctx 0).pending, q.due ≤ 100 → ∀ x, q.what ≠ .scalar 30 x) :=
  ⟨by decide, rfl, List.mem_singleton.mpr rfl, by decide,
    fun q hq y h => by cases List.mem_singleton.mp hq; cases h; rfl,
    fun q hq _ x h => by cases List.mem_singleton.mp hq; cases h⟩

theorem wit_RegistersReadWhatLanded_each (w : Landing) :
    let p : Pending := { due := 100, issued := 98, slot := 0, contested := 0, what := w }
    let s := at0 { ctx0 with pending := [p] } (.add .sa fS)
    Spec.Due (s.ctx 0) 100 p w ∧ (∀ q ∈ (s.ctx 0).pending, q.what = w) ∧ (s.ctx 0).overrun = none ∧
      Spec.csrStored 0x002 5 = some 5 ∧ 15 ∉ (at0 ctx0 (.add .sa fS)).asyncRegs 0 :=
  ⟨⟨List.mem_singleton.mpr rfl, rfl, Nat.le_refl 100, rfl⟩, fun q hq => by cases List.mem_singleton.mp hq; rfl, rfl, by decide, by decide⟩

/-! The whole machine -/

/-- Whether a computation that may fail has answered. -/
def answers {α β : Type} (r : Except α β × State) : Bool := match r.1 with | .ok _ => true | .error _ => false
/-- A bundle that fetch and decode have made ready, as a test of its one operation. -/
def bundleOf (p : Prepared) (ok : List Instr → Bool) : Bool := match p with | .bundle b _ => ok b.ops | _ => false
/-- A machine whose memory holds a bundle of one mul at the PC of context 0. -/
def placed : State := State.reset.withFetchWord 40 0x0000001014310000
theorem wit_StepRunsTheDecodedInstruction :
    let s := at0 ctx0 (.add .sa fS)
    s.inputs = [] ∧ s.nextCore = some 0 ∧ (s.core 0).running = some 0 ∧ (s.ctx 0).overrun = none ∧
      ({ s with turn := 0 } : State).earlyTrap 0 = none ∧
      ((s.core 0).bundle.map IssueBundle.ops) = some [.add .sa fS] ∧ ({ s with turn := 0 } : State).fairnessDue 0 = false ∧
      ({ s with turn := 0 } : State).forcedDue 0 = false ∧ ({ s with turn := 0 } : State).nextCore = some 0 := by decide
theorem wit_StepRunsTheDecodedInstruction_fetched :
    let here : State := { placed with turn := 0 }
    let held := prepareBundle 0 here
    placed.inputs = [] ∧ placed.nextCore = some 0 ∧ (placed.core 0).running = some 0 ∧ (placed.ctx 0).overrun = none ∧
      here.earlyTrap 0 = none ∧
      (placed.core 0).bundle = none ∧
      bundleOf (here.prepared 0) (fun is => is = [.mul .sa { fS with dst := 5, opa := 3, opb := 4 }]) = true ∧
      held.fairnessDue 0 = false ∧ held.forcedDue 0 = false ∧ held.nextCore = some 0 ∧
      (match placed.fetched 0 with
        | .stream (.bundle [(slot, index)] imms false _ _) =>
          slot = 0 && imms = List.replicate 3 0 && placed.tableEntry 0 (placed.ctx 0).dictHandle 0 index = some (0x1014310000, false)
        | _ => false) = true ∧
      ((containerSelectors 0 0x1014310000).all fun n => decide (n < 40) || decide (44 ≤ n)) = true := by decide +kernel
theorem wit_StepRunsTheDecodedInstruction_quiet :
    let s : State := { at0 ctx0 (.add .sa fS) with turn := 0 }
    s.arriveBefore 0 = [] ∧ s.overruns 0 = false ∧ next (exec (.add .sa fS) s) (fun t => !t.overruns 0) = true ∧
      (prepareBundle 0 { placed with turn := 0 }).arriveBefore 0 = [] ∧ (prepareBundle 0 { placed with turn := 0 }).overruns 0 = false ∧
      next (exec (.mul .sa { fS with dst := 5, opa := 3, opb := 4 }) (prepareBundle 0 { placed with turn := 0 })) (fun t => !t.overruns 0) =
        true := by decide +kernel
/-- Two contexts of a group arrive at a barrier for two in one cycle, the first with OVR. -/
theorem wit_StepRunsTheDecodedInstruction_bars :
    let f : FieldC := { fC with opa := 1, aux := 8 }
    let two : Ctx := { ctx0 with s := (Vector.replicate 32 0).set 1 2 }
    let s : State := { machine two { group0 with contexts := [0, 4] } { core0 (.bar f) with banks := [CheckpointBank.empty] } Ctx.launch with
      cores := [(0, { core0 (.bar f) with banks := [CheckpointBank.empty] }),
        (1, { core0 (.bar { f with aux := 0 }) with running := some 4 })]
      ctxs := [(0, two), (4, { two with pos := 1 })], turn := 0 }
    s.inputs = [] ∧ s.nextCore = some 0 ∧ (s.core 0).running = some 0 ∧ (s.ctx 0).overrun = none ∧ s.earlyTrap 0 = none ∧
      ((s.core 0).bundle.map IssueBundle.ops) = some [.bar f] ∧ s.fairnessDue 0 = false ∧ s.forcedDue 0 = false ∧ s.arriveBefore 0 = [] ∧
      s.overruns 0 = false ∧ next (exec (.bar f) s) (fun t => t.overruns 0 && t.completesNow 0) = true := by decide +kernel
theorem wit_EncodingRoundTrips :
    wf (.mul .sa { fS with dst := 5, opa := 3, opb := 4 }) = true ∧
      encode (.mul .sa { fS with dst := 5, opa := 3, opb := 4 }) = some (0, 0x1014310000) ∧ (9 < 10 ∧ 0x4042808C00023 < 2 ^ slotWidth 9) ∧
      (decodeSlot 9 0x4042808C00023).isSome = true := by decide
theorem wit_MemoryStaysCanonical :
    let s : State := { placed with mem := [(0x40, 1), (bankKey 0 3 6, 7)] }
    Memory.wf s.mem = true ∧ next (step s) (fun t => t.mem = s.mem) = true := by decide +kernel
theorem wit_EveryStepGoesOn :
    State.reset.InputsAreDeeds ∧ ({ State.reset with inputs := [.evNotify 3 5] } : State).InputsAreDeeds := by
  refine ⟨?_, ?_⟩ <;> simp [State.InputsAreDeeds, State.reset, isEvent, opOf]
theorem wit_ContextsTakeTurns :
    let idle : State := { machine { ctx0 with phase := .ready, readySince := 90 } group0
      { core0 (.add .sa fS) with running := none, bundle := none } Ctx.launch with turn := 0 }
    let old : Core := { core0 (.add .sa fS) with lt := 9000, nextIssue := 9000 }
    let busy : State := machine { ctx0 with firstIssue := some 10 } group0
      { old with bundle := old.bundle.map fun b => { b with safe := true } }
      { Ctx.launch with phase := .ready, group := some 0, readySince := 100 }
    ((idle.core 0).running = none ∧ 0 ∈ ctxsOfCore 0 ∧ (idle.ctx 0).phase = .ready ∧ (idle.ctx 0).drain = .none ∧
      idle.mayRun 0 = true ∧ ∀ j ∈ ctxsOfCore 0, j ≠ 0 → (idle.ctx j).phase ≠ .ready) ∧
    (busy.core 0).running = some 0 ∧ coreOf 0 = 0 ∧ (busy.ctx 0).drain = .none ∧ busy.mayRun 0 = true ∧
      (busy.core 0).nextIssue ≤ (busy.core 0).lt ∧ (busy.core 0).freeze = none ∧ (busy.core 0).walking = [] ∧
      1 ∈ ctxsOfCore 0 ∧ (busy.ctx 1).phase = .ready ∧ (busy.ctx 1).drain = .none ∧ busy.mayRun 1 = true ∧
      (busy.ctx 1).readySince + 4096 ≤ (busy.core 0).lt ∧ (busy.core 0).bundle.map IssueBundle.safe = some true ∧
      max ((busy.ctx 1).readySince + 4096) 10 + 4096 ≤ (busy.core 0).lt := by decide
theorem wit_TrapsEnterTheirHandlers :
    let trap : Trap := { cause := .svc, slot := 8, tval := 7, decoded := true }
    let s (tvec : BitVec 57) : State := at0 { ctx0 with tvec := tvec, drain := .trap trap 0x1000 0x1003 } (.add .sa fS)
    ((s 0x2000).ctx 0).drain = .trap trap 0x1000 0x1003 ∧ (s 0x2000).writtenBack 0 = true ∧ (s 0x2000).groupFaulted 0 = false ∧
      trap.cause ≠ .breakpoint ∧ (s 0x2000).delivers 0 trap = true ∧ (s 0).writtenBack 0 = true ∧ (s 0).delivers 0 trap = false ∧
      ((s 0).ctx 0).group = some 0 ∧ (s 0).group? 0 = some group0 := by decide
theorem wit_DrainsEnd :
    let at' (c : Ctx) : State := machine c group0 { core0 (.add .sa fS) with banks := [{ CheckpointBank.empty with owner := some 0 }] } Ctx.launch
    let p : PhaseRecord :=
      { desc := 0, base := 0, length := 64, opening := 0x1000, bank := some 0, exposed := false, held := [], opened := 0 }
    let halt := at' { ctx0 with drain := .halt 1 }
    let exit := at' { ctx0 with drain := .exit }
    let refetch := at' { ctx0 with phase := .blocked, block := some .refetch }
    let roll := at' { ctx0 with drain := .rollback, overrun := some 0, barrierWait := some { barrier := 0, generation := 0 } }
    let cancel (n : Nat) := at' { ctx0 with drain := .cancel .poison 5, phaseRec := some p, cancels := n }
    ((halt.ctx 0).drain = .halt 1 ∧ halt.writtenBack 0 = true ∧ halt.frozen 0 = false ∧ halt.groupFaulted 0 = false ∧ (halt.core (coreOf 0)).running = some 0) ∧
    ((exit.ctx 0).drain = .exit ∧ exit.drained 0 = true ∧ (exit.ctx 0).accesses = [] ∧ (exit.ctx 0).dlq = [] ∧ (exit.ctx 0).pending = []) ∧
    ((refetch.ctx 0).phase = .blocked ∧ (refetch.ctx 0).block = some .refetch ∧ refetch.engine = [] ∧ refetch.heldOps = []) ∧
    ((roll.ctx 0).drain = .rollback ∧ (roll.ctx 0).overrun = some 0 ∧ roll.drained 0 = true ∧ roll.frozen 0 = false ∧
      ((roll.flush 0).ctx 0).barrierWait = some { barrier := 0, generation := 0 } ∧ ((roll.flush 0).ctx 0).phase ≠ .halted) ∧
    ((cancel 3).ctx 0).drain = .cancel .poison 5 ∧ ((cancel 3).ctx 0).phaseRec = some p ∧ p.bank = some 0 ∧
      (cancel 3).drained 0 = true ∧ (cancel 3).frozen 0 = false ∧ (((cancel 3).groupOf 0).bind Group.fault).isSome = false ∧
      (((cancel 3).flush 0).ctx 0).cancels < 4 ∧ 4 ≤ (((cancel 4).flush 0).ctx 0).cancels := by decide

/-! Accesses, maintenance and fetch -/

/-- Spec.Plain as a test. -/
def plainTest (s : State) (key n : Nat) : Bool :=
  decide (planeOf key ≤ 1) && !s.uncorrectable key && (mapGet? s.partials (lineOf key)).isNone && decide (0 < n) &&
    decide (lineOf key = lineOf (key + n - 1)) && !s.modified.contains (lineOf key)
theorem plain (s : State) (key n : Nat) (h : plainTest s key n = true) : Spec.Plain s key n := by
  simp only [plainTest, Bool.and_eq_true, decide_eq_true_eq, Option.isNone_iff_eq_none, Bool.not_eq_true'] at h
  obtain ⟨⟨⟨⟨⟨a, b⟩, c⟩, d⟩, e⟩, f⟩ := h
  exact ⟨a, b, c, ⟨d, e⟩, f⟩
def element (key row lane : Nat) : Element :=
  { va := BitVec.ofNat 64 key, place := { key := key, nc := false }, row := row, lane := lane, data := 5 }
def access (kind : AccessKind) (size : Nat) (es : List Element) : Access :=
  { id := 1, issued := 99, stored := true, kind := kind, size := size, scope := 0, ord := 0, elements := es }
theorem wit_QueuedAccessesArePerformed :
    let d : DlqEntry := { id := 3, value := 0, fate := .waiting }
    let l := access (.load 3 true) 8 [element 0x38 0 0]
    let w := access .store 4 [element 0x3C 0 0]
    let v := access (.vload 15 2) 4 [element 0x3C 0 63, element 0x40 15 0]
    let s (a : Access) : State := at0 { ctx0 with accesses := [a], dlq := [d] } (.add .sa fS)
    (Spec.Oldest (s l) 0 l [] ∧ ((s l).ctx 0).dlq[0]? = some d ∧ l.kind = .load d.id true ∧ l.elements = [element 0x38 0 0] ∧
      Spec.Plain (s l) 0x38 8 ∧ l.size = 8 ∧ Spec.performs (.evDlqArrival 0 0) 0 (.evDlqArrival 0 0)) ∧
    (Spec.Oldest (s w) 0 w [] ∧ w.kind = .store ∧ w.elements = [element 0x3C 0 0] ∧ Spec.Plain (s w) 0x3C w.size ∧ w.size ≤ 8 ∧
      Spec.performs (.evStorePerformed 0) 0 (.evStorePerformed 0)) ∧
    Spec.Oldest (s v) 0 v [] ∧ v.kind = .vload 15 2 ∧ v.size ≤ 4 ∧
      (∀ x ∈ v.elements, Spec.Plain (s v) x.place.key v.size ∧ x.row < 16 ∧ x.lane < 64) ∧
      (v.elements.map fun x => (x.row, x.lane)).Nodup := by
  refine ⟨⟨⟨rfl, rfl⟩, rfl, rfl, rfl, plain _ _ _ (by decide), rfl, .inl rfl⟩, ⟨⟨rfl, rfl⟩, rfl, rfl, plain _ _ _ (by decide), by decide,
    .inl rfl⟩, ⟨rfl, rfl⟩, rfl, by decide, ?_, by decide⟩
  intro x hx
  rcases List.mem_cons.mp hx with rfl | hx
  · exact ⟨plain _ _ _ (by decide), by decide, by decide⟩
  · cases List.mem_singleton.mp hx
    exact ⟨plain _ _ _ (by decide), by decide, by decide⟩
theorem wit_DevicesReachContexts :
    let a := access (.load 3 true) 8 [element 0x38 0 0]
    let w : Watch :=
      { flag := 4, va := 0x40, place := { key := 0x40, nc := false }, size := 8, scope := 0, spad := false, eq := true, value := 5, hit := true }
    let s : State := { machine { ctx0 with accesses := [a], watches := [w] } group0
      { core0 (.add .sa fS) with freeze := some (.walk [0]) } Ctx.launch with mem := tables }
    (s.ctx 0).accesses[0]? = some a ∧ a.kind = .load 3 true ∧ a.elements.head? = some (element 0x38 0 0) ∧ (s.ctx 0).overrun = none ∧
      (s.ctx 0).watches[0]? = some w ∧ w.hit = true ∧ (s.core 0).running = some 0 ∧ (s.core 0).freeze = some (.walk [0]) ∧
      (s.core 0).walking = [] ∧
      (match s.walk (s.ptbase (s.regionOf 0)) (0 * 4096) with | .leaf pte size => pte = 0x1F && size = 30 | _ => false) = true ∧
      s.partials = [] ∧ plainTest s 0x38 8 = true ∧ a.elements = [element 0x38 0 0] ∧
      tierOf (tierKey 9 0x1000 / 64 * 64) = 2 ∧ (List.replicate 64 (7 : Byte)).length = 64 ∧
      mapGet? s.partials (tierKey 3 0x1000 / 64) = none := by decide +kernel
/-- Some line of the host lies outside the aperture, wherever that is. -/
theorem wit_DevicesReachContexts_host : ∃ line, planeOf (line * 64) = 3 ∧ apertureOf (line * 64) = none := by
  have h (n : Nat) (hp : planeOf (n * 64) = 3) (h : planeAddr (n * 64) / 2 ^ 21 ≠ Config.bar2Page) :
      planeOf (n * 64) = 3 ∧ apertureOf (n * 64) = none :=
    ⟨hp, by rw [apertureOf, decide_eq_false h, Bool.and_false]; rfl⟩
  by_cases z : Config.bar2Page = 0
  · exact ⟨_, h (tierKey 3 0x200000 / 64) (by decide) (by rw [z]; decide)⟩
  · exact ⟨_, h (tierKey 3 0 / 64) (by decide) (by
      have e : planeAddr (tierKey 3 0 / 64 * 64) / 2 ^ 21 = 0 := by decide
      rw [e]; exact fun a => z a.symm)⟩
theorem wit_MaintenanceCompletes :
    let s (m : Maintenance) : State := machine { ctx0 with maintenance := [m] } group0 (core0 (.add .sa fS))
      { Ctx.launch with phase := .halted }
    let old : Cluster := { cluster0 with switches := [{ op := 2, bank := 15, mode := .fifo }], bankOps := [{ op := 2, ctx := 0, flag := 3 }] }
    let b : State := { at0 ctx0 (.add .sa fS) with clusters := [(257, old)] }
    ((s (.tlbinv 3 0 0x1000 true 2)).ctx 0).maintenance = [.tlbinv 3 0 0x1000 true 2] ∧
      ((s (.cacheop 3 0 64 2)).ctx 0).maintenance = [.cacheop 3 0 64 2] ∧ (3 ≠ 1) ∧ (s (.cacheop 3 0 64 2)).modified = [] ∧
      (s (.cacheop 3 0 64 2)).partials = [] ∧ 0 < (64 : W64).toNat ∧
      (257 < 258 ∧ 15 < 16 ∧ (b.cluster 257).switches = [{ op := 2, bank := 15, mode := .fifo }] ∧ b.reserved 257 15 = false ∧
        (b.cluster 257).bankOps = [{ op := 2, ctx := 0, flag := 3 }] ∧ b.bankMode 257 15 = .cache ∧ b.modified = []) ∧
      ((s (.ctxsave 1 0x1000 2)).ctx 0).maintenance = [.ctxsave 1 0x1000 2] ∧
      ((s (.ctxrest 1 0x1000 true 2)).ctx 0).maintenance = [.ctxrest 1 0x1000 true 2] ∧ ((s (.ctxsave 1 0x1000 2)).ctx 1).phase = .halted := by
  decide
theorem uncontested (c : Ctx) (reg : Nat) (h : (c.pending.isEmpty && c.rows.isEmpty && c.landed.isEmpty) = true) :
    Spec.Uncontested c reg := by
  simp only [Bool.and_eq_true, List.isEmpty_iff] at h
  exact ⟨fun p hp => absurd hp (by rw [h.1.1]; simp), fun p hp => absurd hp (by rw [h.1.2]; simp),
    fun p hp => absurd hp (by rw [h.2]; simp)⟩
theorem wit_QueuedAccessesArePerformed_lanes :
    let v := access (.vload 15 2) 4 [element 0x3C 0 63]
    let s : State := at0 { ctx0 with accesses := [v] } (.add .sa fS)
    let away : State := { s with ctxs := (parkKey 0 1, { ctx0 with accesses := [v] }) :: s.ctxs }
    v.failed = none ∧ Spec.Uncontested (s.ctx 0) 15 ∧ parked 0 = false ∧ parked (parkKey 0 1) = true ∧ Spec.Oldest away (parkKey 0 1) v [] ∧
      Spec.Uncontested (away.ctx (parkKey 0 1)) 15 ∧ Spec.Plain away 0x3C 4 ∧
      Spec.performs (.evVectorAccessComplete (parkKey 0 1) 0) (parkKey 0 1) (.evPendingAccessComplete 0 1) :=
  ⟨rfl, uncontested _ _ (by decide), by decide, by decide, ⟨by decide, by decide⟩, uncontested _ _ (by decide), plain _ _ _ (by decide +kernel), .inr ⟨0, 1, rfl, rfl⟩⟩
theorem wit_DevicesReachContexts_failures :
    let a := access (.load 3 true) 8 [element (tierKey 9 0x40) 0 0]
    let p : Pending := { due := 101, issued := 99, slot := 6, contested := 0, what := .vrow 3 15 (BitVec.allOnes 64) Row.zero }
    let s : State := at0 { ctx0 with accesses := [a], pending := [p] } (.add .sa fS)
    (s.ctx 0).accesses[0]? = some a ∧ a.kind = .load 3 true ∧ a.elements.head? = some (element (tierKey 9 0x40) 0 0) ∧
      tierOf (tierKey 9 0x40) = 2 ∧ (s.ctx 0).overrun = none ∧ (s.ctx 0).pending[0]? = some p ∧ p.slot < 8 ∧ p.slot ≠ 5 ∧ parked 0 = false ∧
      (let p : PhaseRecord :=
        { desc := 0, base := 0, length := 64, opening := 0x1000, bank := some 0, exposed := false, held := [], opened := 0 }
       ((at0 { ctx0 with phaseRec := some p } (.add .sa fS)).ctx 0).inOpenPhase = true) := by decide +kernel
theorem wit_MaintenanceCompletes_images :
    let s (m : Maintenance) : State := machine { ctx0 with maintenance := [m] } group0 (core0 (.add .sa fS))
      { Ctx.launch with phase := .halted }
    ((s (.cacheop 1 0 64 2)).ctx 0).maintenance = [.cacheop 1 0 64 2] ∧ (s (.cacheop 1 0 64 2)).partials = [] ∧
      Spec.TiersOnly (s (.cacheop 1 0 64 2)) ∧ (∀ l ∈ (s (.cacheop 3 0 64 2)).modified, (s (.cacheop 3 0 64 2)).reachable (l * 64) = true) ∧
      (0 ≠ 1) ∧ ((s (.ctxrest 1 0x1000 true 2)).ctx 1).phase = .halted ∧ ((s (.ctxrest 0 0x1000 true 2)).ctx 0).phase ≠ .halted ∧
      (ctx0.dlq.length ≤ 16) ∧ parked 0 = false :=
  ⟨by decide, by decide, fun _ h => (nomatch h), fun _ h => (nomatch h), by decide, by decide, by decide, by decide, by decide⟩
theorem wit_FetchIsServed :
    let s : State := { machine ctx0 group0 { core0 (.add .sa fS) with bundle := none, freeze := some (.refill [(0, 2)]) } Ctx.launch with
      mem := tables }
    let m : State := { machine ctx0 group0 { core0 (.add .sa fS) with bundle := none } Ctx.launch with mem := tables }
    let at' := 0 + (List.replicate 6 128).getD 0 0 + 128 * 2
    let r : State := placed
    (r.core 0).bundle = none ∧ (r.ctx 0).drain = .none ∧ (r.core 0).running = some 0 ∧
      (match r.fetched 0 with
        | .stream (.bundle ts _ _ _ _) => ts.any fun x => decide (slotClass x.1 = 0) && decide (x.2 / 16 = 0)
        | _ => false) = true ∧ r.pageResident 0 (r.ctx 0).dictHandle 0 0 = true ∧
    ((s.core 0).running = some 0 ∧ (s.core 0).freeze = some (.refill [(0, 2)]) ∧
      ((s.core 0).handles[(s.ctx 0).dictHandle]?.bind id).isSome = true ∧ s.pageResident 0 0 0 2 = false ∧
      answers (s.lineRead (s.regionOf 0) .load at') = true ∧
      answers ((s.lineRead (s.regionOf 0) .load at').2.lineRead (s.regionOf 0) .load (at' + 64)) = true) ∧
    (m.core 0).running = some 0 ∧ (m.ctx 0).drain = .none ∧ (match m.fetched 0 with | .miss l => l = 32 | _ => false) = true ∧
      answers (m.lineRead (m.regionOf 0) .fetch 0x1000) = true ∧
      answers ((m.lineRead (m.regionOf 0) .fetch 0x1000).2.lineRead (m.regionOf 0) .fetch 0x1040) = true := by decide +kernel

/-! Groups and turns -/

/-- A command of one group of one context. -/
def command0 : Command :=
  { queue := 5, seq := 0, type := 2, region := 0, entry := 0x1000, dictObj := 0, args := 9, gcount := 2
    decl := { n := 1, b := 1, q := 0, barriers := 1, queues := 0, latches := 0 }, bas := Vector.replicate 16 0, left := 2, unplaced := 2
    rel := 0, sigidx := 0, hash := 0, rerun := false, incomplete := false, ordinal := 0, lts := 0, cancelled := false, server := none }
/-- A core with a dictionary bound, and nothing to issue. -/
def idleCore : Core :=
  { core0 (.add .sa fS) with
    running := none, bundle := none
    handles := [some { object := 0, asid := 0, counts := List.replicate 6 3, pinPages := List.replicate 6 0,
                       arrays := List.replicate 6 128, priv := false, bound := 0, loaded := true }] }
/-- Die 0 with one range, its cluster 0 ready and empty. -/
def waiting : State :=
  { State.reset with
    ready := (State.reset.ready.set 0 (units ||| 1)).set 1 1, cores := [(0, idleCore)], regions := [(0, region0)], commands := [(0, command0)]
    asids := [(0, { ptbase := 0x10000, generation := 1, lastUse := 0 })]
    dies := [(0, { Die.initial with ranges := [{ command := 0, first := 0, stride := 1, next := 1, stop := 2 }] })] }
/-- A group whose two contexts stand on core 0. -/
def resident (c : Ctx) (x : Group) : State :=
  { machine c x idleCore c with commands := [(0, command0)], ready := (State.reset.ready.set 0 (units ||| 1)).set 1 1 }
theorem wit_GroupsComeAndGo :
    (match waiting.nextPlacement 0 with | some (.fresh command g cluster) => command = 0 && g = 1 && cluster = 0 | _ => false) = true ∧
    mapGet? waiting.commands 0 = some command0 ∧
    (match waiting.assignAsid 0 with
      | some a => decide (((a.advanceRange 0 0).bindAll 0 (objectOf 0)
          ((takeContexts 1 ((a.advanceRange 0 0).freeContexts 0)).map fun h => 16 * 0 + h)).1 = none)
      | none => false) = true := by decide +kernel
theorem wit_GroupsComeAndGo_ends :
    let q : ContQueue := { region := 0, number := 0, reserved := 1, waiting := 0 }
    let kept : Group := { group0 with kept := true, contReserved := false }
    let bs := continuePacket 0x2000 1 0 kept command0
    let s : State := resident { ctx0 with phase := .done } kept
    let f : GroupFault := { cause := .svc, slot := 8, tval := 7, tepc := 0x1000, pos := 0, exposed := false }
    let done := resident { ctx0 with phase := .done } group0
    let asks : State := { resident { ctx0 with phase := .done, contReq := some (0x2000, 1) } group0 with
      dies := [(0, { Die.initial with conts := [q] })], bases := State.reset.bases.set 4 0x20000
      mem := tables ++ [(0x420001, 0x80), (0x420008, 4)] }
    let m := contNumber 0 0
    let faulted := resident ctx0 { group0 with fault := some f }
    (fieldAt bs 0x20 4 = 0 ∧ s.group? 0 = some kept ∧ mapGet? s.commands kept.command = some command0 ∧
      command0.cancelled = false ∧ kept.keys.Nodup ∧ (s.bindAll kept.region (objectOf kept.dictObj) kept.keys).1 = none) ∧
    (done.group? 0 = some group0 ∧ group0.fault = none ∧ group0.kept = false ∧ group0.preempting = false ∧
      group0.cluster = some 0 ∧ done.engineRuns 0 = false ∧ (∀ k ∈ group0.keys, (done.ctx k).phase = .done) ∧
      (∀ k ∈ group0.keys, (done.ctx k).contReq = none) ∧ asks.contOf group0 = some (0x2000, 1) ∧
      mapGet? asks.commands group0.command = some command0 ∧ (asks.die 0).contQueue group0.region = some q ∧ asks.heldOps = [] ∧
      asks.traces = [] ∧ asks.partials = [] ∧
      (match asks.deviceWalk group0.region .store (BitVec.ofNat 64 (asks.slotAddr m (asks.writeIndex m))) with
        | .ok p => decide (p.key = 0x8000)
        | .error _ => false) = true ∧
      plainTest asks 0x8000 64 = true ∧ ∀ o < 64, lineOf 0x8000 ≠ lineOf (tierKey 0 (asks.qcbAddr m + o))) ∧
    (faulted.group? 0).bind Group.fault = some f ∧ faulted.stopped 0 { group0 with fault := some f } = true := by decide +kernel
theorem wit_GroupsMove :
    let still := resident ctx0 group0
    let busy := resident { ctx0 with maintenance := [.tlbinv 0 0 0 true 0] } group0
    (still.group? 0 = some group0 ∧ group0.cluster = some 0 ∧ group0.fault = none ∧ group0.kept = false ∧
      group0.keys.all still.capturable = true ∧ (still.cluster 0).switches = [] ∧ group0.keys.Nodup ∧
      (∀ k ∈ group0.keys, ((still.ctx k).pending = [] ∧ (still.ctx k).overrun = none ∧ (still.ctx k).phaseRec = none ∧
        (still.ctx k).maintenance = []) ∧ k < 4096) ∧ still.engine = [] ∧ group0.keys.all busy.capturable = false) := by decide +kernel
theorem wit_GroupsMove_turns :
    let v : SavedGroup := { cluster := 0, banks := [], tiles := [], commands := [] }
    let x : Group := { group0 with cluster := none, contexts := [], banks := [], saved := some v }
    let s : State := { waiting with
      dies := [], groups := [(0, x)], nextGroup := 1, cores := [(0, idleCore), (1, idleCore)]
      ctxs := [(parkKey 0 0, { ctx0 with phase := .ready, pos := 0 }), (parkKey 0 1, { ctx0 with phase := .ready, pos := 1 })] }
    let r : GroupRange := { command := 0, first := 0, stride := 1, next := 1, stop := 4 }
    let two : State := { waiting with
      ready := (State.reset.ready.set 0 (units ||| 3)).set 1 1, dies := [(1, { Die.initial with ranges := [r] })] }
    let turns : State := { waiting with
      regions := [(0, { region0 with parent := 0 }), (3, { region0 with parent := 0 })]
      commands := [(0, { command0 with region := 3 })] }
    let lost : State := { resident ctx0 group0 with ready := (State.reset.ready.set 0 (units ||| 3)).set 1 1 }
    (match s.nextPlacement 0 with | some (.resume g cluster) => g = 0 && cluster = 0 | _ => false) = true ∧
      s.group? 0 = some x ∧ x.saved = some v ∧
      (match s.assignAsid x.region with
        | some a => (a.rebind 0 x.region (a.newKeys x 0)).1.isNone
        | none => false) = true ∧ x.decl.n ≤ 16 ∧ s.heldOps = [] ∧
      v.commands = [] ∧ two.stealTarget 0 = some (0, 1, 0, r) ∧ turns.turnOver = some (0, 0) ∧ turns.turnPath = [] ∧
      (turns.region 0).cursor = none ∧ turns.members 0 = [3] ∧
      (lost.groupsOn 0 = [(0, group0)] ∧ lost.group? 0 = some group0 ∧
        (lost.setReady 1 0 false).replaceable 0 group0 = false ∧
        ((resident { ctx0 with phase := .done } group0).setReady 1 0 false).replaceable 0 group0 = true ∧
        ((List.range 7).map fun j => (0 + j + 1) % 8).find? (fun d => lost.dieReady d && d != 0) = some 1) := by decide +kernel
/-- Whichever die holds a modified line, a machine without groups, commands and ranges may lose it. -/
theorem wit_GroupsMove_lost :
    let s : State := { State.reset with modified := [2 ^ 77] }
    ∃ die < 8, s.groups = [] ∧ s.engine = [] ∧ (s.die die).ranges = [] ∧ ∃ l ∈ s.modified, lineDie l = die :=
  ⟨lineDie (2 ^ 77), Nat.mod_lt _ (by decide), rfl, rfl, rfl, _, List.mem_singleton.mpr rfl, rfl⟩

/-! Engines and rendezvous -/

/-- The member of a command that context 0 issued, with tiles of 16 rows of 64 bytes. -/
def member0 : Member :=
  { index := 0, pos := 0, td := 1, ta := 0, ti := 0, sl := 0, flag := 3, adt := 0, ts := Vector.replicate 32 0x0010030F
    fmt := Vector.replicate 16 0, lts := 0, phase := none }
/-- A command of context 0 in its core's queue. -/
def cmd0 (copy : Bool) (uf : Nat) : EngineCmd :=
  { copy := copy, uf := uf, group := some 0, pos := 0, cluster := 0, core := 0, region := 0, command := 0, td := 1, ta := 0, sl := 0
    aux := 0, flag := 3, operand := 0x100, members := [member0], rows := [], queued := true, started := false, position := 0, origin := 0, forked := 0, lts := 0
    asid := 0, user := false, desc := none, resumed := false, cancel := false, refetch := false, phase := none, packet := false
    entries := [] }
/-- A machine with one command, and memory with a copy descriptor at 0x100 and a latch descriptor at 0x400. -/
def runs (c : EngineCmd) (x : Group) : State :=
  { resident ctx0 x with
    engine := [(7, c)]
    mem := [(0x140, 4), (0x408, 64), (0x40C, 32), (0x40E, 0x10)] ++ tables }
theorem wit_CanopyRuns :
    let start (c : EngineCmd) (x : Group) : Bool :=
      let s := runs c x
      decide (s.canopyHead 0 = some (7, c)) && decide (mapGet? s.engine 7 = some c) && !c.started && !s.waitsTile 7 c &&
        (decide (c.uf ≠ 0xD) || decide (c.rows.length = 16))
    let full : LatchRecord := { loaded := true, k := 32, cls := 1, fmt := 0, kof := 0, nof := 0, data := [], scales := [] }
    let loaded : Group := { group0 with records := setPlace group0.records 0 full }
    let mma : EngineCmd := { cmd0 false 1 with operand := 0x900 }
    let ready (x : Group) : Bool := (mma.latches.foldl (fun s sl => s.takeLatch mma sl) (runs mma x)).mmaReady mma
    start (cmd0 false 9) group0 = true ∧ start { cmd0 false 0xD with rows := List.replicate 16 Row.zero } group0 = true ∧
      start mma group0 = true ∧ mma.joint = true ∧ ready group0 = false ∧ start mma loaded = true ∧ ready loaded = true := by
  decide +kernel
theorem wit_CanopyRuns_units :
    let go (c : EngineCmd) : EngineCmd := { c with started := true }
    let at' (c : EngineCmd) : Bool :=
      let s := runs c group0
      decide (s.canopyHead 0 = some (7, c)) && decide (mapGet? s.engine 7 = some c) && c.started && decide (s.group? 0 = some group0)
    let unit (c : EngineCmd) : Except EngineFault Nat := ((runs c group0).canopyUnit group0 c).value
    let bad := go { cmd0 false 8 with operand := 7 }
    let lsl := go { cmd0 false 8 with operand := 0x400 }
    let txp := go (cmd0 false 0xA)
    let zero := go (cmd0 false 9)
    let t2v := go (cmd0 false 0xC)
    at' bad = true ∧ (match unit bad with | .error _ => true | .ok _ => false) = true ∧
      at' lsl = true ∧ (match unit lsl with | .error _ => false | .ok _ => true) = true ∧
      at' txp = true ∧ (match unit txp with | .error _ => false | .ok _ => true) = true ∧
      txp.position + 1 < ((runs txp group0).canopyUnit group0 txp).cmd.units ∧
      at' zero = true ∧ zero.copy = false ∧ zero.members = [member0] ∧ group0.cluster = some 0 ∧ group0.tile 1 < 32 ∧
      at' t2v = true ∧ ((runs t2v group0).ctx ((runs t2v group0).issuerOf t2v)).overrun = none ∧ t2v.td < 16 := by
  decide +kernel
theorem wit_EnginesAndRendezvousEnd :
    let head (c : EngineCmd) : Bool :=
      decide ((runs c group0).copyNext 0 = some (7, c)) && decide (mapGet? (runs c group0).engine 7 = some c) &&
        !(runs c group0).rowsBefore c
    let desc (c : EngineCmd) : Option CopyDesc :=
      match ((runs c group0).engineBytes c c.operand.toNat (linesOf 256) c.operand.toNat 256).value with
      | .ok bs => some (readDesc bs)
      | .error _ => none
    let c (a : W64) : EngineCmd := { cmd0 true 0x10 with operand := a }
    head (c 0x100) = true ∧ (desc (c 0x100)).map (fun d => (d.valid (c 0x100), d.red, d.count * d.size, d.bit 16, d.bit 13)) =
        some (true, 0, 4, false, false) ∧
      head (c 0x200) = true ∧ (desc (c 0x200)).map (fun d => d.valid (c 0x200)) = some false ∧
      head (c 0x40000000) = true ∧ desc (c 0x40000000) = none := by
  decide +kernel
theorem wit_EnginesAndRendezvousEnd_copies :
    let d (src : Nat) : CopyDesc := { readDesc (List.replicate 256 0) with src := src, dst := 0x800, ext := 4 :: List.replicate 9 0 }
    let c (src pos : Nat) : EngineCmd := { cmd0 true 0x10 with started := true, position := pos, desc := some (d src) }
    let head (x : EngineCmd) : Bool :=
      decide ((runs x group0).copyRuns 0 = some (7, x)) && decide (mapGet? (runs x group0).engine 7 = some x)
    let moved (x : EngineCmd) (src : Nat) : Bool :=
      match ((runs x group0).copyElement x (d src)).value with | .ok _ => true | .error _ => false
    head (c 0x100 0) = true ∧ (d 0x100).bit 16 = false ∧ (d 0x100).bit 13 = false ∧ 0 + (d 0x100).size < (d 0x100).count * (d 0x100).size ∧
      moved (c 0x100 0) 0x100 = true ∧
      (match ((((runs (c 0x100 0) group0).poisonSource (c 0x100 0) (d 0x100))).copyElement (c 0x100 0) (d 0x100)).value with
        | .ok _ => false
        | .error _ => true) = true ∧ head (c 0x40000000 3) = true ∧ 3 < (d 0x40000000).count * (d 0x40000000).size ∧
      moved (c 0x40000000 3) 0x40000000 = false ∧ head (c 0x100 4) = true ∧ (d 0x100).count * (d 0x100).size ≤ 4 := by
  decide +kernel
theorem wit_EnginesAndRendezvousEnd_latches :
    let key : VoteKey := { uf := 1, word := 0x900, fmtA := 0, fmtB := 0, ta := 0, tsA := 0, gang := 3 }
    let r : RendezvousLatch := { RendezvousLatch.clear with key := some key, members := [member0], start := 10, rvto := 100 }
    let d : Diverged := { first := 0, differing := 1, since := 10, listed := [0, 1], trapped := [1, 0] }
    let z : RendezvousLatch := { RendezvousLatch.clear with diverged := some d, rvto := 100 }
    let x : Group := { group0 with latches := [r, z] }
    let s : State := { resident ctx0 x with clk := 80 }
    s.group? 0 = some x ∧ 1 < x.latches.length ∧ (x.latch 0).key.isSome = true ∧
      (s.clk - (x.latch 0).start) * 10 ≥ (x.latch 0).rvto.toNat * 7 ∧ (x.latch 0).start ≤ s.clk ∧
      ((x.latch 0).members.map fun m => x.keys.getD m.pos 0).Nodup ∧ (x.latch 1).diverged = some d ∧
      d.listed.all d.trapped.contains = true ∧ (s.clk - d.since) * 10 ≥ (x.latch 1).rvto.toNat * 7 := by decide

/-- What the canopy's statements ask of a command at the head of its queue. -/
def started (s : State) (c : EngineCmd) : Bool :=
  decide (s.canopyHead 0 = some (7, c)) && decide (mapGet? s.engine 7 = some c) && c.started && !c.copy
theorem wit_CanopyRuns_blocks :
    let full : LatchRecord :=
      { loaded := true, k := 32, cls := 1, fmt := 0, kof := 0, nof := 0, data := List.replicate 2048 0, scales := List.replicate 32 127 }
    let x : Group := { group0 with records := setPlace group0.records 0 full }
    let c (uf : Nat) : EngineCmd := { cmd0 false uf with operand := 0x900, started := true }
    let s (uf : Nat) := runs (c uf) x
    let rows := blockRows (tsRows ((c 1).shape (c 1).ta)) (c 1).position
    ([1, 2, 3, 4, 5].all fun uf => started (s uf) (c uf) && (s uf).mmaReady (c uf)) = true ∧ (s 1).group? 0 = some x ∧ x.cluster = some 0 ∧
      tsValid ((c 1).shape (c 1).ta) = true ∧ x.tile member0.td < 32 ∧ x.tile member0.td ≠ x.tile (c 1).ta ∧
      rows.length = 16 ∧ (rows.all fun i => decide ((s 5).indexOf x member0 i = 0xFFFF) ||
        decide ((s 5).indexOf x member0 i < tsRows ((member0.ts[member0.td]?).getD 0).toNat)) = true ∧
      (let none' : State := { s 4 with mem := (s 4).mem ++ (List.range 1024).filterMap fun o =>
        (if o % 64 < 2 then some (tileKey 0 (x.tile member0.ti) o, 0xFF) else none) }
       (match (none'.gangAdapters x (c 4) rows [member0]).value with | .ok _ => true | .error _ => false) = true) := by decide +kernel
theorem wit_CanopyRuns_effects :
    let go (c : EngineCmd) : EngineCmd := { c with started := true }
    let lsl := go { cmd0 false 8 with operand := 0x400 }
    let s := runs lsl group0
    let h := s.engineRead lsl 0x400 32 0x400 32
    let txp := go (cmd0 false 0xA)
    let tcvt := go { cmd0 false 0xB with operand := 16 }
    let v2t := go { cmd0 false 0xD with rows := List.replicate 16 Row.zero }
    let w (c : EngineCmd) := tileWidth (c.shape c.ta) (c.format (tsFsel (c.shape c.ta)))
    (started s lsl = true ∧ lsl.operand.toNat % 32 = 0 ∧ s.partials = [] ∧ lsl.sl < group0.records.length ∧
      (match s.enginePlace lsl .load 32 0x400, s.enginePlace lsl .load 1 0x400, (s.poisonLine 16).enginePlace lsl .load 32 0x400 with
        | .ok p, .ok q, .ok r => decide (p = q ∧ q = r ∧ lineOf p.key = 16)
        | _, _, _ => false) = true ∧
      (match h.value with
        | .ok bs => (lsl.latchDesc bs).isSome && decide (fieldAt bs 0x10 8 = 0) &&
            match (h.state.engineRows h.cmd 0x400 (fieldAt bs 8 4) (4 * classWidth 1 0) (fieldAt bs 0x0C 2) (fieldAt bs 0 8)).value with
            | .ok rows => decide (rows.length = 32)
            | .error _ => false
        | .error _ => false) = true) ∧
    (started (runs txp group0) txp = true ∧ (w txp = 8 ∨ w txp = 16 ∨ w txp = 32) ∧
      w txp * (txp.position + 1) ≤ 8 * tsRowBytes (txp.shape txp.td) ∧ (txp.position + 1) * tsRowBytes (txp.shape txp.ta) ≤ 32768 ∧
      tsRowBytes (txp.shape txp.ta) * 8 / w txp * tsRowBytes (txp.shape txp.td) ≤ 32768 ∧ group0.tile txp.td ≠ group0.tile txp.ta) ∧
    (started (runs tcvt group0) tcvt = true ∧ 0 < w tcvt ∧ 16 * w tcvt ≤ 8 * tsRowBytes (tcvt.shape tcvt.td) ∧
      (tcvt.position + 1) * tsRowBytes (tcvt.shape tcvt.td) ≤ 32768 ∧ tsClass (tcvt.shape tcvt.ta) ≤ 3) ∧
    (started (runs v2t group0) v2t = true ∧ v2t.operand.toNat ≤ 28672 ∧ v2t.rows.length = 16 ∧
      parked ((runs v2t group0).memberKey v2t member0.pos) = false ∧ 4 < 16) := by decide +kernel
theorem wit_CanopyRuns_vectors :
    let t2v : EngineCmd := { cmd0 false 0xC with started := true }
    let s := runs t2v group0
    started s t2v = true ∧ (s.ctx (s.issuerOf t2v)).overrun = none ∧ t2v.td < 16 ∧ parked (s.memberKey t2v member0.pos) = false ∧
      Spec.Uncontested (s.ctx (s.issuerOf t2v)) t2v.td :=
  ⟨by decide +kernel, by decide +kernel, by decide, by decide +kernel, uncontested _ _ (by decide +kernel)⟩
theorem wit_EnginesAndRendezvousEnd_elements :
    let d (nd : Nat) : CopyDesc := { readDesc (List.replicate 256 0) with
      src := 0x100, dst := 0x800, idx := 0x500, ctl := 2 ^ 6 * nd, ext := 4 :: 4 :: List.replicate 8 0, sstr := 1 :: 4 :: List.replicate 8 0
      dstr := 1 :: 8 :: List.replicate 8 0 }
    let c (uf nd pos : Nat) : EngineCmd := { cmd0 true uf with started := true, position := pos, desc := some (d nd) }
    let s (uf nd pos : Nat) : State := { runs (c uf nd pos) group0 with
      mem := [(0x140, 4), (0x408, 64), (0x504, 255), (0x505, 255), (0x506, 255), (0x507, 255)] ++ tables }
    let cell (uf nd pos : Nat) (use : PageUse) (base : Nat) (strides : List Int) (steer : Option Int) : Option Nat :=
      Spec.copyCell (s uf nd pos) group0 (c uf nd pos) use 0 none
        (Spec.elementAddress base ((d nd).ext.take ((d nd).nd + 1)) strides steer (pos / (d nd).size)) (d nd).size
    (d 1).ext.length = 10 ∧ (d 1).sstr.length = 10 ∧ (d 1).dstr.length = 10 ∧ (d 1).nd = 1 ∧ (d 0).nd = 0 ∧ (d 1).red = 0 ∧ (d 1).bit 16 = false ∧
      (d 1).size = 1 ∧ (d 1).bit 18 = false ∧ (d 1).ssp = 0 ∧ (d 1).dsp = 0 ∧ 5 + (d 1).size < (d 1).count * (d 1).size ∧
      cell 0x10 1 5 .load 0x100 (d 1).sstr none = some 0x105 ∧ cell 0x10 1 5 .store 0x800 (d 1).dstr none = some 0x809 ∧
      (s 0x10 1 5).uncorrectable 0x105 = false ∧ (s 0x10 1 5).uncorrectable 0x809 = false ∧ (s 0x10 1 5).group? 0 = some group0 ∧
      (s 0x11 1 5).wordAt 0x504 4 = 0xFFFFFFFF ∧ (s 0x11 1 9).wordAt 0x508 4 = 0 ∧
      Spec.copyCell (s 0x11 1 5) group0 (c 0x11 1 5) .load 0 none ((0x500 + 4 * 1) % 2 ^ 64) 4 = some 0x504 ∧
      cell 0x11 1 9 .load 0x100 (d 1).sstr (some 0) = some 0x101 := by decide +kernel
theorem wit_EnginesAndRendezvousEnd_samples : ({ State.reset with clk := 140 } : State).samples = true ∧
    ({ State.reset with clk := 139 } : State).samples = false ∧ 9000 < 2 ^ 14 - 1 := by decide

/-! Queues and packets -/

/-- Queue 1 of region 0 in a state, its control block at 0x20040, its ring at 0x8000 with these bytes, its read index at 0x7000 and
its signal words at 0x6000. -/
def queued (st : Byte) (ring : Memory) : State :=
  { waiting with
    clk := 1000, dies := [], bases := State.reset.bases.set 4 0x20000
    mem := ring ++ tables ++ [(0x20041, 0x80), (0x20048, 4), (0x20049, st), (0x20051, 0x70), (0x20059, 0x60), (0x20060, 3)] }
/-- The same with what the Understory holds of the queue. -/
def heldAs (h : QueueHold) (st : Byte) (ring : Memory) : State := { queued st ring with queues := [(1, h)] }
/-- The queue ACTIVE in lane 0 of an Understory context that serves it. -/
def laned (ring : Memory) : State := heldAs { QueueHold.initial with owner := some ((serversOf 1).headD 0) } 3 ring
/-- A DISPATCH of two groups, a malformed one, an adapter hint, and a WAIT of 100 ns for word 1 to read 7. -/
def dispatch : Memory := [(0x8000, 2), (0x8009, 0x10), (0x8020, 2)]
def malformed : Memory := [(0x8000, 2), (0x8009, 0x10)]
def hint : Memory := [(0x8000, 8), (0x8010, 1)]
def waitPacket : Memory := [(0x8000, 5), (0x8008, 1), (0x8010, 7), (0x8018, 100)]
theorem wit_QueuesChangeState :
    Spec.Controlled (queued 1 []) 1 ∧ (5 : W64).getLsbD 63 = false ∧ (queued 5 []).queueState 1 = 5 ∧
      answers ((queued 5 []).readIndex 1) = true ∧ Spec.Controlled ((queued 5 []).readIndex 1).2 1 ∧
      (queued 0 []).queueState 1 = 0 ∧ (queued 0 []).queueRoom ((queued 0 []).queueRegion 1) = true ∧
      answers (((queued 0 []).bumpQueues 0 true).readIndex 1) = true ∧
      Spec.Controlled (((queued 0 []).bumpQueues 0 true).readIndex 1).2 1 ∧ (queued 1 []).queueState 1 ≠ 0 ∧
      Spec.Controlled (queued 4 []) 1 ∧ (queued 4 []).queueState 1 = 4 ∧ (queued 4 []).stillBlocked 1 = false ∧
      (heldAs { QueueHold.initial with waitFrom := some 0, blocked := some (.words [0x6008] 0 7 100 false) } 4 waitPacket).waitOver 1 =
        true := by
  refine ⟨⟨by decide, plain _ _ _ ?_⟩, by decide, ?_, ?_, ⟨by decide, plain _ _ _ ?_⟩, ?_, ?_, ?_, ⟨by decide, plain _ _ _ ?_⟩, ?_,
    ⟨by decide, plain _ _ _ ?_⟩, ?_, ?_, ?_⟩ <;> decide +kernel
/-- Spec.Arrives as a test, of a queue that its context owns. -/
def arrives' (s : State) (q k : Nat) : Bool :=
  let idx := (s.hold q).held
  decide ((s.hold q).owner = some k) && !s.heldByDebugger q &&
    match s.headerAt q (s.ctx k).lts idx with
    | (.ok (h, lts), s₁) =>
      decide (s.headToServe q = some h) && (headerError (isCont q) h).isNone && !s₁.barHeld q h &&
        answers (s₁.ringRead (s₁.queueRegion q) lts (s₁.slotAddr q idx) 64)
    | _ => false
/-- The type of the head packet, whether its body is well formed, and what its action comes to: 0 done, with its consuming stores, 1
blocked, 2 an error, 3 done, without them. -/
def arrival (s : State) (q k : Nat) : Option (Nat × Bool × Nat) :=
  let idx := (s.hold q).held
  match s.headerAt q (s.ctx k).lts idx with
  | (.ok (h, lts), s₁) =>
    match s₁.ringRead (s₁.queueRegion q) lts (s₁.slotAddr q idx) 64 with
    | (.ok (w, lts), read) =>
      let what (n : Nat) : Option (Nat × Bool × Nat) := some (headerType h, bodyValid (headerType h) (toBytes 64 w), n)
      match read.packetAct q idx h 0 (toBytes 64 w) lts (some k) with
      | .done _ d => if ((d.consume q).consumingStores q idx).1.isSome then what 0 else what 3
      | .wait _ _ _ => what 1
      | .fail _ _ _ => what 2
    | _ => none
  | _ => none
/-- The words that a WAIT tests, read from its ring. -/
def tested (s : State) (q type : Nat) : Option (Bool × Bool) :=
  let idx := (s.hold q).held
  match s.ringRead (s.queueRegion q) 0 (s.slotAddr q idx) 64 with
  | (.ok (w, lts), read) =>
    match read.testedWords q lts (testedIndices type (toBytes 64 w)) with
    | (some vs, _, u) => some (passes type (toBytes 64 w) vs, (u.hold q).passed)
    | _ => none
  | _ => none
theorem wit_PacketsAreServed :
    let k := (serversOf 1).headD 0
    let c := contNumber 0 0
    let entry : ContQueue := { region := 0, number := 0, reserved := 0, waiting := 1 }
    let cont : State := { queued 0 [] with
      dies := [(0, { Die.initial with conts := [entry] })]
      queues := [(c, { QueueHold.initial with owner := some ((serversOf c).headD 0) })]
      mem := [(0x8000, 7), (0x8009, 0x20), (0x801C, 1)] ++ tables ++ [(0x420001, 0x80), (0x420008, 4), (0x420009, 3), (0x420020, 1)] }
    let lost : State := { laned hint with
      mem := (laned hint).mem.filter (·.1 < 0x20055) ++ (0x20055, 1) :: (laned hint).mem.filter (0x20055 < ·.1) }
    Spec.packetEvent (laned []) 1 (.evDispatch 1) = some (2, 0) ∧ Spec.packetEvent (laned []) 1 (.evCopyPacket 1 3) = some (3, 3) ∧
      arrives' (laned dispatch) 1 k = true ∧ arrival (laned dispatch) 1 k = some (2, true, 0) ∧
      arrives' (laned malformed) 1 k = true ∧ arrival (laned malformed) 1 k = some (2, false, 2) ∧
      arrives' (laned waitPacket) 1 k = true ∧ arrival (laned waitPacket) 1 k = some (5, true, 1) ∧
      tested (laned waitPacket) 1 5 = some (false, false) ∧
      tested { laned waitPacket with mem := (0x6008, 7) :: (laned waitPacket).mem } 1 5 = some (true, false) ∧
      arrives' (laned hint) 1 k = true ∧ arrival (laned hint) 1 k = some (8, true, 0) ∧
      Spec.packetEvent cont c (.evContinue 0) = some (7, 0) ∧ arrives' cont c ((serversOf c).headD 0) = true ∧
      arrival cont c ((serversOf c).headD 0) = some (7, true, 0) ∧
      arrives' lost 1 k = true ∧ arrival lost 1 k = some (8, true, 3) := by decide +kernel
theorem wit_PacketsAreServed_commands :
    let c : Command := { command0 with queue := 1, left := 0, unplaced := 0 }
    let s (sig : Nat) : State := { queued 2 [] with commands := [(0, { c with sigidx := sig })] }
    waiting.readyDies = [0] ∧ mapGet? (s 0).commands 0 = some c ∧ (s 0).commandDone 0 = true ∧ (s 0).traces = [] ∧
      (s 3).commandDone 0 = true ∧ (match (s 3).deviceWalk 0 .update ((s 3).signalAddr 1 3) with
        | .ok p => p.key = 0x6018 && plainTest (s 3) 0x6018 8
        | .error _ => false) = true := by decide +kernel

/-- An Understory context that serves queue 1, with one operation in its bundle. -/
def server1 : Nat := (serversOf 1).headD 0
def served (i : Instr) (h : QueueHold) (st : Byte) (ring : Memory) : State :=
  { heldAs h st ring with
    ctxs := [(server1, { ctx0 with group := none, uqsel := 1 })], turn := coreOf server1
    cores := [(coreOf server1, { core0 i with running := some server1 })] }
theorem wit_UnderstoryAccesses_queues :
    let claim := served (.uclaim { fC with aux := 0x201 }) QueueHold.initial 2 []
    let none' := served (.uclaim { fC with aux := 0x201 }) QueueHold.initial 1 []
    let mine : QueueHold := { QueueHold.initial with owner := some server1 }
    let ret := served (.uret { fC with aux := 0x202, opa := 45 }) mine 3 []
    let serve (ring : Memory) := served (.userve { fC with aux := 0x208 }) mine 3 ring
    let e := envOf claim
    (readyTest claim 8 false = true ∧ claim.supervisor e.k = true ∧ (claim.ctx e.k).accesses = [] ∧ 1024 ≤ coreOf e.k ∧ coreOf e.k = e.core ∧
      claim.pendingQueues (e.core - 1024) = [1] ∧ claim.freeLane e.k = some 0 ∧ plainTest claim (tierKey 0 (claim.qcbAddr 1)) 64 = true) ∧
    (readyTest none' 8 false = true ∧ none'.pendingQueues (e.core - 1024) = []) ∧
    (readyTest ret 8 false = true ∧ (scalarOperand ret (envOf ret) 8 0 45).toNat = 1 ∧ (ret.hold 1).owner = some (envOf ret).k ∧
      plainTest ret (tierKey 0 (ret.qcbAddr 1)) 64 = true ∧ (ret.hold 0).owner ≠ some (envOf ret).k) ∧
    (readyTest (serve []) 8 false = true ∧ ((serve []).ctx server1).uqsel.toNat = 1 ∧ (claim.hold 1).owner ≠ some server1 ∧
      ((serve []).hold 1).owner = some server1 ∧ (serve []).heldByDebugger 1 = false ∧ (serve []).readyDies = [0]) ∧
    (let x := serve
     (match (x []).headerAt 1 0 0 with | (.ok (h, _), _) => headerType h = 0 | _ => false) = true ∧
     (match (x dispatch).headerAt 1 0 0 with
      | (.ok (h, lts), v) => headerType h = 2 && headerError (isCont 1) h = none && !v.barHeld 1 h &&
          (match v.ringRead (v.queueRegion 1) lts (v.slotAddr 1 0) 64 with
            | (.ok (w, _), y) => bodyValid 2 (toBytes 64 w) && decide (y.readyDies = [0])
            | _ => false)
      | _ => false) = true) := by decide +kernel

/-! Debug services, tables, links, the responder -/

/-- A debug service of region 0 with samples each microsecond and an image at 0x1000000. -/
def service0 : TraceService :=
  { base := 0x9000, ring := 0, rlogn := 0, mode := 1, types := 0x200, sper := 1, wra := 0, rda := 0, ovfa := 0, logb := 0, llogn := 0
    logwr := 0, bp := [], img := 0x1000000, debugger := 0, logCount := 0, logFull := false, done := [], ordinals := [], lastSample := 0 }
/-- Region 0 open to its debugger, with a context in a phase of its life. -/
def debugged (p : CtxPhase) : State :=
  { resident { ctx0 with phase := p } group0 with
    clk := 1000, regions := [(0, { region0 with flags := 0xF, dbgrgn := 0, hbmf := 4 })], traces := [(0, service0)]
    bases := State.reset.bases.set 4 0x20000
    mem := tables ++ [(0x20049, 2), (0x1000000, 0x49), (0x1000001, 0x54), (0x1000002, 0x58), (0x1000003, 0x43), (0x1000004, 1)] }
theorem wit_DebugServices :
    let s := debugged .halted
    s.debuggable 0 = true ∧ (0x9000 : W64).toNat % 64 = 0 ∧
      ((s.deviceLines (s.region 0).dbgrgn 4 0x9000).1.map traceBlockValid) = some true ∧
      s.commandTaken 0 2 = true ∧ cmdAll 2 = false ∧ s.target 0 (cmdCtx 2) = some 0 ∧
      ((s.ctx 0).drain = .none ∧ (s.ctx 0).overrun = none ∧
        (let o : State := resident { ctx0 with overrun := some 0 } group0
         (o.ctx 0).overrun.isSome = true)) ∧
      (s.ctx 0).phase = .halted ∧ s.engine = [] ∧ s.heldOps = [] ∧ (debugged .running).target 0 0 = some 0 ∧
      (debugged .blocked).target 0 0 = some 0 ∧ (debugged .done).target 0 0 = some 0 ∧
      s.imageTarget 0 3 = some 0 ∧ mapGet? s.traces 0 = some service0 ∧ (s.ctx 0).accesses = [] ∧
      s.commandTaken 0 0x20005 = true ∧ cmdQueue 0x20005 = 1 ∧ s.queueRegion 1 = 0 ∧ Spec.Controlled s 1 ∧
      s.sampleDue 0 = true ∧ ({ s with clk := 3 } : State).sampleDue 0 = false := by
  refine ⟨?_, ?_, ?_, ?_, ?_, ?_, ?_, ?_, ?_, ?_, ?_, ?_, ?_, ?_, ?_, ?_, ?_, ?_, ?_, ⟨by decide, plain _ _ _ ?_⟩, ?_, ?_⟩ <;>
    decide +kernel
theorem wit_DebugServices_halts :
    let s : State := { debugged .running with debugWork := [(0, { halting := [0], waiting := [] })] }
    (debugged .running).commandTaken 0 0 = true ∧ cmdAll 0 = false ∧ mapGet? (debugged .running).debugWork 0 = none ∧
      s.commandTaken 0 0 = true ∧ mapGet? s.debugWork 0 = some { halting := [0], waiting := [] } ∧ [0].any s.haltUnderWay = false ∧
      (let h : State := s.updCtx 0 fun c => { c with drain := .halt 1 }
       [0].any h.haltUnderWay = true) ∧
      (debugged .running).queueState 1 ≠ 0 ∧ (debugged .running).queueState 1 ≠ 5 ∧ (debugged .running).queueState 2 = 0 ∧
      (debugged .halted).partials = [] := by decide +kernel
/-- The lines of an image can be read (the first eight; the others lie in the same page), and some images are valid. -/
theorem wit_DebugServices_image :
    (((debugged .halted).deviceLines 0 8 0x1000000).1.map fun bs => bs.take 6) = some [0x49, 0x54, 0x58, 0x43, 1, 0] ∧
      imageValid ([0x49, 0x54, 0x58, 0x43, 1] ++ List.replicate 0x4000 0) = true ∧ imageValid (List.replicate 0x4000 0) = false := by
  decide +kernel
theorem wit_DebugServices_held :
    let h : HeldOp := { region := 0, fqRegion := 2, index := 5, cmd := cmd0 true 0x10, order := 0 }
    let s : State := { resident ctx0 group0 with heldOps := [h] }
    let away : State := { s with groups := [(0, { group0 with cluster := none })] }
    (Instr.evFaultResume 2 5, 1) ∈ [(Instr.evFaultResume 2 5, 1), (Instr.evFaultCancel 2 5, 2), (Instr.evFaultRelease 2 5, 3)] ∧
      (s.heldOps.find? fun h => h.fqRegion = 2 && h.index % 2 ^ 32 = 5 % 2 ^ 32 && h.order = 0) = some h ∧ s.heldAway h = false ∧
      away.heldAway h = true ∧ h.cmd.copy = true ∧ (cmd0 false 9).copy = false := by decide
theorem wit_TablesAndRegisters :
    let w (table first n : Nat) : W64 := BitVec.ofNat 64 (table + 2 ^ 4 * first + 2 ^ 28 * (n - 1))
    let s (w : W64) : State := { debugged .halted with
      tblQueue := [w], bases := ((State.reset.bases.set 1 0x40000).set 2 0x80000)
      mem := tables ++ [(0x7FFC0, 1)] }
    let frame : State := { debugged .halted with
      tblQueue := [w 4 488281 1], bases := State.reset.bases.set 2 0x100000, mem := tables ++ [(0x100000 + 4 * 488281 + 2, 1)] }
    ((s (w 2 4095 2)).tblQueue = [w 2 4095 2] ∧ tableHolds (tblTable (w 2 4095 2)) (tblFirst (w 2 4095 2) + tblLength (w 2 4095 2)) = false) ∧
    (tblTable (w 2 4095 1) = 2 ∧ tblFirst (w 2 4095 1) = 4095 ∧ tblLength (w 2 4095 1) = 1 ∧ (w 2 4095 1).toNat / 2 ^ 48 = 0 ∧
      tableHolds 2 4096 = true ∧
      plainTest (s (w 2 4095 1)) (tierKey 0 ((s 0).entryAddr 2 4095)) 64 = true ∧
      (s (w 2 4095 1)).uncorrectable (tierKey 0 ((s 0).entryAddr 2 4095 + 63)) = false ∧
      residencyRange ((s (w 2 4095 1)).bytesAt (tierKey 0 ((s 0).entryAddr 2 4095)) 64) = true ∧
      ((residencyOf ((s (w 2 4095 1)).bytesAt (tierKey 0 ((s 0).entryAddr 2 4095)) 64) []).pinned) = false) ∧
    (tblTable (w 4 488281 1) = 4 ∧ tblFirst (w 4 488281 1) = 488281 ∧ tblLength (w 4 488281 1) = 1 ∧
      plainTest frame (tierKey 0 (frame.entryAddr 4 488281)) 4 = true ∧
      frame.uncorrectable (tierKey 0 (frame.entryAddr 4 488281 + 3)) = false ∧
      frame.bytesAt (tierKey 0 (frame.entryAddr 4 488281)) 4 = toBytes 4 (2 ^ 16 + 0) ∧ frame.frameOwner 488281 = none ∧
      frame.path 0 = [0] ∧ (frame.region 0).hused < (frame.eff 2 0).hbmf) ∧
    (State.reset.mailbox.length = 128 ∧ 0x78 % 8 = 0 ∧ (List.replicate 8 (1 : Byte)).length = 8 ∧
      ({ State.reset with mailbox := State.reset.mailbox.set 0x40 31 } : State).mailbox.getD 0x40 0 = 31) ∧
    readyUnit 0 56 = true ∧ State.reset.unitPresent 0 56 = true ∧ readyUnit 4 63 = true ∧
      (State.reset.tested[4]?.getD 0).getLsbD 63 = false ∧
      (({ State.reset with tested := State.reset.tested.set 0 (1 <<< 56) } : State).tested[0]?.getD 0).getLsbD 56 = true ∧ State.reset.bootStatus.toNat = 0 ∧ State.reset.bases[0] = 0 := by
  decide +kernel
/-- A machine whose units have passed their tests, with one pool region behind a port, one inbound window and one route of 1 GiB. -/
def linked (up : BitVec 8) (st : PoolState) : State :=
  { State.reset with
    ready := State.reset.ready.set 0 units, rootUp := up, bases := State.reset.bases.set 3 0x50000, cxlCache := true, devid := 5
    pool := [(3, { pridx := 3, state := st, port := 7, owner := 0, target := 0, discarded := 0, locked := 0 })]
    inbound := [(0, (0x1, 0x7))], routes := [(0, (0x40000001, 0x2000009))] }
/-- A flit of device 7 for device 5, with a check code that holds. -/
def flit0 (m : RideMessage) : RideFlit :=
  let f : RideFlit := { port := 11, header := 0x1C00005, message := m, check := 0 }
  { f with check := flitCheck f }
theorem wit_PoolAndLinks :
    let s := linked 0xFF .active
    (7 < 8 ∧ s.rootUp.getLsbD 7 = true ∧ (s.pool.map Prod.fst).Nodup ∧ s.ctxs = [] ∧ (linked 0x7F .faulted).rootUp.getLsbD 7 = false ∧
      (linked 0x7F .faulted).readyBit 0 33 = true ∧ (mapGet? s.pool 3).isSome = true ∧
      (mapGet? (linked 0xFF .lost).pool 3).map PoolEntry.state = some .lost) ∧
    Spec.Plain s (tierKey 0 (s.poolAddr 3)) 32 ∧
    (s.hostUp = true ∧ s.hostLive = true ∧ s.cxlCache = true ∧ s.ideAccepts none 1 = true ∧ s.ideAccepts none 0 = true ∧ 0x38 % 64 + 8 ≤ 64) ∧
    Spec.Plain s (tierKey 0 0x38) 8 ∧
    (11 < 28 ∧ (State.reset.rails[27]?.getD 0).getLsbD 4 = true ∧ State.reset.rails[27]? = some 0x1F ∧ s.rideLive 11 = true ∧
      State.reset.rideLive 11 = false ∧ s.inboundAddr 7 0x40 = some 0x40 ∧ s.inboundAddr 7 (2 ^ 30) = none) ∧
    Spec.Plain s (tierKey 0 0x40) 8 := by
  refine ⟨?_, plain _ _ _ ?_, ?_, plain _ _ _ ?_, ?_, plain _ _ _ ?_⟩ <;> decide +kernel
theorem wit_PoolAndLinks_flits (m : RideMessage) :
    Spec.Taken (linked 0xFF .active) (flit0 m) ∧ Spec.headerField (flit0 m) 43 22 = 7 ∧
      (let bad : RideFlit := { flit0 m with check := ~~~ (flit0 m).check }
       bad.check ≠ flitCheck bad) ∧
      Spec.headerField { flit0 m with header := 0x1000001C00005 } 55 48 = 1 ∧ Spec.headerField { flit0 m with header := 0x1C00006 } 21 0 = 6 := by
  refine ⟨⟨show 11 < 12 by decide, ?_, rfl, ?_, ?_⟩, ?_, fun h => ?_, ?_, ?_⟩
  · show (linked 0xFF .active).rideLive 11 = true
    decide +kernel
  · show bitsOf (0x1C00005 : W64).toNat 55 48 =
      (mapGet (linked 0xFF .active).rideSeen 0 (16 * 11 + bitsOf (0x1C00005 : W64).toNat 47 44)).toNat
    decide +kernel
  · show bitsOf (0x1C00005 : W64).toNat 21 0 = (linked 0xFF .active).devid.toNat
    decide
  · show bitsOf (0x1C00005 : W64).toNat 43 22 = _
    decide
  · have h' : ~~~ (flit0 m).check = (flit0 m).check := h
    have := congrArg (·.getLsbD 0) h'
    simp at this
  · show bitsOf (0x1000001C00005 : W64).toNat 55 48 = _
    decide
  · show bitsOf (0x1C00006 : W64).toNat 21 0 = _
    decide
/-- Some address of a route lies outside the aperture, wherever that is. -/
theorem wit_PoolAndLinks_routes :
    ∃ addr, ((linked 0xFF .active).routeOf addr).isSome = true ∧
      (((linked 0xFF .active).routeOf addr).bind fun r => (linked 0xFF .active).routePort r.2.2.toNat) = some 3 ∧
      (apertureOf (tierKey 3 addr)).isNone = true ∧ addr < 2 ^ 80 := by
  have h (n : Nat) (hp : planeOf (tierKey 3 n) = 3) (h : planeAddr (tierKey 3 n) / 2 ^ 21 ≠ Config.bar2Page) :
      (apertureOf (tierKey 3 n)).isNone = true := by rw [apertureOf, decide_eq_false h, Bool.and_false]; rfl
  by_cases z : Config.bar2Page = 512
  · exact ⟨0x40200000, by decide +kernel, by decide +kernel, h _ (by decide) (by rw [z]; decide), by decide⟩
  · exact ⟨0x40000000, by decide +kernel, by decide +kernel, h _ (by decide) (by
      have e : planeAddr (tierKey 3 0x40000000) / 2 ^ 21 = 512 := by decide
      rw [e]; exact fun a => z a.symm), by decide⟩
/-- A request of a session, or in the open where it has none, under the keys that the session has. -/
def request (s : State) (session : Nat) (code p1 p2 : Byte) (body : List Byte) : SpdmRequest :=
  { session := session, param1 := p1, param2 := p2, body := body
    guarded := match s.spdm.session session with
      | some x => spdmGuard x.id x.requestSecret x.requests (spdmMessage code p1 p2 body)
      | none => [] }
theorem wit_SpdmResponder :
    let at' (v c a : Bool) : State := { State.reset with spdm := { State.reset.spdm with version := v, capabilities := c, algorithms := a } }
    let lost : State := { State.reset with spdm := { State.reset.spdm with resynch := true } }
    let dead : State := { State.reset with tested := State.reset.tested.set 0 (1 <<< 54) }
    State.reset.responds = true ∧ (at' true true true).responds = true ∧ (at' true true true).spdm.resynch = false ∧ dead.responds = false ∧ lost.responds = true ∧ lost.spdm.resynch = true ∧
      State.reset.spdm.version = false ∧ (at' true false false).spdm.capabilities = false ∧ (at' true true false).spdm.algorithms = false ∧
      (at' true true true).spdm.algorithms = true ∧ (List.replicate 16 (0 : Byte)).length = 16 ∧
      fieldAt ([32, 0] ++ List.replicate 26 (0 : Byte)) 0 2 = 28 + 4 ∧ (List.replicate 134 (0 : Byte)).length = 134 ∧
      (0x10 : Byte).toNat % 16 = 0 ∧ (33 : Byte).toNat < 255 ∧ (0 : Byte).getLsbD 0 = false := by decide
theorem wit_SpdmResponder_certificate : fieldAt [0, 0, 1, 0] 0 2 < certificateChain.length := by
  have h : fieldAt [0, 0, 1, 0] 0 2 = 0 := by decide
  rw [h]
  simp [certificateChain, toBytes]
theorem wit_SpdmResponder_sessions :
    let x (finished : Bool) : SpdmSession :=
      { id := 9, finished := finished, transcript := [], secret := [], requestSecret := [], responseSecret := [], requests := 0, responses := 0 }
    let s (finished : Bool) : State := { State.reset with spdm := { State.reset.spdm with algorithms := true, sessions := [x finished] } }
    let p (object : Byte) : List Byte := [0, object] ++ List.replicate 46 0
    Spec.Responsive (s true) ∧ Spec.InSession (s false) (request (s false) 9 0xE5 0 0 []) 0xE5 (x false) ∧
      Spec.InSession (s true) (request (s true) 9 0xEC 0 0 []) 0xEC (x true) ∧
      (∀ object, Spec.InSession (s true) (request (s true) 9 0xFE 0 0 ([3, 0, 2, 1, 0, 48, 0] ++ p object)) 0xFE (x true)) ∧
      ([3, 0, 2, 1, 0, 48, 0] ++ p 2).take 5 = [3, 0, 2, 1, 0] ∧ ([3, 0, 2, 1, 0, 48, 0] ++ p 2).drop 7 = p 2 ∧ fieldAt (p 2) 0 1 = 0 ∧
      fieldAt (p 2) 1 1 = 2 ∧ fieldAt (p 4) 1 1 = 4 ∧ fieldAt (p 5) 1 1 = 5 ∧ (s true).keyStatus (p 2) = 0 :=
  ⟨⟨by decide, by decide⟩, ⟨rfl, rfl⟩, ⟨rfl, rfl⟩, fun _ => ⟨rfl, rfl⟩, by decide⟩

end Sys2Proof.Tests
end

section
/-! SUPPORT. The CSR reads of a bundle in the state in which its effects start, and what a CSR access puts in flight (R250). -/

namespace Sys2Proof.Machine

/-! ## Reads of CSRs are those of before the bundle -/

/-- A performance counter reads as it stood at the start of the cycle (R411). -/
theorem State.csrRead_pmc (s : State) (k : Nat) {n : Nat} (h : 0x080 ≤ n ∧ n ≤ 0x08F) :
    s.csrRead k n = (s.ctx k).pmcBefore[n - 0x080]?.getD 0 := by
  unfold State.csrRead
  simp only [Bool.and_eq_true, decide_eq_true_eq]
  rw [if_neg (by omega), if_neg (by omega), if_neg (by omega), if_pos h]

theorem Ctx.csrWrite_pmcBefore (c : Ctx) (n : Nat) (x : W64) : (c.csrWrite n x).pmcBefore = c.pmcBefore := by
  unfold Ctx.csrWrite
  split
  · rfl
  · split
    · rfl
    · split
      · rfl
      · split
        · rfl
        · split <;> rfl

namespace SameReads
variable {s t : State} {k : Nat}

theorem readCsr_pmc (h : SameReads s t k) (c tag : Nat) {n : Nat} (hn : 0x080 ≤ n ∧ n ≤ 0x08F) :
    t.readCsr k c tag n = s.readCsr k c tag n := by
  obtain ⟨e, pmc, hc⟩ := h.ctx
  unfold State.readCsr
  simp only [h.pickOf, State.csrRead_pmc _ _ hn, State.ctx_updCtx_same, Ctx.csrWrite_pmcBefore, h.statusSoon, hc, Ctx.issued]

/-- Every CSR, a performance counter too, reads the same. -/
theorem readCsr_all (h : SameReads s t k) (c tag n : Nat) : t.readCsr k c tag n = s.readCsr k c tag n := by
  by_cases hn : 0x080 ≤ n ∧ n ≤ 0x08F
  · exact h.readCsr_pmc c tag hn
  · exact h.readCsr c tag n (by omega)

theorem bases (h : SameReads s t k) : t.bases = s.bases := by rw [h.rest]
theorem hold (h : SameReads s t k) (q : Nat) : t.hold q = s.hold q := by rw [h.rest]; rfl

theorem qcb (h : SameReads s t k) (q off n : Nat) : t.qcb q off n = s.qcb q off n := by
  unfold State.qcb State.tableWord State.qcbAddr
  rw [h.wordAt, h.bases]

theorem headAddress (h : SameReads s t k) (j q : Nat) : t.headAddress j q = s.headAddress j q := by
  unfold State.headAddress State.slotAddr
  simp only [h.hold, h.qcb]

theorem csrValue {e : Env} (h : SameReads s t e.k) (n : Nat) : Machine.csrValue n e t = Machine.csrValue n e s := by
  unfold Machine.csrValue
  simp only [h.readCsr_all, h.bases, h.hold, h.qcb, h.headAddress]

end SameReads

/-! ## The effect of a CSR access that is no deed of its own -/

/-- A bundle of one operation has begun where its effects start. -/
theorem startIssue_begun (s : State) (e : Env) (o : SlotOp) : Spec.Begun s (startIssue e s [o]) e o.slot o.occ :=
  ⟨startIssue_only e s [o], startIssue_ctx e s [o], startIssue_core e s o⟩

/-- A write of a CSR that is no deed of its own is a result in flight, which takes effect at t + 3. -/
theorem csrStore_eq {n : Nat} (h2 : n ≠ 0x202) (h3 : n ≠ 0x203) (h8 : n ≠ 0x208) (x : W64) (e : Env) (s : State) :
    csrStore n x e s = putC (e.t + 3) (.csr n x) e s := by
  unfold csrStore
  split
  case h_4 => rfl
  all_goals contradiction

/-- The results of a csrr: the old value goes to DST unless WS = 1. -/
theorem csrOp_effect_read (uf : Nat) (f : FieldC) (e : Env) (s : State) (h1 : f.aux.toNat % 4096 ≠ 0x201) :
    (csrOp uf none f).effect e s =
      Spec.inFlight s e 8 (if f.ws then [] else [(e.t + 3, .scalar f.dst.toNat (csrValue (f.aux.toNat % 4096) e s))]) := by
  simp only [csrOp, csrOld, if_neg h1]
  cases f.ws <;> rfl

/-- The results of a csrw, csrs or csrc: those of a csrr, and then the new value. -/
theorem csrOp_effect_write (uf : Nat) (g : W64 → W64 → W64) (f : FieldC) (e : Env) (s : State)
    (h1 : f.aux.toNat % 4096 ≠ 0x201) (h2 : f.aux.toNat % 4096 ≠ 0x202) (h3 : f.aux.toNat % 4096 ≠ 0x203)
    (h8 : f.aux.toNat % 4096 ≠ 0x208) :
    (csrOp uf (some g) f).effect e s =
      Spec.inFlight s e 8
        ((if f.ws then [] else [(e.t + 3, .scalar f.dst.toNat (csrValue (f.aux.toNat % 4096) e s))])
          ++ [(e.t + 3, .csr (f.aux.toNat % 4096) (g (csrValue (f.aux.toNat % 4096) e s) (opaC f e s)))]) := by
  simp only [csrOp, csrOld, if_neg h1, csrStore_eq h2 h3 h8]
  cases f.ws <;> rfl

/-- A CSR access other than one of ULAUNCH passes the issue stage where its privilege suffices: a CSR from 0x100 on asks for
supervisor state (R87). -/
theorem csrOp_passes (uf : Nat) (new : Option (W64 → W64 → W64)) {f : FieldC} {e : Env} {s : State}
    (h3 : f.aux.toNat % 4096 ≠ 0x203) (hp : f.aux.toNat % 4096 < 0x100 ∨ s.supervisor e.k = true) :
    Passes (csrOp uf new f) e s where
  privilege h := hp.resolve_left (Nat.not_lt.mpr (of_decide_eq_true h))
  check := rfl
  block := rfl
  hold := rfl
  trap := by
    cases new with
    | none => rfl
    | some g => exact if_neg h3
  overrun := .inr rfl
  meet h := absurd (show 8 = 9 from h) (by decide)

/-- Each of the four instructions issues one CSR access. -/
theorem exec_csrAccess {i : Instr} {f : FieldC} {new : Option (W64 → W64 → W64)} (h : Spec.csrAccess i = some (f, new)) :
    ∃ uf, ∀ s, exec i s = .next (issueOps [csrOp uf new f] s) := by
  unfold Spec.csrAccess at h
  split at h
  case h_1 => cases h; exact ⟨0x20, fun _ => rfl⟩
  case h_2 => cases h; exact ⟨0x21, fun _ => rfl⟩
  case h_3 => cases h; exact ⟨0x22, fun _ => rfl⟩
  case h_4 => cases h; exact ⟨0x23, fun _ => rfl⟩
  case h_5 => cases h

/-- Settles O30: the access passes the issue stage, its reads are those of before the bundle, and its whole effect is what it puts
in flight. -/
theorem csrAccesses : Obligations.CsrAccesses := by
  unfold Obligations.CsrAccesses
  intro i f new hi s e hr a n h1 h2 h3 h8 hp
  obtain ⟨uf, hexec⟩ := exec_csrAccess hi
  have hreads := startIssue_sameReads e s [csrOp uf new f]
  have hopa : opaC f e (startIssue e s [csrOp uf new f]) = a := hreads.scalarOperand 8 0 f.opa
  refine ⟨startIssue e s [csrOp uf new f], startIssue_begun s e (csrOp uf new f), hreads.csrValue n, ?_⟩
  rw [hexec, issueOps_passes (o := csrOp uf new f) hr (csrOp_passes uf new h3 hp), ← hopa]
  congr 1
  cases new with
  | none => rw [List.append_nil]; exact csrOp_effect_read uf f e _ h1
  | some g => exact csrOp_effect_write uf g f e _ h1 h2 h3 h8

end Sys2Proof.Machine
end

section
/-! SUPPORT. What the device's reads of dictionary pages and of code leave of the cores, what the refill engine installs in a decode
table, and what a fill puts in the instruction cache (R72, R81, R82, R232). -/

namespace Sys2Proof.Machine

/-! ## A read of a line changes no core -/

/-- A fold of steps that each keep the cores keeps them. -/
theorem foldl_cores {α : Type} (step : State → α → State) (h : ∀ s a, (step s a).cores = s.cores) (l : List α) (s : State) :
    (l.foldl step s).cores = s.cores := by
  induction l generalizing s with
  | nil => rfl
  | cons a l ih => exact (ih _).trans (h s a)

theorem State.core_of_cores {s t : State} (h : t.cores = s.cores) (n : Nat) : t.core n = s.core n := by
  unfold State.core
  rw [h]

@[simp] theorem State.pokeByte_cores (s : State) (key : Nat) (b : Byte) : (s.pokeByte key b).cores = s.cores := by
  unfold State.pokeByte
  split
  · rfl
  · split <;> rfl

@[simp] theorem State.pokeBytes_cores (bs : List Byte) (s : State) (key : Nat) : (s.pokeBytes key bs).cores = s.cores := by
  induction bs generalizing s key with
  | nil => rfl
  | cons b bs ih => exact (ih _ _).trans (s.pokeByte_cores key b)

@[simp] theorem State.dirty_cores (s : State) (line : Nat) : (s.dirty line).cores = s.cores := by
  unfold State.dirty
  split <;> rfl

@[simp] theorem State.noteStored_cores (s : State) (key : Nat) (bs : List Byte) : (s.noteStored key bs).cores = s.cores := by
  unfold State.noteStored
  split <;> rfl

@[simp] theorem State.readWatches_cores (s : State) (k line : Nat) : (s.readWatches k line).cores = s.cores := by
  unfold State.readWatches
  simp only
  split <;> rfl

@[simp] theorem State.readQueueWatches_cores (s : State) (line : Nat) : (s.readQueueWatches line).cores = s.cores := by
  unfold State.readQueueWatches
  simp only
  split <;> rfl

@[simp] theorem State.noteWrite_cores (s : State) (key : Nat) : (s.noteWrite key).cores = s.cores := by
  unfold State.noteWrite
  rw [State.readQueueWatches_cores]
  refine (foldl_cores _ ?_ _ _).trans (foldl_cores _ ?_ _ _)
  · exact fun s c => s.readWatches_cores c.1 (lineOf key)
  · exact fun s k => s.updCtx_cores k _

@[simp] theorem State.storeRaw_cores (s : State) (key : Nat) (bytes : List Byte) : (s.storeRaw key bytes).cores = s.cores := by
  unfold State.storeRaw
  split
  · split <;> rfl
  · split
    · rfl
    · rw [State.noteWrite_cores]
      split <;> simp only [State.noteStored_cores, State.pokeBytes_cores, State.dirty_cores]

@[simp] theorem State.mergeLine_cores (s : State) (line : Nat) : (s.mergeLine line).cores = s.cores := by
  unfold State.mergeLine
  split
  · rfl
  · exact foldl_cores _ (fun s _ => s.storeRaw_cores _ _) _ _

/-- A line that is read leaves the machine as the merge of its partials does (R309). -/
theorem State.lineRead_ok {s t : State} {region va : Nat} {use : PageUse} {bs : List Byte}
    (h : s.lineRead region use va = (.ok bs, t)) : ∃ line, t = s.mergeLine line := by
  unfold State.lineRead at h
  split at h
  · cases h
  · simp only at h
    split at h <;> cases h
    exact ⟨_, rfl⟩

theorem State.lineRead_core {s t : State} {region va : Nat} {use : PageUse} {bs : List Byte}
    (h : s.lineRead region use va = (.ok bs, t)) (n : Nat) : t.core n = s.core n := by
  obtain ⟨line, rfl⟩ := State.lineRead_ok h
  exact State.core_of_cores (s.mergeLine_cores line) n

/-! ## Decode-table pages (R78, R81, R82) -/

@[simp] theorem State.event_mem (s : State) (k evt n : Nat) : (s.event k evt n).mem = s.mem := by
  rcases s.event_eq k evt n with h | h
  · rw [h]
  · rw [h, State.updCtx_mem]

theorem tabulate_getElem? {α : Type} (f : Nat → α) (n lo i : Nat) (h : i < n) : (tabulate f n lo)[i]? = some (f (lo + i)) := by
  induction n generalizing lo i with
  | zero => omega
  | succ n ih =>
    cases i with
    | zero => rfl
    | succ i => rw [tabulate, List.getElem?_cons_succ, ih (lo + 1) i (by omega), Nat.add_assoc, Nat.add_comm 1]

/-- Room is made for a page by nothing else than leaving pages of the core out. -/
theorem State.makeRoom_eq (s : State) (core cls : Nat) :
    ∃ keep : DecodePage → Bool, s.makeRoom core cls = s ∨
      s.makeRoom core cls = s.updCore core fun c => { c with pages := c.pages.filter keep } := by
  unfold State.makeRoom
  simp only
  split
  · exact ⟨fun _ => true, .inl rfl⟩
  · split
    · exact ⟨fun _ => true, .inl rfl⟩
    · exact ⟨_, .inr rfl⟩

@[simp] theorem State.makeRoom_mem (s : State) (core cls : Nat) : (s.makeRoom core cls).mem = s.mem := by
  obtain ⟨keep, h | h⟩ := s.makeRoom_eq core cls <;> rw [h]
  rfl

@[simp] theorem State.ctx_makeRoom (s : State) (core cls k : Nat) : (s.makeRoom core cls).ctx k = s.ctx k := by
  obtain ⟨keep, h | h⟩ := s.makeRoom_eq core cls <;> rw [h]
  rfl

theorem State.makeRoom_pages_subset (s : State) (core cls : Nat) :
    ((s.makeRoom core cls).core core).pages ⊆ (s.core core).pages := by
  obtain ⟨keep, h | h⟩ := s.makeRoom_eq core cls <;> rw [h]
  · exact List.Subset.refl _
  · rw [State.core_updCore_same]
    exact fun p hp => (List.mem_filter.mp hp).1

/-- A page as the refill engine installs it from its bytes (R81, R82). -/
def installedPage (core handle cls page : Nat) (d : DictHandle) (bs : List Byte) (used : Nat) : DecodePage :=
  { cls := cls, handle := handle, page := page, entries := tabulate (Spec.filtered core d cls bs) 16 0, dropped := false
    used := used }

/-- A core with a page from its bytes joined to those of its decode tables. -/
def Core.withPage (c : Core) (core handle cls page : Nat) (d : DictHandle) (bs : List Byte) : Core :=
  { c with uses := c.uses + 1, pages := c.pages ++ [installedPage core handle cls page d bs c.uses] }

/-- A page whose two lines are read joins the decode table, once there is room. -/
theorem State.installPage_eq {s s₁ s₂ : State} {core region h cls page : Nat} {d : DictHandle} {lo hi : List Byte}
    (hd : (s.core core).handles[h]? = some (some d))
    (hlo : s.lineRead region .load (d.object + d.arrays.getD cls 0 + 128 * page) = (.ok lo, s₁))
    (hhi : s₁.lineRead region .load (d.object + d.arrays.getD cls 0 + 128 * page + 64) = (.ok hi, s₂)) :
    s.installPage core region h cls page =
      (none, (s₂.makeRoom core cls).updCore core fun c => c.withPage core h cls page d (lo ++ hi)) := by
  unfold State.installPage
  simp only [hd, Option.bind_some, id_eq, hlo, hhi]
  rfl

/-- The entry of a page that joins a table in which no page has its name is that of its bytes. -/
theorem Core.withPage_find? (c : Core) {core h cls page : Nat} (d : DictHandle) (bs : List Byte)
    (hn : ∀ p ∈ c.pages, (p.cls = cls && p.handle = h && p.page = page) = false) :
    (c.withPage core h cls page d bs).pages.find? (fun p => p.cls = cls && p.handle = h && p.page = page) =
      some (installedPage core h cls page d bs c.uses) := by
  have hold : c.pages.find? (fun p => p.cls = cls && p.handle = h && p.page = page) = none :=
    List.find?_eq_none.mpr fun p hp => by rw [hn p hp]; exact Bool.false_ne_true
  unfold Core.withPage
  simp [hold, installedPage]

theorem State.tableEntry_withPage {s : State} {core h cls page i : Nat} {c : Core} {d : DictHandle} {bs : List Byte}
    (hc : (s.core core).pages = (c.withPage core h cls page d bs).pages) (hi : i < 16)
    (hn : ∀ p ∈ c.pages, (p.cls = cls && p.handle = h && p.page = page) = false) :
    s.tableEntry core h cls (16 * page + i) = some (Spec.filtered core d cls bs i) := by
  unfold State.tableEntry
  rw [hc, show (16 * page + i) / 16 = page by omega, show (16 * page + i) % 16 = i by omega, c.withPage_find? d bs hn,
    Option.bind_some, installedPage, tabulate_getElem? _ _ _ _ hi, Nat.zero_add]

theorem State.pageResident_eq_false_iff {s : State} {core h cls page : Nat} :
    s.pageResident core h cls page = false ↔
      ∀ p ∈ (s.core core).pages, (p.cls = cls && p.handle = h && p.page = page) = false := by
  unfold State.pageResident
  simp only [List.any_eq_false, Bool.not_eq_true]

/-- The refill engine installs the page that stands first of those the frozen bundle misses (R81). -/
theorem dictionaryRefill_eq {s u : State} {core k cls page : Nat} {rest : List (Nat × Nat)} (hk : (s.core core).running = some k)
    (hf : (s.core core).freeze = some (.refill ((cls, page) :: rest)))
    (hu : s.installPage core (s.regionOf k) (s.ctx k).dictHandle cls page = (none, u)) :
    dictionaryRefill core s = (u.updCore core fun c => { c with freeze := some (.refill rest) }).event k 0x12 1 := by
  unfold dictionaryRefill
  simp only [hf, hk, hu]

/-- DICTIONARY_REFILL of a page that is not resident (R81, R82): as the two reads change no core, and room is made by leaving pages
out, no other page of its name stands before it in the table. -/
theorem dictionaryRefill_serves {s s₁ s₂ : State} {core k cls page : Nat} {rest : List (Nat × Nat)} {d : DictHandle}
    {lo hi : List Byte} (hk : (s.core core).running = some k) (hf : (s.core core).freeze = some (.refill ((cls, page) :: rest)))
    (hd : (s.core core).handles[(s.ctx k).dictHandle]? = some (some d))
    (hr : s.pageResident core (s.ctx k).dictHandle cls page = false)
    (hlo : s.lineRead (s.regionOf k) .load (d.object + d.arrays.getD cls 0 + 128 * page) = (.ok lo, s₁))
    (hhi : s₁.lineRead (s.regionOf k) .load (d.object + d.arrays.getD cls 0 + 128 * page + 64) = (.ok hi, s₂)) :
    (dictionaryRefill core s).mem = s₂.mem ∧ ((dictionaryRefill core s).core core).freeze = some (.refill rest) ∧
      (∀ i, i < 16 → (dictionaryRefill core s).tableEntry core (s.ctx k).dictHandle cls (16 * page + i) =
        some (Spec.filtered core d cls (lo ++ hi) i)) ∧
      ∀ j, j ≠ k → (dictionaryRefill core s).ctx j = s₂.ctx j := by
  have hcore : s₂.core core = s.core core := (State.lineRead_core hhi core).trans (State.lineRead_core hlo core)
  have habsent : ∀ p ∈ ((s₂.makeRoom core cls).core core).pages,
      (p.cls = cls && p.handle = (s.ctx k).dictHandle && p.page = page) = false := fun p hp =>
    State.pageResident_eq_false_iff.mp hr p (hcore ▸ s₂.makeRoom_pages_subset core cls hp)
  rw [dictionaryRefill_eq hk hf (State.installPage_eq hd hlo hhi)]
  refine ⟨?_, ?_, fun i hi => State.tableEntry_withPage ?_ hi habsent, fun j hj => ?_⟩
  · rw [State.event_mem]
    exact s₂.makeRoom_mem core cls
  · rw [State.core_event, State.core_updCore_same]
  · rw [State.core_event, State.core_updCore_same, State.core_updCore_same]
  · rw [(OnlyAt.event _ k core 0x12 1).ctxs j hj, State.ctx_updCore, State.ctx_updCore, State.ctx_makeRoom]

/-! ## Errors in resident entries (R81, R413) -/

theorem State.issuing_eq {s : State} {core k : Nat} (hk : (s.core core).running = some k) (hd : (s.ctx k).drain = .none) :
    s.issuing core = some k := by
  unfold State.issuing
  simp only [hk, hd, if_true]

/-- The core without a page of its decode tables. -/
def Core.withoutPage (c : Core) (h cls page : Nat) : Core :=
  { c with pages := c.pages.filter fun p => !(p.cls = cls && p.handle = h && p.page = page) }

/-- An uncorrectable error in an entry that the next bundle names evicts its page, and is counted. -/
theorem decodeError_eq {s : State} {core k cls page : Nat} {tokens : List (Nat × Nat)} {imms : List Nat} {immw safe : Bool} {n : Nat}
    (hk : (s.core core).running = some k) (hd : (s.ctx k).drain = .none) (hb : (s.core core).bundle = none)
    (hf : s.fetched k = .stream (.bundle tokens imms immw safe n)) (hx : ∃ x ∈ tokens, slotClass x.1 = cls ∧ x.2 / 16 = page)
    (hr : s.pageResident core (s.ctx k).dictHandle cls page = true) :
    decodeError core cls page s =
      (s.updCore core fun c => c.withoutPage (s.ctx k).dictHandle cls page).count (ctrEvicted core) 1 := by
  have hnamed : (tokens.any fun x => slotClass x.1 = cls && x.2 / 16 = page) = true := by
    simpa only [List.any_eq_true, Bool.and_eq_true, decide_eq_true_eq] using hx
  unfold decodeError
  simp only [State.issuing_eq hk hd, hf, hnamed, hb, hr, Option.isNone_none, Bool.and_true, if_true]
  rfl

theorem State.pageResident_withoutPage (s : State) (core h cls page : Nat) :
    (s.updCore core fun c => c.withoutPage h cls page).pageResident core h cls page = false := by
  rw [State.pageResident_eq_false_iff, State.core_updCore_same]
  intro p hp
  simpa only [Bool.not_eq_true'] using (List.mem_filter.mp hp).2

/-! ## Lines of code (R72, R232) -/

/-- A line of code whose two halves are read is the line of their bytes, with no pins. -/
theorem State.readCode_eq {s s₁ s₂ : State} {core region line : Nat} {lo hi : List Byte}
    (hlo : s.lineRead region .fetch (line * 128) = (.ok lo, s₁)) (hhi : s₁.lineRead region .fetch (line * 128 + 64) = (.ok hi, s₂)) :
    s.readCode core region line =
      (.ok { asid := s₂.asidOf region, line := line, valid := true, bytes := lo ++ hi, pins := [] }, s₂) := by
  unfold State.readCode
  simp only [hlo, hhi]

/-- A line of code that is read is put in the instruction cache. -/
theorem instructionCacheFill_eq {s s₂ : State} {core k line : Nat} {l : CodeLine} (hk : (s.core core).running = some k)
    (hd : (s.ctx k).drain = .none) (hf : s.fetched k = .miss line) (hl : s.readCode core (s.regionOf k) line = (.ok l, s₂)) :
    instructionCacheFill core s = s₂.installLine core l := by
  unfold instructionCacheFill
  simp only [State.issuing_eq hk hd, hf, hl]

/-- A line put in the instruction cache stands first, and takes the pins of the lines that it replaces. -/
theorem State.installLine_head? (s : State) (core : Nat) (l : CodeLine) :
    ((s.installLine core l).core core).icache.head? =
      some { l with pins := ((((s.core core).icache.filter fun x => x.line = l.line && x.asid = l.asid).map CodeLine.pins).flatten) } := by
  unfold State.installLine
  rw [State.core_updCore_same]
  rfl

/-- Settles O50: each of the three deeds is put in its closed form, from which its parts are read off. -/
theorem fetchIsServed : Obligations.FetchIsServed := by
  unfold Obligations.FetchIsServed
  refine ⟨?_, ?_, ?_⟩
  · intro s s₁ s₂ core k cls page rest d lo hi hk hf h at' hd hr hlo hhi
    exact ⟨dictionaryRefill core s, rfl, dictionaryRefill_serves hk hf hd hr hlo hhi⟩
  · intro s core k cls page tokens imms immw safe n hk hd hb hf hx hr
    exact ⟨s.updCore core fun c => c.withoutPage (s.ctx k).dictHandle cls page,
      congrArg Host.Outcome.next (decodeError_eq hk hd hb hf hx hr), s.pageResident_withoutPage core _ cls page,
      fun j hj => s.core_updCore_other _ hj, rfl, rfl⟩
  · intro s s₁ s₂ core k line lo hi hk hd hf hlo hhi
    have hfill := instructionCacheFill_eq hk hd hf (State.readCode_eq (core := core) hlo hhi)
    exact ⟨_, congrArg Host.Outcome.next hfill, rfl, fun _ => rfl, s₂.installLine_head? core _⟩

end Sys2Proof.Machine
end

section
/-! SUPPORT. What the pure functions of the S class compute, in the terms of R104 to R112. -/

namespace Sys2Proof.Machine

/-! ## Words and integers -/

/-- The signed value of the low w bits is that of the word of those bits. -/
theorem signedOf_eq_toInt (w x : Nat) : signedOf w x = (BitVec.ofNat w x).toInt := by
  rw [BitVec.toInt_eq_toNat_cond, BitVec.toNat_ofNat, signedOf]
  cases w with
  | zero => simp [Nat.mod_one]
  | succ n =>
    have h : x % 2 ^ (n + 1) < 2 ^ n ↔ 2 * (x % 2 ^ (n + 1)) < 2 ^ (n + 1) := by omega
    simp only [Nat.add_sub_cancel, h]

theorem ofNat_wrapInt (w : Nat) (z : Int) : BitVec.ofNat w (wrapInt w z) = BitVec.ofInt w z := by
  apply BitVec.eq_of_toNat_eq
  rw [BitVec.toNat_ofNat, BitVec.toNat_ofInt, wrapInt]
  have hpos : (0 : Int) < (2 ^ w : Nat) := Int.natCast_pos.2 (Nat.two_pow_pos w)
  have hlt : z % (2 ^ w : Nat) < (2 ^ w : Nat) := Int.emod_lt_of_pos z hpos
  exact Nat.mod_eq_of_lt ((Int.toNat_lt (Int.emod_nonneg z (Int.ne_of_gt hpos))).2 hlt)

/-! ## Two operands (R104 to R107, R111, R112) -/

theorem add_eq_ofNat (a b : W64) : a + b = BitVec.ofNat 64 (a.toNat + b.toNat) := by
  simp [BitVec.ofNat_add]

theorem ofInt_sub_toNat {w : Nat} (a b : BitVec w) : BitVec.ofInt w (a.toNat - b.toNat) = a - b := by
  rw [Int.sub_eq_add_neg, BitVec.ofInt_add, BitVec.ofInt_neg, BitVec.sub_eq_add_neg]
  simp

theorem addwS_eq (a b : W64) : addwS a b = Spec.word32 (a.toNat + b.toNat) := by
  rw [addwS, Spec.word32, BitVec.ofInt_add, BitVec.ofInt_natCast, BitVec.ofInt_natCast]
  rfl

theorem subwS_eq (a b : W64) : subwS a b = Spec.word32 (a.toNat - b.toNat) := by
  rw [subwS, Spec.word32, Int.sub_eq_add_neg, BitVec.ofInt_add, BitVec.ofInt_neg, BitVec.ofInt_natCast, BitVec.ofInt_natCast,
    ← BitVec.sub_eq_add_neg]
  rfl

theorem mulwS_eq (a b : W64) : mulwS a b = Spec.word32 (a.toNat * b.toNat) := by
  rw [mulwS, Spec.word32, BitVec.ofInt_mul, BitVec.ofInt_natCast, BitVec.ofInt_natCast]
  rfl

theorem mul_eq_ofNat (a b : W64) : a * b = BitVec.ofNat 64 (a.toNat * b.toNat) := by
  simp [BitVec.ofNat_mul]

theorem shiftLeft_eq_ofNat (a : W64) (n : Nat) : a <<< n = BitVec.ofNat 64 (a.toNat * 2 ^ n) := by
  apply BitVec.eq_of_toNat_eq
  rw [BitVec.toNat_shiftLeft, BitVec.toNat_ofNat, Nat.shiftLeft_eq]

theorem ushiftRight_eq_ofNat (a : W64) (n : Nat) : a >>> n = BitVec.ofNat 64 (a.toNat / 2 ^ n) := by
  rw [← Nat.shiftRight_eq_div_pow, ← BitVec.toNat_ushiftRight, BitVec.ofNat_toNat, BitVec.setWidth_eq]

theorem sshiftRight_eq_ofInt (a : W64) (n : Nat) : a.sshiftRight n = BitVec.ofInt 64 (a.toInt / 2 ^ n) := by
  rw [BitVec.sshiftRight, Int.shiftRight_eq_div_pow]
  norm_cast

theorem rotateLeft_eq_or {n : Nat} (hn : n < 64) (a : W64) :
    a.rotateLeft n = if n = 0 then a else (a <<< n) ||| (a >>> (64 - n)) := by
  rw [BitVec.rotateLeft_def, Nat.mod_eq_of_lt hn]
  split
  case isTrue h => simp [h, BitVec.ushiftRight_eq_zero]
  case isFalse => rfl

theorem rotateRight_eq_or {n : Nat} (hn : n < 64) (a : W64) :
    a.rotateRight n = if n = 0 then a else (a >>> n) ||| (a <<< (64 - n)) := by
  rw [BitVec.rotateRight_def, Nat.mod_eq_of_lt hn]
  split
  case isTrue h => simp [h, BitVec.shiftLeft_eq_zero]
  case isFalse => rfl

theorem packS_eq {n : Nat} (hn : n < 64) (a b : W64) : packS n a b = (b <<< n) ||| (a &&& BitVec.ofNat 64 (2 ^ n - 1)) := by
  have hlow : BitVec.ofNat 64 (a.toNat % 2 ^ n) = a &&& BitVec.ofNat 64 (2 ^ n - 1) := by
    have hpow : 2 ^ n < 2 ^ 64 := Nat.pow_lt_pow_right (by decide) hn
    apply BitVec.eq_of_toNat_eq
    rw [BitVec.toNat_and, BitVec.toNat_ofNat, BitVec.toNat_ofNat, Nat.mod_eq_of_lt (by omega : 2 ^ n - 1 < 2 ^ 64),
      Nat.and_two_pow_sub_one_eq_mod]
    exact Nat.mod_eq_of_lt (Nat.lt_of_le_of_lt (Nat.mod_le _ _) a.isLt)
  rw [packS, hlow]

theorem add_shiftLeft_eq_ofNat (a b : W64) (n : Nat) : a + (b <<< n) = BitVec.ofNat 64 (a.toNat + b.toNat * 2 ^ n) := by
  rw [BitVec.ofNat_add, ← shiftLeft_eq_ofNat, BitVec.ofNat_toNat, BitVec.setWidth_eq]

/-! ## One operand (R109, R110) -/

theorem clzS_toNat (a : W64) : (clzS a).toNat = leadingZeros 64 a.toNat := by
  rw [clzS, BitVec.toNat_ofNat]
  exact Nat.mod_eq_of_lt (by unfold leadingZeros; split <;> omega)

theorem leadingZeros_le (w x : Nat) : leadingZeros w x ≤ w := by
  unfold leadingZeros; split <;> omega

/-- Above the highest one bit of a w-bit value stand zeros. -/
theorem testBit_above_leadingZeros {w x i : Nat} (hx : x < 2 ^ w) (h : w - leadingZeros w x ≤ i) : x.testBit i = false := by
  by_cases h0 : x = 0
  · simp [h0]
  · have hlog : x.log2 < w := (Nat.log2_lt h0).2 hx
    rw [leadingZeros, if_neg h0] at h
    exact Nat.testBit_lt_two_pow ((Nat.log2_lt h0).1 (by omega))

/-- Below the leading zeros of a value stands its highest one bit. -/
theorem testBit_leadingZeros {w x : Nat} (hx : x < 2 ^ w) (h : leadingZeros w x < w) :
    x.testBit (w - 1 - leadingZeros w x) = true := by
  by_cases h0 : x = 0
  · simp [leadingZeros, h0] at h
  · have hlog : x.log2 < w := (Nat.log2_lt h0).2 hx
    rw [leadingZeros, if_neg h0, show w - 1 - (w - 1 - x.log2) = x.log2 by omega]
    exact Nat.testBit_log2 h0

theorem trailingZeros_le (n x : Nat) : trailingZeros n x ≤ n := by
  induction n generalizing x with
  | zero => exact Nat.le_refl 0
  | succ n ih =>
    have := ih (x / 2)
    unfold trailingZeros; split <;> omega

theorem testBit_below_trailingZeros {n x i : Nat} (h : i < trailingZeros n x) : x.testBit i = false := by
  induction n generalizing x i with
  | zero => exact absurd h (Nat.not_lt_zero i)
  | succ n ih =>
    unfold trailingZeros at h
    split at h
    · omega
    · cases i with
      | zero => simp; omega
      | succ i => rw [Nat.testBit_succ]; exact ih (by omega)

theorem testBit_trailingZeros {n x : Nat} (h : trailingZeros n x < n) : x.testBit (trailingZeros n x) = true := by
  induction n generalizing x with
  | zero => exact absurd h (Nat.not_lt_zero _)
  | succ n ih =>
    unfold trailingZeros at h ⊢
    split at h
    case isTrue hx => simp [hx]
    case isFalse hx => rw [if_neg hx, Nat.add_comm, Nat.testBit_succ]; exact ih (by omega)

theorem ctzS_toNat (a : W64) : (ctzS a).toNat = trailingZeros 64 a.toNat := by
  rw [ctzS, BitVec.toNat_ofNat]
  exact Nat.mod_eq_of_lt (by have := trailingZeros_le 64 a.toNat; omega)

theorem popCount_eq_length (n x : Nat) : popCount n x = ((List.range n).filter fun i => x.testBit i).length := by
  induction n generalizing x with
  | zero => rfl
  | succ n ih =>
    have hshift : (fun i => x.testBit i) ∘ Nat.succ = fun i => (x / 2).testBit i := funext fun i => Nat.testBit_succ x i
    rw [List.range_succ_eq_map, List.filter_cons, List.filter_map, hshift, popCount, ih]
    rcases Nat.mod_two_eq_zero_or_one x with h | h <;> simp [h, Nat.add_comm]

theorem popcS_toNat (a : W64) : (popcS a).toNat = ((List.range 64).filter fun i => a.getLsbD i).length := by
  have hle : popCount 64 a.toNat ≤ 64 := by
    rw [popCount_eq_length]
    exact Nat.le_trans (List.length_filter_le _ _) (Nat.le_of_eq List.length_range)
  rw [popcS, BitVec.toNat_ofNat, Nat.mod_eq_of_lt (by omega), popCount_eq_length]
  rfl

theorem length_toBytes (n x : Nat) : (toBytes n x).length = n := by
  induction n generalizing x with
  | zero => rfl
  | succ n ih => rw [toBytes, List.length_cons, ih]

theorem toBytes_getElem? {n i : Nat} (x : Nat) (h : i < n) : (toBytes n x)[i]? = some (BitVec.ofNat 8 (x / 256 ^ i)) := by
  induction n generalizing x i with
  | zero => exact absurd h (Nat.not_lt_zero i)
  | succ n ih =>
    cases i with
    | zero => simp [toBytes]
    | succ i => rw [toBytes, List.getElem?_cons_succ, ih _ (by omega), Nat.div_div_eq_div_mul, Nat.pow_succ']

theorem ofBytes_byte {bs : List Byte} {i : Nat} {b : Byte} (h : bs[i]? = some b) : ofBytes bs / 256 ^ i % 256 = b.toNat := by
  induction bs generalizing i with
  | nil => simp at h
  | cons c bs ih =>
    have hc := c.isLt
    cases i with
    | zero =>
      obtain rfl : c = b := by simpa using h
      rw [ofBytes]
      omega
    | succ i =>
      rw [List.getElem?_cons_succ] at h
      rw [ofBytes, Nat.pow_succ', ← Nat.div_div_eq_div_mul, show (c.toNat + 256 * ofBytes bs) / 256 = ofBytes bs by omega]
      exact ih h

theorem ofBytes_lt (bs : List Byte) : ofBytes bs < 256 ^ bs.length := by
  induction bs with
  | nil => simp [ofBytes]
  | cons b bs ih =>
    have hb := b.isLt
    rw [ofBytes, List.length_cons, Nat.pow_succ]
    omega

/-- Byte j of a value, as a word of eight bits. -/
theorem extractLsb'_byte (x : W64) (j : Nat) : x.extractLsb' (8 * j) 8 = BitVec.ofNat 8 (x.toNat / 256 ^ j) := by
  apply BitVec.eq_of_toNat_eq
  rw [BitVec.extractLsb'_toNat, BitVec.toNat_ofNat, Nat.shiftRight_eq_div_pow, Nat.pow_mul]

theorem bswapS_byte (a : W64) {j : Nat} (hj : j < 8) : (bswapS a).extractLsb' (8 * (7 - j)) 8 = a.extractLsb' (8 * j) 8 := by
  have hlt : ofBytes (toBytes 8 a.toNat).reverse < 2 ^ 64 := by
    simpa [length_toBytes] using ofBytes_lt (toBytes 8 a.toNat).reverse
  have hbyte : (toBytes 8 a.toNat).reverse[7 - j]? = some (BitVec.ofNat 8 (a.toNat / 256 ^ j)) := by
    rw [List.getElem?_reverse (by rw [length_toBytes]; omega), length_toBytes, show 8 - 1 - (7 - j) = j by omega,
      toBytes_getElem? _ hj]
  rw [extractLsb'_byte, extractLsb'_byte, bswapS, BitVec.toNat_ofNat, Nat.mod_eq_of_lt hlt]
  apply BitVec.eq_of_toNat_eq
  rw [BitVec.toNat_ofNat]
  exact ofBytes_byte hbyte

/-- sext from bit p sign-extends the word of the low p + 1 bits. -/
theorem sextS_eq_signExtend (p : Nat) (a : W64) : sextS p a = (BitVec.ofNat (p + 1) a.toNat).signExtend 64 := by
  rw [sextS, ofNat_wrapInt, signedOf_eq_toInt, BitVec.signExtend]

theorem sextS_getLsbD {p i : Nat} (a : W64) (hi : i < 64) : (sextS p a).getLsbD i = a.getLsbD (min i p) := by
  have hbit (j : Nat) (hj : j < p + 1) : (BitVec.ofNat (p + 1) a.toNat).getLsbD j = a.getLsbD j := by
    rw [BitVec.getLsbD_ofNat, decide_eq_true hj, Bool.true_and]; rfl
  rw [sextS_eq_signExtend, BitVec.getLsbD_signExtend, decide_eq_true hi, Bool.true_and]
  split
  case isTrue h => rw [hbit i h, Nat.min_eq_left (by omega)]
  case isFalse h =>
    rw [BitVec.msb_eq_getLsbD_last, Nat.add_sub_cancel, hbit p (by omega), Nat.min_eq_right (by omega)]

theorem zextS_getLsbD {p i : Nat} (a : W64) (hi : i < 64) : (zextS p a).getLsbD i = (decide (i ≤ p) && a.getLsbD i) := by
  rw [zextS, BitVec.getLsbD_ofNat, decide_eq_true hi, Bool.true_and, Nat.testBit_mod_two_pow]
  simp only [Nat.lt_succ_iff]
  rfl

end Sys2Proof.Machine
end

section
/-! SUPPORT. The scalar operations that only compute (R104 to R112): each issues one shared operation of two sources or of one. -/

namespace Sys2Proof.Machine

/-! ## Results and their destinations -/

/-- What an operation puts in flight whose destination is written unless WS = 1. -/
theorem lands_eq (u : SlotS) (lat : Nat) (x : W64) (status : BitVec 8) (ws : Bool) (w : Landing) (e : Env) :
    ScalarResult.lands u lat { value := x, status := status, dest := if ws then none else some w } e =
      ((e.t + lat, .latchS u.index x) :: if ws then [] else [(e.t + lat + 1, w)])
        ++ if status = 0 then [] else [(e.t + lat + 1, .status u.index status)] := by
  unfold ScalarResult.lands
  cases ws <;> rfl

theorem lands_noStatus (u : SlotS) (lat : Nat) (x : W64) (ws : Bool) (w : Landing) (e : Env) :
    ScalarResult.lands u lat { value := x, status := 0, dest := if ws then none else some w } e =
      (e.t + lat, .latchS u.index x) :: if ws then [] else [(e.t + lat + 1, w)] :=
  (lands_eq u lat x 0 ws w e).trans (List.append_nil _)

theorem lands_plainResult (u : SlotS) (f : FieldS) (lat : Nat) (x : W64) (e : Env) :
    (plainResult f x).lands u lat e = Spec.scalarLands u f e lat x :=
  lands_noStatus u lat x f.ws _ e

theorem lands_withStatus (u : SlotS) (f : FieldS) (lat : Nat) (x : W64) (status : BitVec 8) (e : Env) :
    ScalarResult.lands u lat { plainResult f x with status := status } e =
      Spec.scalarLands u f e lat x ++ if status = 0 then [] else [(e.t + lat + 1, .status u.index status)] :=
  lands_eq u lat x status f.ws _ e

/-! ## Two sources, one source -/

/-- Each two-operand instruction issues an operation of two sources, whose function is the spec's. -/
theorem exec_twoOperand {i : Instr} {u : SlotS} {f : FieldS} {lat : Nat} {fn : W64 → W64 → W64}
    (h : Spec.twoOperand i = some (u, f, lat, fn)) :
    ∃ uf, ∀ s, exec i s = .next (issueOps [binaryS u f uf lat fn] s) := by
  have issues {g : W64 → W64 → W64} (uf : Nat) (hx : ∀ s, exec i s = .next (issueOps [binaryS u f uf lat g] s))
      (hg : ∀ a b, g a b = fn a b) : ∃ uf, ∀ s, exec i s = .next (issueOps [binaryS u f uf lat fn] s) :=
    ⟨uf, (funext fun a => funext (hg a) : g = fn) ▸ hx⟩
  have amount (b : W64) : b.toNat % 64 < 64 := Nat.mod_lt _ (by decide)
  unfold Spec.twoOperand at h
  split at h
  case h_1 => cases h; exact issues 0x01 (fun _ => rfl) add_eq_ofNat
  case h_2 => cases h; exact issues 0x02 (fun _ => rfl) fun a b => (ofInt_sub_toNat a b).symm
  case h_3 => cases h; exact issues 0x03 (fun _ => rfl) addwS_eq
  case h_4 => cases h; exact issues 0x04 (fun _ => rfl) subwS_eq
  case h_5 => cases h; exact issues 0x05 (fun _ => rfl) fun _ _ => rfl
  case h_6 => cases h; exact issues 0x06 (fun _ => rfl) fun _ _ => rfl
  case h_7 => cases h; exact issues 0x07 (fun _ => rfl) fun _ _ => rfl
  case h_8 => cases h; exact issues 0x08 (fun _ => rfl) fun _ _ => rfl
  case h_9 => cases h; exact issues 0x09 (fun _ => rfl) fun _ _ => rfl
  case h_10 => cases h; exact issues 0x0A (fun _ => rfl) fun _ _ => rfl
  case h_11 => cases h; exact issues 0x1A (fun _ => rfl) fun a b => by simp only [BitVec.slt_iff_toInt_lt]
  case h_12 => cases h; exact issues 0x1B (fun _ => rfl) fun a b => by simp only [BitVec.slt_iff_toInt_lt]
  case h_13 => cases h; exact issues 0x1C (fun _ => rfl) fun a b => by simp only [BitVec.ult_iff_toNat_lt]
  case h_14 => cases h; exact issues 0x1D (fun _ => rfl) fun a b => by simp only [BitVec.ult_iff_toNat_lt]
  case h_15 => cases h; exact issues 0x0B (fun _ => rfl) fun a b => shiftLeft_eq_ofNat a _
  case h_16 => cases h; exact issues 0x0C (fun _ => rfl) fun a b => ushiftRight_eq_ofNat a _
  case h_17 => cases h; exact issues 0x0D (fun _ => rfl) fun a b => sshiftRight_eq_ofInt a _
  case h_18 => cases h; exact issues 0x0E (fun _ => rfl) fun a b => rotateLeft_eq_or (amount b) a
  case h_19 => cases h; exact issues 0x0F (fun _ => rfl) fun a b => rotateRight_eq_or (amount b) a
  case h_20 => cases h; exact issues 0x10 (fun _ => rfl) mul_eq_ofNat
  case h_21 => cases h; exact issues 0x11 (fun _ => rfl) fun _ _ => rfl
  case h_22 => cases h; exact issues 0x12 (fun _ => rfl) fun _ _ => rfl
  case h_23 => cases h; exact issues 0x13 (fun _ => rfl) mulwS_eq
  case h_24 => cases h; exact issues 0x25 (fun _ => rfl) (packS_eq (Nat.mod_lt _ (by decide)))
  case h_25 => cases h; exact issues 0x28 (fun _ => rfl) fun a b => add_shiftLeft_eq_ofNat a b _
  case h_26 => cases h

/-- Each one-operand instruction issues an operation of one source, whose result is as the spec says. -/
theorem exec_oneOperand {i : Instr} {u : SlotS} {f : FieldS} {lat : Nat} {rel : W64 → W64 → Prop}
    (h : Spec.oneOperand i = some (u, f, lat, rel)) :
    ∃ uf fn, (∀ s, exec i s = .next (issueOps [unaryS u f uf lat fn] s)) ∧ ∀ a, rel a (fn a) := by
  unfold Spec.oneOperand at h
  split at h
  case h_1 =>
    cases h
    refine ⟨0x1E, clzS, fun _ => rfl, fun a => ?_⟩
    simp only [clzS_toNat]
    exact ⟨leadingZeros_le .., fun _ => testBit_above_leadingZeros a.isLt, testBit_leadingZeros a.isLt⟩
  case h_2 =>
    cases h
    refine ⟨0x1F, ctzS, fun _ => rfl, fun a => ?_⟩
    simp only [ctzS_toNat]
    exact ⟨trailingZeros_le .., fun _ => testBit_below_trailingZeros, testBit_trailingZeros⟩
  case h_3 => cases h; exact ⟨0x20, popcS, fun _ => rfl, popcS_toNat⟩
  case h_4 => cases h; exact ⟨0x21, bswapS, fun _ => rfl, fun a _ => bswapS_byte a⟩
  case h_5 => cases h; exact ⟨0x22, _, fun _ => rfl, fun a _ => sextS_getLsbD a⟩
  case h_6 => cases h; exact ⟨0x23, _, fun _ => rfl, fun a _ => zextS_getLsbD a⟩
  case h_7 => cases h; exact ⟨0x24, _, fun _ => rfl, fun _ => rfl⟩
  case h_8 => cases h

theorem binaryS_results {s : State} {e : Env} (u : SlotS) (f : FieldS) (uf lat : Nat) (fn : W64 → W64 → W64)
    (hr : Ready s e u.index f.pf f.pn) :
    Results s (issueOps [binaryS u f uf lat fn] s) e u.index 1 1
      (Spec.scalarLands u f e lat (fn (scalarOperand s e u.index 0 f.opa) (scalarOperand s e u.index 1 f.opb))) := by
  have h : Results s (issueOps [binaryS u f uf lat fn] s) e u.index 1 1 _ := scalarOp_results u f uf lat 1 _ hr
  simpa only [lands_plainResult, opaS_start, opbS_start] using h

theorem unaryS_results {s : State} {e : Env} (u : SlotS) (f : FieldS) (uf lat : Nat) (fn : W64 → W64)
    (hr : Ready s e u.index f.pf f.pn) :
    Results s (issueOps [unaryS u f uf lat fn] s) e u.index 1 1
      (Spec.scalarLands u f e lat (fn (scalarOperand s e u.index 0 f.opa))) := by
  have h : Results s (issueOps [unaryS u f uf lat fn] s) e u.index 1 1 _ := scalarOp_results u f uf lat 1 _ hr
  simpa only [lands_plainResult, opaS_start] using h

/-- Settles O1: each instruction issues a shared operation whose function is the spec's, and that operation's results are its whole
effect. -/
theorem scalarOperationResults : Obligations.ScalarOperationResults := by
  unfold Obligations.ScalarOperationResults
  constructor
  · intro i u f lat fn hi s e hr
    obtain ⟨uf, hexec⟩ := exec_twoOperand hi
    exact ⟨_, hexec s, binaryS_results u f uf lat fn hr⟩
  · intro i u f lat rel hi s e hr
    obtain ⟨uf, fn, hexec, hrel⟩ := exec_oneOperand hi
    exact ⟨_, _, hexec s, hrel _, unaryS_results u f uf lat fn hr⟩

end Sys2Proof.Machine
end

section
/-! SUPPORT. Integer division (R108): the integers of the operands determine the result, corner cases and all. -/

namespace Sys2Proof.Machine

/-- The integer that the low w bits of an operand of a division stand for. -/
def divisionOperand (w : Nat) (signed : Bool) (x : W64) : Int :=
  if signed then (x.truncate w).toInt else (x.truncate w).toNat

/-- The integer that a division of p by q gives, by Table 8 in the corner cases. -/
def divisionValue (w : Nat) (signed quo : Bool) (p q : Int) : Int :=
  if q = 0 then if quo then -1 else p
  else if signed = true ∧ p = -(2 ^ (w - 1) : Int) ∧ q = -1 then if quo then p else 0
  else if quo then p.tdiv q else p.tmod q

/-- A result of w bits, extended to 64. -/
def divisionExtend (w : Nat) (z : Int) : W64 := if w = 32 then Spec.word32 z else BitVec.ofInt 64 z

@[simp] theorem divisionOperand_signed64 (x : W64) : divisionOperand 64 true x = x.toInt := by simp [divisionOperand]
@[simp] theorem divisionOperand_unsigned64 (x : W64) : divisionOperand 64 false x = x.toNat := by simp [divisionOperand]
@[simp] theorem divisionExtend_64 (z : Int) : divisionExtend 64 z = BitVec.ofInt 64 z := rfl

/-- What R108 asks of a division: its result is the value extended, its status the one that the operands give. -/
theorem divisionResult_of_value {w : Nat} {signed quo : Bool} {a b x : W64}
    (hx : x = divisionExtend w (divisionValue w signed quo (divisionOperand w signed a) (divisionOperand w signed b))) :
    Spec.DivisionResult w signed quo a b x (divStatus signed w (divisionOperand w signed a) (divisionOperand w signed b)) := by
  unfold Spec.DivisionResult
  intro p q ext
  change x = ext (divisionValue w signed quo p q) at hx
  change if q = 0 then _ ∧ divStatus signed w p q = 0x20 else if _ then _ ∧ divStatus signed w p q = 0x40
    else _ ∧ divStatus signed w p q = 0
  subst hx
  split
  case isTrue h0 => simp [divisionValue, divStatus, h0]
  case isFalse h0 =>
    split
    case isTrue hmin => simp [divisionValue, divStatus, hmin]
    case isFalse hmin => simp [divisionValue, divStatus, h0, hmin, and_assoc]

/-! ## The signed divisions of a width -/

theorem toInt_eq_zero_iff {w : Nat} (b : BitVec w) : b.toInt = 0 ↔ b = 0 := by
  rw [← BitVec.toInt_inj]; simp

theorem ofInt_neg_one (w : Nat) : BitVec.ofInt w (-1) = BitVec.allOnes w := by
  rw [BitVec.ofInt_neg]; simp [BitVec.neg_one_eq_allOnes]

/-- Two's complement has no negative of its least value. -/
theorem ofInt_two_pow (n : Nat) : BitVec.ofInt (n + 1) (2 ^ n) = BitVec.ofInt (n + 1) (-(2 ^ n)) := by
  apply BitVec.eq_of_toNat_eq
  have h : (2 : Int) ^ n = -(2 ^ n) + ((2 ^ (n + 1) : Nat) : Int) := by
    rw [Nat.pow_succ]; push_cast; omega
  rw [BitVec.toNat_ofInt, BitVec.toNat_ofInt]
  conv => lhs; rw [h, Int.add_emod_right]

theorem quotient_eq_ofInt {n : Nat} (a b : BitVec (n + 1)) :
    quotient a b = BitVec.ofInt (n + 1) (divisionValue (n + 1) true true a.toInt b.toInt) := by
  unfold quotient divisionValue
  simp only [toInt_eq_zero_iff, if_true, true_and, Nat.add_sub_cancel]
  split
  case isTrue => exact (ofInt_neg_one _).symm
  case isFalse =>
    split
    case isTrue h =>
      obtain ⟨hp, hq⟩ := h
      rw [hp, hq, Int.tdiv_neg, Int.tdiv_one, Int.neg_neg, ofInt_two_pow]
    case isFalse => rfl

theorem remainder_eq_ofInt {n : Nat} (a b : BitVec (n + 1)) :
    remainder a b = BitVec.ofInt (n + 1) (divisionValue (n + 1) true false a.toInt b.toInt) := by
  unfold remainder divisionValue
  simp only [toInt_eq_zero_iff, true_and, Nat.add_sub_cancel, Bool.false_eq_true, if_false]
  split
  case isTrue => exact BitVec.ofInt_toInt.symm
  case isFalse =>
    split
    case isTrue h => rw [h.2, Int.tmod_neg, Int.tmod_one]
    case isFalse => rfl

/-! ## The unsigned divisions -/

theorem divuS_eq_ofInt (a b : W64) : divuS a b = BitVec.ofInt 64 (divisionValue 64 false true a.toNat b.toNat) := by
  have hb : ((b.toNat : Int) = 0) ↔ b = 0 := by rw [← BitVec.toNat_inj]; simp
  unfold divuS divisionValue
  simp only [hb, Bool.false_eq_true, false_and, if_false, if_true]
  split
  case isTrue => exact (ofInt_neg_one 64).symm
  case isFalse =>
    rw [← Int.ofNat_tdiv, BitVec.ofInt_natCast, ← BitVec.toNat_udiv, BitVec.ofNat_toNat, BitVec.setWidth_eq]

theorem remuS_eq_ofInt (a b : W64) : remuS a b = BitVec.ofInt 64 (divisionValue 64 false false a.toNat b.toNat) := by
  have hb : ((b.toNat : Int) = 0) ↔ b = 0 := by rw [← BitVec.toNat_inj]; simp
  unfold remuS divisionValue
  simp only [hb, Bool.false_eq_true, false_and, if_false]
  split
  case isTrue => simp
  case isFalse =>
    rw [← Int.ofNat_tmod, BitVec.ofInt_natCast, ← BitVec.toNat_umod, BitVec.ofNat_toNat, BitVec.setWidth_eq]

/-! ## The six instructions -/

/-- Each division issues a division of its width, whose function gives the value of R108. -/
theorem exec_division {i : Instr} {u : SlotS} {f : FieldS} {w : Nat} {signed quo : Bool}
    (h : Spec.division i = some (u, f, w, signed, quo)) :
    ∃ uf fn, (∀ s, exec i s = .next (issueOps [divisionS u f uf w signed fn] s)) ∧ ∀ a b, fn a b =
      divisionExtend w (divisionValue w signed quo (divisionOperand w signed a) (divisionOperand w signed b)) := by
  unfold Spec.division at h
  split at h
  case h_1 => cases h; exact ⟨0x14, quotient, fun _ => rfl, fun a b => by simpa using quotient_eq_ofInt a b⟩
  case h_2 => cases h; exact ⟨0x15, divuS, fun _ => rfl, fun a b => by simpa using divuS_eq_ofInt a b⟩
  case h_3 => cases h; exact ⟨0x16, remainder, fun _ => rfl, fun a b => by simpa using remainder_eq_ofInt a b⟩
  case h_4 => cases h; exact ⟨0x17, remuS, fun _ => rfl, fun a b => by simpa using remuS_eq_ofInt a b⟩
  case h_5 => cases h; exact ⟨0x18, divwS, fun _ => rfl, fun a b => congrArg sext32 (quotient_eq_ofInt (low32 a) (low32 b))⟩
  case h_6 => cases h; exact ⟨0x19, remwS, fun _ => rfl, fun a b => congrArg sext32 (remainder_eq_ofInt (low32 a) (low32 b))⟩
  case h_7 => cases h

/-- A division lands after 20 cycles, in a slot that it occupies for 20, and raises the status of its operands. -/
theorem divisionS_results {s : State} {e : Env} (u : SlotS) (f : FieldS) (uf w : Nat) (signed : Bool) (fn : W64 → W64 → W64)
    (hr : Ready s e u.index f.pf f.pn) :
    let a := scalarOperand s e u.index 0 f.opa
    let b := scalarOperand s e u.index 1 f.opb
    let status := divStatus signed w (divisionOperand w signed a) (divisionOperand w signed b)
    Results s (issueOps [divisionS u f uf w signed fn] s) e u.index 20 1
      (Spec.scalarLands u f e 20 (fn a b) ++ if status = 0 then [] else [(e.t + 21, .status u.index status)]) := by
  have hint (x : W64) : (if signed then signedOf w x.toNat else (x.toNat % 2 ^ w : Nat)) = divisionOperand w signed x := by
    cases signed
    · exact congrArg Nat.cast (BitVec.toNat_setWidth w x).symm
    · exact (signedOf_eq_toInt w x.toNat).trans (congrArg BitVec.toInt (BitVec.ofNat_toNat w x))
  intro a b status
  have h : Results s (issueOps [divisionS u f uf w signed fn] s) e u.index 20 1 _ := scalarOp_results u f uf 20 20 _ hr
  simp only [lands_withStatus, opaS_start, opbS_start, hint] at h
  exact h

/-- Settles O2: the integers of the operands determine the result and the status of each division, which issues for all of them. -/
theorem divisionNeverTraps : Obligations.DivisionNeverTraps := by
  unfold Obligations.DivisionNeverTraps
  intro i u f w signed quo hi s e hr
  obtain ⟨uf, fn, hexec, hfn⟩ := exec_division hi
  exact ⟨_, _, _, hexec s, divisionResult_of_value (hfn _ _), divisionS_results u f uf w signed fn hr⟩

end Sys2Proof.Machine
end

section
/-! SUPPORT. Compares, selection, flags and masks (R113 to R120): the conditions of Table 9 on 64 and on 32 bits, and the results of the
operations that read implicit state. -/

namespace Sys2Proof.Machine

/-! ## Conditions (R114 Table 9) -/

/-- The condition of Table 9 on the signed values, the unsigned values, and whether the operands share a one bit. -/
def ConditionHolds (cond : Nat) (sa sb : Int) (ua ub : Nat) (tst : Bool) : Prop :=
  match cond with
  | 0 => sa = sb | 1 => sa ≠ sb | 2 => sa < sb | 3 => sb ≤ sa | 4 => ua < ub | 5 => ub ≤ ua
  | 6 => tst = true | _ => tst = false

theorem scalarCond_iff {cond : Nat} (hc : cond < 8) (x y : W64) :
    scalarCond cond x y = true ↔ ConditionHolds cond x.toInt y.toInt x.toNat y.toNat (decide (x &&& y ≠ 0)) := by
  rcases cond with _ | _ | _ | _ | _ | _ | _ | _ | _
  · simp [scalarCond, ConditionHolds, BitVec.toInt_inj]
  · simp [scalarCond, ConditionHolds, BitVec.toInt_inj]
  · exact BitVec.slt_iff_toInt_lt
  · simp [scalarCond, ConditionHolds, BitVec.slt_eq_decide]
  · exact BitVec.ult_iff_toNat_lt
  · simp [scalarCond, ConditionHolds, BitVec.ult_eq_decide]
  · exact Iff.rfl
  · simp [scalarCond, ConditionHolds]
  · omega

theorem sext32_toInt (x : W32) : (sext32 x).toInt = x.toInt := BitVec.toInt_signExtend_of_le (by decide)
theorem zext32_toNat (x : W32) : (zext32 x).toNat = x.toNat := BitVec.toNat_setWidth_of_le (by decide)

theorem sext32_eq_zero_iff (x : W32) : sext32 x = 0 ↔ x = 0 := by
  rw [← toInt_eq_zero_iff, sext32_toInt, toInt_eq_zero_iff]

theorem sext32_and_ne_zero_iff (x y : W32) : sext32 x &&& sext32 y ≠ 0 ↔ x &&& y ≠ 0 := by
  rw [sext32, sext32, ← BitVec.signExtend_and]
  exact not_congr (sext32_eq_zero_iff _)

/-- The conditions other than ltu and geu do not ask for the unsigned values. -/
theorem conditionHolds_signed {cond : Nat} (h4 : cond ≠ 4) (h5 : cond ≠ 5) (sa sb : Int) (ua ub va vb : Nat) (tst : Bool) :
    ConditionHolds cond sa sb ua ub tst ↔ ConditionHolds cond sa sb va vb tst := by
  unfold ConditionHolds
  split
  case h_5 => contradiction
  case h_6 => contradiction
  all_goals rfl

theorem compare_word_iff {cond : Nat} (hc : cond < 8) (a b : W64) :
    compare cond true a b = true ↔
      ConditionHolds cond (low32 a).toInt (low32 b).toInt (low32 a).toNat (low32 b).toNat (decide (low32 a &&& low32 b ≠ 0)) := by
  unfold compare
  rw [if_pos rfl]
  by_cases h : (cond = 4 || cond = 5) = true
  · rw [if_pos h, scalarCond_iff hc]
    simp only [Bool.or_eq_true, decide_eq_true_eq] at h
    rcases h with rfl | rfl <;> simp only [ConditionHolds, zext32_toNat]
  · rw [if_neg h, scalarCond_iff hc]
    simp only [Bool.or_eq_true, decide_eq_true_eq, not_or] at h
    simp only [sext32_toInt, sext32_and_ne_zero_iff]
    exact conditionHolds_signed h.1 h.2 ..

/-- A compare holds where its condition does, of the values of all 64 bits or of the low 32. -/
theorem compare_iff {cond : Nat} (hc : cond < 8) (word : Bool) (a b : W64) :
    compare cond word a b = true ↔ ConditionHolds cond
      (if word then (low32 a).toInt else a.toInt) (if word then (low32 b).toInt else b.toInt)
      (if word then (low32 a).toNat else a.toNat) (if word then (low32 b).toNat else b.toNat)
      (if word then low32 a &&& low32 b ≠ 0 else a &&& b ≠ 0) := by
  cases word
  · exact scalarCond_iff hc a b
  · exact compare_word_iff hc a b

/-! ## Operations that read implicit state (R113, R115 to R120) -/

theorem SameReads.identItem {s t : State} {k : Nat} (h : SameReads s t k) (item : Nat) :
    Machine.identItem t k item = Machine.identItem s k item := by
  obtain ⟨e, pmc, hc⟩ := h.ctx
  have hpos : (t.ctx k).pos = (s.ctx k).pos := by rw [hc]; rfl
  unfold Machine.identItem
  simp only [h.groupOf, h.regionOf, h.openWord, hpos]

section
variable {s : State} {e : Env} {u : SlotS} {f : FieldS}

theorem cmp_results (hr : Ready s e u.index f.pf f.pn) :
    let r := compare (f.aux.toNat % 16) (f.aux.getLsbD 4) (scalarOperand s e u.index 0 f.opa) (scalarOperand s e u.index 1 f.opb)
    let m := flagMask (f.dst.toNat % 16)
    Results s (issueOps [cmpOp u f] s) e u.index 1 1
      ((e.t + 1, .latchS u.index (ofFlag 64 r)) :: if f.ws then [] else [(e.t + 2, .flags m (if r then m else 0))]) := by
  have h : Results s (issueOps [cmpOp u f] s) e u.index 1 1 _ := scalarOp_results u f 0x27 1 1 _ hr
  simpa only [lands_noStatus, opaS_start, opbS_start] using h

theorem sel_results (hr : Ready s e u.index f.pf f.pn) :
    let n := f.aux.toNat % 16
    Results s (issueOps [selOp u f] s) e u.index 1 1 (Spec.scalarLands u f e 1
      (if n = 0 ∨ (s.readFlags e.k e.t (u.index * 4 + 2)).getLsbD n = true then scalarOperand s e u.index 0 f.opa
        else scalarOperand s e u.index 1 f.opb)) := by
  have h : Results s (issueOps [selOp u f] s) e u.index 1 1 _ := scalarOp_results u f 0x26 1 1 _ hr
  simpa only [lands_plainResult, opaS_start, opbS_start, (startIssue_sameReads ..).readFlags, Bool.or_eq_true,
    decide_eq_true_eq] using h

theorem flset_results (hr : Ready s e u.index f.pf f.pn) :
    let b := scalarOperand s e u.index 1 f.opb
    let new := flsetValue (s.readFlags e.k e.t (u.index * 4 + 2)) (scalarOperand s e u.index 0 f.opa) b
    Results s (issueOps [flsetOp u f] s) e u.index 1 1
      ((e.t + 1, .latchS u.index (new.zeroExtend 64)) :: if f.ws then [] else [(e.t + 2, .flags (b.truncate 16) new)]) := by
  have h : Results s (issueOps [flsetOp u f] s) e u.index 1 1 _ := scalarOp_results u f 0x29 1 1 _ hr
  simpa only [lands_noStatus, opaS_start, opbS_start, (startIssue_sameReads ..).readFlags] using h

theorem flget_results (hr : Ready s e u.index f.pf f.pn) :
    Results s (issueOps [flgetOp u f] s) e u.index 1 1
      (Spec.scalarLands u f e 1 ((s.readFlags e.k e.t (u.index * 4 + 2)).zeroExtend 64)) := by
  have h : Results s (issueOps [flgetOp u f] s) e u.index 1 1 _ := scalarOp_results u f 0x2A 1 1 _ hr
  simpa only [lands_plainResult, (startIssue_sameReads ..).readFlags] using h

theorem kget_results (hr : Ready s e u.index f.pf f.pn) :
    Results s (issueOps [kgetOp u f] s) e u.index 1 1
      (Spec.scalarLands u f e 1 (s.readK e.k e.t (u.index * 4) (f.aux.toNat % 8))) := by
  have h : Results s (issueOps [kgetOp u f] s) e u.index 1 1 _ := scalarOp_results u f 0x2D 1 1 _ hr
  simpa only [lands_plainResult, (startIssue_sameReads ..).readK] using h

theorem kset_results (hr : Ready s e u.index f.pf f.pn) :
    let a := scalarOperand s e u.index 0 f.opa
    Results s (issueOps [ksetOp u f] s) e u.index 1 1
      ((e.t + 1, .latchS u.index a) :: if f.ws then [] else [(e.t + 2, .kmask (f.dst.toNat % 8) (BitVec.allOnes 64) a)]) := by
  have h : Results s (issueOps [ksetOp u f] s) e u.index 1 1 _ := scalarOp_results u f 0x2E 1 1 _ hr
  simpa only [lands_noStatus, opaS_start] using h

theorem ident_results (hr : Ready s e u.index f.pf f.pn) :
    Results s (issueOps [identOp u f] s) e u.index 1 1 (Spec.scalarLands u f e 1 (identItem s e.k (f.aux.toNat % 16))) := by
  have h : Results s (issueOps [identOp u f] s) e u.index 1 1 _ := scalarOp_results u f 0x2B 1 1 _ hr
  simpa only [lands_plainResult, (startIssue_sameReads ..).identItem] using h

/-- vget: element b[9:0] of OPA in vector meaning is lane b[5:0] of row b[9:6]. -/
theorem vget_results (hr : Ready s e u.index f.pf f.pn) :
    let b := scalarOperand s e u.index 1 f.opb
    let w := laneOf (sourceRow s e.k e.t (u.index * 4) (vectorOperand s e u.index 0 0 f.opa) (b.toNat / 64 % 16)) (b.toNat % 64)
    Results s (issueOps [vgetOp u f] s) e u.index 1 1
      (Spec.scalarLands u f e 3 (if f.aux.getLsbD 0 then sext32 w else zext32 w)) := by
  have hrow (n : Nat) : n % 1024 / 64 = n / 64 % 16 := by omega
  have hlane (n : Nat) : n % 1024 % 64 = n % 64 := by omega
  have h : Results s (issueOps [vgetOp u f] s) e u.index 1 1 _ := scalarOp_results u f 0x2C 3 1 _ hr
  simpa only [lands_plainResult, opbS_start, (startIssue_sameReads ..).sourceRow, (startIssue_sameReads ..).vectorOperand, hrow,
    hlane] using h

end

/-- Settles O3: each operation's results are those of its own reads before the bundle, and a compare's condition is that of Table 9. -/
theorem compareFlagAndMaskResults : Obligations.CompareFlagAndMaskResults := by
  unfold Obligations.CompareFlagAndMaskResults
  constructor
  · intro u f s e hr a b word cond sa sb ua ub tst hc
    exact ⟨_, compare cond word a b, rfl, compare_iff hc word a b, cmp_results hr⟩
  · intro u f s e hr a b fl n row w new
    exact ⟨⟨_, rfl, sel_results hr⟩, ⟨_, rfl, flset_results hr⟩, ⟨_, rfl, flget_results hr⟩, ⟨_, rfl, kget_results hr⟩,
      ⟨_, rfl, kset_results hr⟩, ⟨_, rfl, ident_results hr⟩, ⟨_, rfl, vget_results hr⟩⟩

end Sys2Proof.Machine
end

section
/-! SUPPORT. The whole effect of tzero on memory (R228), and a state whose list of cells is not in canonical form. -/

namespace Sys2Proof.Machine

/-! ## What the end of a command leaves of memory (R213, R411) -/

@[simp] theorem State.coreEvent_mem (s : State) (k evt n : Nat) : (s.coreEvent k evt n).mem = s.mem := by
  unfold State.coreEvent
  split
  · exact s.event_mem k evt n
  · rfl

/-- What no step of a fold changes of memory, the fold does not change. -/
theorem foldl_keeps_mem {α : Type} (f : State → α → State) (hf : ∀ s a, (f s a).mem = s.mem) (l : List α) (s : State) :
    (l.foldl f s).mem = s.mem := by
  induction l generalizing s with
  | nil => rfl
  | cons a l ih => rw [List.foldl_cons, ih, hf]

@[simp] theorem State.clusterEvent_mem (s : State) (cluster evt n : Nat) : (s.clusterEvent cluster evt n).mem = s.mem := by
  unfold State.clusterEvent
  split
  · exact foldl_keeps_mem _ (fun s k => s.coreEvent_mem k evt n) _ s
  · rfl

@[simp] theorem State.dropEngine_mem (s : State) (n : Nat) : (s.dropEngine n).mem = s.mem := by
  unfold State.dropEngine
  split <;> rfl

@[simp] theorem State.setFlagFrom_mem (s : State) (own : Bool) (k f : Nat) : (s.setFlagFrom own k f).mem = s.mem := by
  unfold State.setFlagFrom State.setFlagAfter
  split
  · rfl
  · split <;> rfl

@[simp] theorem State.joinEngine_mem (s : State) (c : EngineCmd) (pos flag : Nat) : (s.joinEngine c pos flag).mem = s.mem := by
  unfold State.joinEngine
  rw [State.setFlagFrom_mem, State.updCtx_mem]

theorem foldl_joinEngine_mem (c : EngineCmd) (ms : List Member) (s : State) :
    (ms.foldl (fun s m => s.joinEngine c m.pos m.flag) s).mem = s.mem :=
  foldl_keeps_mem _ (fun s m => s.joinEngine_mem c m.pos m.flag) ms s

/-! ## tzero (R228) -/

/-- The last unit of a command: the command leaves its queue, and every member joins (R213, R218). -/
theorem State.runCanopy_last {s u : State} {n beats : Nat} {c d : EngineCmd} {x : Group} (hn : mapGet? s.engine n = some c)
    (hx : c.group.bind s.group? = some x) (hu : s.canopyUnit x c = { value := .ok beats, cmd := d, state := u })
    (hlast : { d with position := c.position + 1 : EngineCmd }.units ≤ c.position + 1) :
    s.runCanopy n 1 = d.members.foldl (fun s m => s.joinEngine { d with position := c.position + 1 } m.pos m.flag)
      ((u.clusterEvent d.cluster 0x60 beats).dropEngine n) := by
  simp only [State.runCanopy, hn, hx, hu, if_pos hlast]

/-- tzero is one unit, of 32 beats, that forgets the cells of its tile. -/
theorem State.canopyUnit_tzero (s : State) (x : Group) {c : EngineCmd} (hu : c.uf = 9) :
    s.canopyUnit x c = { value := .ok 32, cmd := c, state := { s with
      mem := memClear s.mem (tileKey (x.cluster.getD 0) (x.tile c.td) 0) 32768 } } := by
  simp [State.canopyUnit, EngineCmd.joint, hu]

/-- The completion of tzero forgets the cells of its tile, and changes memory in no other way (R213, R228). -/
theorem canopyComplete_tzero_mem {s : State} {cluster n : Nat} {c : EngineCmd} {x : Group}
    (hc : Spec.heads s n c (s.canopyHead cluster)) (hs : c.started = true) (hx : c.group.bind s.group? = some x) (hu : c.uf = 9) :
    (canopyComplete cluster 1 s).mem = memClear s.mem (tileKey (x.cluster.getD 0) (x.tile c.td) 0) 32768 := by
  obtain ⟨hhead, hn⟩ := hc
  have hlast : { c with position := c.position + 1 : EngineCmd }.units ≤ c.position + 1 := by
    simp [EngineCmd.units, EngineCmd.joint, hu]
  have hrun : canopyComplete cluster 1 s = s.runCanopy n 1 := by
    unfold canopyComplete
    rw [hhead]
    exact if_pos hs
  rw [hrun, State.runCanopy_last hn hx (s.canopyUnit_tzero x hu) hlast, foldl_joinEngine_mem,
    State.dropEngine_mem, State.clusterEvent_mem]

/-! ## Cells out of order -/

/-- A group of one context on cluster 0, whose tile 0 is the cluster's tile 0. -/
def loneGroup : Group :=
  { command := 0, region := 0, g := 0, gcount := 1, decl := { n := 1, b := 0, q := 0, barriers := 0, queues := 0, latches := 0 }
    dictObj := 0, bas := Vector.replicate 16 0, cluster := some 0, contexts := [0], banks := [], barriers := [], queues := []
    streams := [], latches := [], records := [], contReserved := false, fault := none, preempting := false, saved := none
    kept := false, placedAt := 0 }

/-- Its context as the issuer of a command that sets no flag. -/
def loneMember : Member :=
  { index := 0, pos := 0, td := 0, ta := 0, ti := 0, sl := 0, flag := 0, adt := 0, ts := Vector.replicate 32 0
    fmt := Vector.replicate 16 0, lts := 0, phase := none }

/-- A started tzero of its tile 0. -/
def startedTzero : EngineCmd :=
  { copy := false, uf := 9, group := some 0, pos := 0, cluster := 0, core := 0, region := 0, command := 0, td := 0, ta := 0, sl := 0
    aux := 0, flag := 0, operand := 0, members := [loneMember], rows := [], queued := true, started := true, position := 0
    origin := 0, forked := 0, lts := 0, asid := 0, user := false, desc := none, resumed := false, cancel := false, refetch := false
    phase := none, packet := false, entries := [] }

/-- The tzero at the head of Canopy's queue, over a list of cells that does not rise: the first byte of the tile stands before byte 0
of tier 0, and hides it. -/
def unorderedCells : State :=
  { State.reset with
    groups := [(0, loneGroup)], engine := [(0, startedTzero)], mem := [(tileKey 0 0 0, 1), (tierKey 0 0, 1)] }

/-- With the tile cleared, the byte that its cell has hidden reads 1. -/
theorem unorderedCells_uncovered :
    memGet unorderedCells.mem (tierKey 0 0) = 0 ∧
      memGet (memClear unorderedCells.mem (tileKey 0 0 0) 32768) (tierKey 0 0) = 1 := by decide

/-- Refutes O53: its clause of tzero says that no byte outside the tile reads differently afterwards, of every state, also of one whose
memory is not in canonical form (log entry 4, O42). There the read of a key stops at the first cell of a higher key, so that clearing
such a cell uncovers the ones behind it. -/
theorem not_canopyRuns : ¬ Obligations.CanopyRuns := by
  unfold Obligations.CanopyRuns
  intro h
  have hhead : Spec.heads unorderedCells 0 startedTzero (unorderedCells.canopyHead 0) := ⟨by decide, by decide⟩
  obtain ⟨-, -, hunits⟩ := h unorderedCells 0 0 startedTzero hhead
  obtain ⟨-, -, -, -, -, -, -, htzero, -⟩ := hunits 0 loneGroup rfl rfl rfl
  obtain ⟨t, hexec, -, -, hkept, -⟩ := htzero loneMember 0 rfl rfl rfl (by decide) (by decide) rfl (by decide)
  have ht : canopyComplete 0 1 unorderedCells = t := Host.Outcome.next.inj hexec
  have hmem : t.mem = memClear unorderedCells.mem (tileKey 0 0 0) 32768 := by
    have hx : startedTzero.group.bind unorderedCells.group? = some loneGroup := rfl
    have hc := canopyComplete_tzero_mem hhead rfl hx rfl
    rw [← ht, hc]
    rfl
  have houtside (o : Nat) : tierKey 0 0 ≠ tileKey 0 0 o := by unfold tierKey tileKey; omega
  have hsame := hkept (tierKey 0 0) fun o _ => houtside o
  obtain ⟨hbefore, hafter⟩ := unorderedCells_uncovered
  rw [hmem, hafter, hbefore] at hsame
  exact absurd hsame (by decide)

end Sys2Proof.Machine
end

section
/-! SUPPORT. The move of one element of a copy command (R337), and a tcopy over a list of cells that is not in canonical form. -/

namespace Sys2Proof.Machine

/-! ## What the count of a cluster event and the update of a command leave of memory (R411) -/

/-- A core event changes nothing but contexts. -/
theorem State.coreEvent_eq (s : State) (k evt n : Nat) : ∃ cs, s.coreEvent k evt n = { s with ctxs := cs } := by
  unfold State.coreEvent
  split
  · rcases s.event_eq k evt n with h | h <;> exact ⟨_, h⟩
  · exact ⟨_, rfl⟩

/-- A cluster event changes nothing but contexts. -/
theorem State.clusterEvent_eq (s : State) (cluster evt n : Nat) : ∃ cs, s.clusterEvent cluster evt n = { s with ctxs := cs } := by
  unfold State.clusterEvent
  split
  · generalize tabulate id 16 (16 * cluster) = ks
    induction ks generalizing s with
    | nil => exact ⟨_, rfl⟩
    | cons k ks ih =>
      obtain ⟨cs, hk⟩ := s.coreEvent_eq k evt n
      rw [List.foldl_cons, hk]
      exact ih _
  · exact ⟨_, rfl⟩

@[simp] theorem State.clusterEvent_byteAt (s : State) (cluster evt n key : Nat) :
    (s.clusterEvent cluster evt n).byteAt key = s.byteAt key := by
  obtain ⟨cs, h⟩ := s.clusterEvent_eq cluster evt n
  rw [h]
  rfl

@[simp] theorem State.updEngine_byteAt (s : State) (n : Nat) (f : EngineCmd → EngineCmd) (key : Nat) :
    (s.updEngine n f).byteAt key = s.byteAt key := by
  unfold State.updEngine
  split <;> rfl

/-! ## One element of a copy (R337) -/

/-- COPY_COMPLETE of one element that is not the last: the element moves, it counts, and the command goes on behind it. -/
theorem copyComplete_element {s u : State} {cluster n : Nat} {c c' : EngineCmd} {d : CopyDesc}
    (hc : Spec.heads s n c (s.copyRuns cluster)) (hd : c.desc = some d) (hk : d.bit 16 = false)
    (hmore : c.position + d.size < d.count * d.size) (hu : s.copyElement c d = { value := .ok (), cmd := c', state := u }) :
    copyComplete cluster 1 s =
      (u.clusterEvent c'.cluster 0x64 d.size).updEngine n fun _ => { c' with position := c.position + d.size } := by
  obtain ⟨hnext, hn⟩ := hc
  have hpos : ¬ d.count * d.size ≤ c.position := by omega
  unfold copyComplete
  simp only [hnext, State.runCopy, hn, hd, hk, hu, if_neg hpos, if_neg (Nat.not_le.mpr hmore), Bool.false_eq_true, if_false]

/-- COPY_COMPLETE of one element leaves every byte as the move of the element does. -/
theorem copyComplete_element_byteAt {s u : State} {cluster n : Nat} {c c' : EngineCmd} {d : CopyDesc}
    (hc : Spec.heads s n c (s.copyRuns cluster)) (hd : c.desc = some d) (hk : d.bit 16 = false)
    (hmore : c.position + d.size < d.count * d.size) (hu : s.copyElement c d = { value := .ok (), cmd := c', state := u })
    (key : Nat) : (copyComplete cluster 1 s).byteAt key = u.byteAt key := by
  rw [copyComplete_element hc hd hk hmore hu, State.updEngine_byteAt, State.clusterEvent_byteAt]

/-- A write to a tile of a command's group (R334, R337). -/
theorem State.copyWrite_tile {s : State} {c : EngineCmd} {g : Group} {tile : Option Nat} {va j off : Nat} (red n x : Nat)
    (ht : s.engineTile c tile va = .ok (j, off)) (hg : c.group.bind s.group? = some g) :
    s.copyWrite c 2 tile red va n x = { value := .ok (), cmd := c, state := s.tileWrite g j off (toBytes n x) } := by
  simp only [State.copyWrite, ht, hg]

/-- A read of a tile of a command's group (R334, R337). -/
theorem State.copyRead_tile {s : State} {c : EngineCmd} {g : Group} {tile : Option Nat} {va j off : Nat} (n : Nat)
    (ht : s.engineTile c tile va = .ok (j, off)) (hg : c.group.bind s.group? = some g) :
    s.copyRead c 2 tile va n =
      { value := .ok (ofBytes (tabulate (fun o => BitVec.ofNat 8 (s.tileReader g j o)) n off)), cmd := c, state := s } := by
  simp only [State.copyRead, ht, hg]

/-- A tcopy from tile to tile writes what its element reads (R335, R337). -/
theorem State.copyElement_tiles {s : State} {c : EngineCmd} {d : CopyDesc} {g : Group} {i j from' to' : Nat} (hu : c.uf = 0x10)
    (hs : d.ssp = 2) (hd : d.dsp = 2) (hg : c.group.bind s.group? = some g)
    (hsrc : s.engineTile c none (strided d.src (c.elementDigits d) d.sstr) = .ok (i, from'))
    (hdst : s.engineTile c none (strided d.dst (c.elementDigits d) d.dstr) = .ok (j, to')) :
    s.copyElement c d =
      { value := .ok (), cmd := c, state := s.tileWrite g j to'
          (toBytes d.size (ofBytes (tabulate (fun o => BitVec.ofNat 8 (s.tileReader g i o)) d.size from'))) } := by
  have hdigits : s.sourceDigits c d = { value := .ok (some (c.elementDigits d)), cmd := c, state := s } := by
    simp [State.sourceDigits, hu]
  simp [State.copyElement, hdigits, hu, hs, hd, State.copyRead_tile _ hsrc hg, State.copyWrite_tile _ _ _ hdst hg]

/-! ## Cells out of order -/

/-- A valid descriptor of two elements of one byte, which moves the bytes of tile 0 down by one place (R333, R334). -/
def shiftDesc : CopyDesc :=
  { src := 1, dst := 0, cwaddr := 0, cwval := 0, ctl := 10, banks := 0, pos := 0, idx := 0, ext := 2 :: List.replicate 9 0
    sstr := 1 :: List.replicate 9 0, dstr := 1 :: List.replicate 9 0, reservedZero := true }

/-- A started tcopy that moves its first element next. -/
def startedShift : EngineCmd := { startedTzero with copy := true, uf := 0x10, members := [], desc := some shiftDesc }

/-- The copy over the list of cells that does not rise: byte 0 of the tile, whose cell hides byte 0 of tier 0, is to hold the 0 that stands
in byte 1. -/
def unorderedShift : State := { unorderedCells with engine := [(0, startedShift)] }

/-- The element writes a 0 to byte 0 of the tile. -/
theorem unorderedShift_element : unorderedShift.copyElement startedShift shiftDesc =
    { value := .ok (), cmd := startedShift, state := unorderedShift.tileWrite loneGroup 0 0 [0] } :=
  State.copyElement_tiles (i := 0) (from' := 1) rfl rfl rfl rfl rfl rfl

/-- The write takes away the cell that hid byte 0 of tier 0, which then reads 1. -/
theorem unorderedShift_uncovered :
    unorderedShift.byteAt (tierKey 0 0) = 0 ∧
      (unorderedShift.tileWrite loneGroup 0 0 [0]).byteAt (tierKey 0 0) = 1 := by decide

/-- Refutes O54: its clause of an element says that no byte but the destination's reads differently afterwards, of every state, also of
one whose memory is not in canonical form (log entry 4, O42). There a read stops at the first cell of a higher key, so that the write of a
0, which takes such a cell away, uncovers the ones behind it. -/
theorem not_enginesAndRendezvousEnd : ¬ Obligations.EnginesAndRendezvousEnd := by
  unfold Obligations.EnginesAndRendezvousEnd
  intro h
  have hhead : Spec.heads unorderedShift 0 startedShift (unorderedShift.copyRuns 0) := ⟨by decide, by decide⟩
  obtain ⟨-, hruns, -⟩ := h
  obtain ⟨-, -, -, helement, -⟩ := hruns unorderedShift 0 0 startedShift shiftDesc hhead rfl rfl
  obtain ⟨hcopy, -⟩ := helement 0 loneGroup (by decide) rfl rfl rfl rfl (fun _ => rfl) rfl rfl rfl (by decide) (by decide)
    (tileKey 0 0 0) rfl ⟨by decide, by decide⟩
  obtain ⟨t, hexec, -, hkept⟩ := hcopy (by decide) (tileKey 0 0 1) rfl ⟨by decide, by decide⟩
  have ht : copyComplete 0 1 unorderedShift = t := Host.Outcome.next.inj hexec
  have hsame := hkept (tierKey 0 0) (by decide) (.inl (by decide))
  obtain ⟨hbefore, hafter⟩ := unorderedShift_uncovered
  rw [← ht, copyComplete_element_byteAt hhead rfl rfl (by decide) unorderedShift_element, hafter, hbefore] at hsame
  exact absurd hsame (by decide)

end Sys2Proof.Machine
end
